-- ==== Sys2Proof/Word.lean ====
section
/-! DEFINITION. The word types of the LW2840 and the two containers' plainest helpers. -/

namespace Sys2Proof

/-- One byte of exchange memory or of a link's stream (spec 00 "Words and bytes"). -/
abbrev Byte := BitVec 8

/-- One 32-bit word of exchange memory or of the host bus (R128). -/
abbrev Word := BitVec 32

/-- A window sequence number: 16 bits, compared modulo 65536 (spec 00 "Window sequence numbers"). -/
abbrev Seq16 := BitVec 16

/-- One of the six measurement links L0 to L5. -/
abbrev LinkId := Fin 6

/-- One of the eight banks B0 to B7. -/
abbrev BankId := Fin 8

/-- One of the forty physical metering points P0 to P39. -/
abbrev PointId := Fin 40

/-- A register set: P0 to P39, and 40 for the balance point BP (R90). -/
abbrev SetId := Fin 41

/-- One of the 104 quantities of a point (spec 00 "Quantities"). -/
abbrev QuantityId := Fin 104

/-- One of the 32 request slots. -/
abbrev SlotId := Fin 32

/-- One of the 58 record pages, counted from 0: `p` stands for page `p + 6`. -/
abbrev PageId := Fin 58

end Sys2Proof
end

