-- ==== Sys2Proof/Syntax.lean ====
section
/-! DEFINITION. The commands of the block: one constructor per row of spec/opcode_table.json, in the table's order.

A row that the outside causes carries what the pins carry (bytes of a link, a bus access). A row that a block of the part
causes carries which of the like units acts. The rows of the request unit carry nothing: a taken request's operands lie in
the head slot's request area (R150). -/

namespace Sys2Proof

inductive Instr where
  /-- GOOD_FRAME (R6): bytes arrive on a link, ending a good frame. -/
  | goodFrame (link : LinkId) (bytes : List Byte)
  /-- BAD_FRAME (R7): bytes arrive on a link, ending a bad frame. -/
  | badFrame (link : LinkId) (bytes : List Byte)
  /-- HUNT_CANDIDATE (R3): bytes arrive on a link in HUNT and complete a candidate. -/
  | huntCandidate (link : LinkId) (bytes : List Byte)
  /-- SILENCE_TIMER_EXPIRY (R8). -/
  | silenceTimerExpiry (link : LinkId)
  /-- SORTER_TAKE (R19): the sorter takes the head frame of this link's FIFO. -/
  | sorterTake (link : LinkId)
  /-- ALIGNMENT_TIMER_EXPIRY (R27): the timer of the entry with this sequence expires. -/
  | alignmentTimerExpiry (seq : Seq16)
  /-- CALCULATION (R41) of the handed window. -/
  | calculation
  /-- WINDOW_ADDITION (R65) at one bank. -/
  | windowAddition (bank : BankId)
  /-- RELEASE (R33) of the handed entry. -/
  | release
  /-- TARIFF_EVENT (R74): a falling edge on TSYNC. -/
  | tariffEvent
  /-- POINT_STEP (R97): the next step of this bank's fold. -/
  | pointStep (bank : BankId)
  /-- FOLD_COMPLETION (R82) of this bank's fold. -/
  | foldCompletion (bank : BankId)
  /-- HOST_WRITE (R132): a bus write with RSEL low; word address LA15 to LA0, data, byte enables (bit j for byte j). -/
  | hostWrite (la : BitVec 16) (data : Word) (be : BitVec 4)
  /-- RETURN_TAKE (R120): the record writer takes the oldest page return. -/
  | returnTake
  /-- HOST_READ (R130, R139): a bus read; RSEL low reads exchange memory, high a register. -/
  | hostRead (rsel : Bool) (la : BitVec 16)
  /-- QUOTA_TIMER_EXPIRY (R149). -/
  | quotaTimerExpiry
  /-- BAD_KIND (R150): the take of a request of unknown kind or with an uncorrectable word. -/
  | badKind
  /-- SET_POINT (R163), taken from the intake queue, as are the rows down to READ_CAPTURE_CLEAR. -/
  | setPoint
  /-- SET_BANK (R165). -/
  | setBank
  /-- SET_TIMING with action NONE (R167). -/
  | setTiming
  /-- SET_TIMING with START (R168). -/
  | start
  /-- SET_TIMING with STOP (R169). -/
  | stop
  /-- CLOSE (R170). -/
  | close
  /-- READ_OPEN (R172). -/
  | readOpen
  /-- READ_REGISTERS without NET (R105). -/
  | readRegisters
  /-- READ_REGISTERS with NET (R106). -/
  | readRegistersNet
  /-- REBASE (R174). -/
  | rebase
  /-- CANCEL (R176). -/
  | cancel
  /-- LINK_CONTROL with ENABLE (R17). -/
  | linkControlEnable
  /-- LINK_CONTROL with DISABLE (R17). -/
  | linkControlDisable
  /-- LINK_CONTROL with RESET (R17). -/
  | linkControlReset
  /-- LINK_CONTROL with CLEAR (R17). -/
  | linkControlClear
  /-- READ_CAPTURE without CLEAR (R179). -/
  | readCapture
  /-- READ_CAPTURE with CLEAR (R192). -/
  | readCaptureClear
  /-- RUN (R140): a write of LWCTL with byte 0 enabled. -/
  | run (data : Word) (be : BitVec 4)
  /-- NOTICE_ENABLE_MASK (R189): a write of LWCTL with byte 1 enabled. -/
  | noticeEnableMask (data : Word) (be : BitVec 4)
  /-- WARM_RESET (R142): a write of LWCTL with byte 0 enabled and WARM written as 1. -/
  | warmReset (data : Word) (be : BitVec 4)
  /-- WARM_RESET_COMPLETION (R143). -/
  | warmResetCompletion
  /-- LWSTAT_WRITE (R188). -/
  | lwstatWrite (data : Word) (be : BitVec 4)
  /-- REGISTER_WRITE_IGNORED (R139): a bus write with RSEL high that selects LWID or LWNOTE. -/
  | registerWriteIgnored (la : BitVec 16) (data : Word) (be : BitVec 4)
  /-- COLD_RESET (R141): power-on, or RESET# low. -/
  | coldReset
  /-- READY (R141): RESET# has risen and the part has initialised itself. -/
  | ready
deriving DecidableEq, Repr

end Sys2Proof
end

