-- ==== Sys2Proof/Config.lean ====
section
/-! DEFINITION. What is fixed in the part, and the one value the spec leaves open. -/

namespace Sys2Proof.Config

/-- The silence timer's full time in ms (R8). -/
def silenceMs : Nat := 1000

/-- The quota timer's full time in ms (R149). -/
def quotaMs : Nat := 250

/-- The record area of a page in bytes, behind the 64-byte header (R115). -/
def recordArea : Nat := 4032

/-- The shortest interval record in bytes (R116). -/
def shortestRecord : Nat := 112

/-- The divisor that turns an energy term into mWh: 360,000,000,000 × 2^30 (R45). -/
def energyDivisor : Nat := 386547056640000000000

/-- LWID's fixed value: family 41h, 256 KiB, 40 points, 6 links (R139, spec 11.7). -/
def lwid : Word := 0x41100286

/-- DESIGN CHOICE, a free value (assumption 10): the item field, bits 7 to 0, of the capture location that reports a word of
an accumulator set as a whole. R190 gives "bank and set alone" and spec 11.6 gives the item no value there. -/
opaque accountingSetItem : BitVec 8

end Sys2Proof.Config
end

