-- ==== Sys2Proof/Machine/Types.lean ====
section
/-! DEFINITION. The records that pass between the blocks: frames, window entries, results, sets, registers, replies. -/

namespace Sys2Proof.Machine

/-- One phase's four values (R5, spec 11.2): voltage magnitude and angle, current magnitude and angle. -/
structure Phasor where
  vMag : BitVec 32
  vAng : BitVec 16
  iMag : BitVec 32
  iAng : BitVec 16
deriving DecidableEq, Repr

/-- The phasors of phases A, B and C at one order. -/
structure Phases where
  a : Phasor
  b : Phasor
  c : Phasor
deriving DecidableEq, Repr

/-- One harmonic entry of a frame: its order, 2 to 50, and three phasors. -/
structure Harmonic where
  order : Nat
  phases : Phases
deriving DecidableEq, Repr

/-- A well-formed WINDOW frame's body (spec 01 §1.3). -/
structure WindowFrame where
  port : Fin 8
  seq : Seq16
  clip : Bool
  unlock : Bool
  gap : Bool
  duration : BitVec 32
  fundamental : Phases
  harmonics : List Harmonic
deriving DecidableEq, Repr

/-- A well-formed frame body of either type (R5). -/
inductive FrameBody where
  | idle
  | window (f : WindowFrame)
deriving DecidableEq, Repr

/-- The five marks of a frame's status word (R11). -/
structure FrameStatus where
  clip : Bool
  unlock : Bool
  gap : Bool
  range : Bool
  overrun : Bool
deriving DecidableEq, Repr

/-- A frame in a link FIFO or a frame buffer, with its status word. -/
structure TaggedFrame where
  frame : WindowFrame
  status : FrameStatus
deriving DecidableEq, Repr

/-- Receiver states (R1). -/
inductive RxState where
  | down | hunt | sync
deriving DecidableEq, Repr

/-- A link's latched error set (R15). -/
structure LinkErrors where
  crc : Bool
  format : Bool
  overrun : Bool
  silence : Bool
deriving DecidableEq, Repr

/-- One link receiver (spec 01, state table). `silenceTimer` is the value loaded, in ms, while the timer runs. -/
structure Receiver where
  state : RxState
  inProgress : List Byte
  consecutiveBad : Nat
  silenceTimer : Option Nat
  fifo : List TaggedFrame
  errors : LinkErrors
  good : Word
  bad : Word
  lost : Word
deriving DecidableEq, Repr

/-- Causes that complete a window entry (spec 02 §2.3). -/
inductive Completion where
  | allArrived | timeout | forced
deriving DecidableEq, Repr

/-- An expected point of a window entry: its profile copy, change mark and frame buffer (R20). -/
structure Expected where
  point : PointId
  mask : BitVec 49
  invert : Bool
  changeMark : Bool
  frame : Option TaggedFrame
deriving DecidableEq, Repr

/-- A window entry (R20). `completion` is none while the entry is OPEN. -/
structure Entry where
  seq : Seq16
  expected : List Expected
  completion : Option Completion
  handed : Bool
  timer : Option Nat
deriving DecidableEq, Repr

/-- The frame the sorter holds during a stall (R29). -/
structure HeldFrame where
  link : LinkId
  item : TaggedFrame
deriving DecidableEq, Repr

/-- The frame sorter (spec 02, state table), with the HALTED counter the receivers keep beside its counters (R37). -/
structure Sorter where
  queue : List Entry
  lastHanded : Option Seq16
  heldFrame : Option HeldFrame
  consecutiveLate : Nat
  resyncMark : Bool
  timeout : Nat
  late : Word
  duplicate : Word
  unmapped : Word
  unexpected : Word
  halted : Word
  discarded : Word
deriving DecidableEq, Repr

/-- A point's status and, for VALID, its 104 window energies and clipped mark (R42, R51). -/
inductive PointStatus where
  | valid (energies : Vector Nat 104) (clipped : Bool)
  | invalid
  | absent
deriving DecidableEq, Repr

/-- A point result (R51), with the profile copy's mask and INVERT that the bank records (R67). -/
structure PointResult where
  point : PointId
  status : PointStatus
  changeMark : Bool
  mask : BitVec 49
  invert : Bool
deriving DecidableEq, Repr

/-- What the calculation fixes for the handed window (R41): the point results, and the balance result, none for
UNBALANCED (R57). -/
structure Calculation where
  points : List PointResult
  balance : Option (Vector Nat 104)
deriving DecidableEq, Repr

/-- Window accounting while BUSY (R31, R41): the last handed sequence carried with the window, the calculation's results
once made, the banks that have taken their addition, and the banks START opened meanwhile (R84). -/
structure Accounting where
  carriedLast : Option Seq16
  calculation : Option Calculation
  added : Vector Bool 8
  setAside : Vector Bool 8
deriving DecidableEq, Repr

/-- A point's polarity watch (spec 03, state table). -/
structure Watch where
  count : Nat
  armed : Bool
  runStart : Option Seq16
deriving DecidableEq, Repr

/-- Point roles (spec 00). -/
inductive Role where
  | pcc | feeder | source
deriving DecidableEq, Repr

/-- A mapping: a link and a front-end port. -/
abbrev Mapping := LinkId × Fin 8

/-- A point profile, current and staged parts (R161). -/
structure Profile where
  enable : Bool
  role : Role
  mapping : Option Mapping
  invert : Bool
  mask : BitVec 49
  stagedEnable : Option Bool
  stagedRole : Option Role
  stagedMapping : Option (Option Mapping)
deriving DecidableEq, Repr

/-- A set of close causes (R77, R195). -/
structure Causes where
  host : Bool
  tariff : Bool
  count : Bool
  overlong : Bool
  stop : Bool
deriving DecidableEq, Repr

/-- One point's entry in an accumulator set (R61). -/
structure PointEntry where
  inUse : Bool
  acc : Vector (BitVec 64) 104
  present : Word
  absent : Word
  clipped : Word
  damaged : Bool
  maskChanged : Bool
  mask : BitVec 49
  invert : Bool
deriving DecidableEq, Repr

/-- The balance entry of a set of bank 0 (R61). -/
structure BalanceEntry where
  acc : Vector (BitVec 64) 104
  balanced : Word
  unbalanced : Word
  damaged : Bool
deriving DecidableEq, Repr

/-- An accumulator set (R61). `balance` is present in bank 0's sets alone. -/
structure AccSet where
  interval : Word
  start : Option Seq16
  last : Option Seq16
  span : Word
  causes : Causes
  entries : Vector PointEntry 5
  balance : Option BalanceEntry
deriving DecidableEq, Repr

/-- The bank state with the place of its sets (R63): which set is ACCUMULATING, or which is FOLDING when STOPPING. The set
not named is HELD in OPEN and STOPPING, and FOLDING in TURNING. -/
inductive Phase where
  | stopped
  | opened (acc : Fin 2)
  | turning (acc : Fin 2)
  | stopping (fold : Fin 2)
deriving DecidableEq, Repr

/-- The three states of an accumulator set (R62). -/
inductive SetState where
  | accumulating | folding | held
deriving DecidableEq, Repr

/-- Interval timing (R73). -/
structure Timing where
  coupled : Bool
  length : Nat
  dwell : Nat
deriving DecidableEq, Repr

/-- The cause a waiting slot asked: HOST or STOP (R77). -/
inductive WaitCause where
  | host | stop
deriving DecidableEq, Repr

/-- A held close (R77). -/
structure HeldClose where
  causes : Causes
  waiters : List (SlotId × WaitCause)
deriving DecidableEq, Repr

/-- A bank (spec 04, state table). -/
structure Bank where
  phase : Phase
  sets : Vector AccSet 2
  previous : Option (Fin 2)
  interval : Word
  timing : Timing
  held : Option HeldClose
  billing : Bool
  notify : Bool
  archive : Bool
deriving DecidableEq, Repr

/-- A fold in progress (R96). `position` is the first entry of the walk not yet passed: 0 to 4 the points, 5 the balance
entry. -/
structure Fold where
  set : Fin 2
  interval : Word
  causes : Causes
  position : Nat
  lost : Word
  lostCounter : Word
deriving DecidableEq, Repr

/-- A billing register with its residue and state (R90, R91). The register is a decimal value of 16 digits. -/
structure Quantity where
  register : Nat
  residue : Nat
  valid : Bool
deriving DecidableEq, Repr

/-- A pending REBASE (R90, R94): values for the quantities from `first` on. -/
structure PendingRebase where
  first : Nat
  values : List Nat
  slot : SlotId
  due : Bool
deriving DecidableEq, Repr

/-- A staged scale with its due mark (R90). -/
structure StagedScale where
  value : Fin 4
  due : Bool
deriving DecidableEq, Repr

/-- A register set (R90). -/
structure RegisterSet where
  scale : Fin 4
  staged : Option StagedScale
  quantities : Vector Quantity 104
  lastFolded : Word
  rebase : Option PendingRebase
deriving DecidableEq, Repr

/-- Record page states (R113). -/
inductive PageState where
  | free | filling | filled | returned
deriving DecidableEq, Repr

/-- The FILLING page and its fill position (spec 06, state table). -/
structure Filling where
  page : PageId
  used : Nat
  count : Nat
  first : Word
  last : Word
deriving DecidableEq, Repr

/-- The record writer (spec 06, state table). `returns` are the page returns passed by the watch and not yet taken. -/
structure Writer where
  pages : Vector PageState 58
  freeQueue : List PageId
  filling : Option Filling
  pageSeq : Word
  gapLoss : Word
  lost : Word
  returns : List PageId
deriving DecidableEq, Repr

/-- Slot states (R145). -/
inductive SlotState where
  | free | posted | taken | done | refused
deriving DecidableEq, Repr

/-- A named bank's progress in a deferred CLOSE or STOP (R153). -/
inductive Progress where
  | waiting
  | folding (interval : Word)
deriving DecidableEq, Repr

/-- The deferred kinds over banks (R153). -/
inductive BankWork where
  | closeOne | closeAll | stop
deriving DecidableEq, Repr

/-- What a pending entry still waits for (R153). -/
inductive Work where
  | banks (kind : BankWork) (outstanding : List (BankId × Progress)) (closed : List (BankId × Word))
  | rebase (point : SetId)
deriving DecidableEq, Repr

/-- A pending table entry (R153). -/
structure PendingEntry where
  slot : SlotId
  work : Work
deriving DecidableEq, Repr

/-- The request unit (spec 08, state table). -/
structure RequestUnit where
  slots : Vector SlotState 32
  intake : List SlotId
  quotaLimit : Nat
  quotaCount : Nat
  quotaTimer : Option Nat
  table : List PendingEntry
deriving DecidableEq, Repr

/-- Exception record tags (R135). -/
inductive RecordTag where
  | empty | new | acked
deriving DecidableEq, Repr

/-- An exception record (R185, spec 11.5). `kind` 0 stands in a record never pushed into. -/
structure ExceptionRecord where
  tag : RecordTag
  kind : BitVec 16
  lostAfter : BitVec 16
  lastHanded : Word
  summary : Word
  subject : Word
  d0 : Word
  d1 : Word
  d2 : Word
  copy : Vector Word 8
deriving DecidableEq, Repr

/-- The exception unit (spec 10, state table). `top` is the number of the top record; the stack pointer is 64 × `top`, so
64 stands for an empty stack. -/
structure ExceptionUnit where
  records : Vector ExceptionRecord 64
  top : Nat
  lost : Word
deriving DecidableEq, Repr

/-- The eight exception kinds (R186). -/
inductive ExceptionKind where
  | tagViolation | ownerViolation | overlong | recordsLost | scaleAbandoned | registerOverflow | polaritySuspect
  | sequenceResync
deriving DecidableEq, Repr

/-- The six notice causes (R187). -/
inductive Cause where
  | capture | exception | page | link | close | done
deriving DecidableEq, Repr

/-- The notice logic (spec 10, state table): bit i of each set stands for cause code i + 1. -/
structure Notices where
  latched : BitVec 6
  mask : BitVec 6
  owner : Bool
deriving DecidableEq, Repr

/-- A reply's course (R146). -/
inductive Course where
  | none | immediate | deferred
deriving DecidableEq, Repr

/-- A reply's outcome (R146, R156). -/
inductive ReplyOutcome where
  | none | ok | cancelled | notPending
deriving DecidableEq, Repr

/-- A reply's refusal reason (R156). -/
inductive Reason where
  | none | badKind | badParam | badPoint | conflict | role | scale | state | protectedBank | busy | memory | reset
deriving DecidableEq, Repr

/-- The fields of a reply area (R146); `data` fills the data area from its first byte, the rest is zero. -/
structure Reply where
  course : Course
  outcome : ReplyOutcome
  reason : Reason
  estimate : Nat
  interval : Word
  windows : Word
  count : Nat
  data : List Byte
deriving DecidableEq, Repr

/-- The ten request kinds (R195). -/
inductive Kind where
  | setPoint | setBank | setTiming | close | readOpen | readRegisters | rebase | cancel | linkControl | readCapture
deriving DecidableEq, Repr

/-- The LINK_CONTROL actions (R17). -/
inductive LinkAction where
  | enable | disable | reset | clear
deriving DecidableEq, Repr

/-- The stores that carry ECC (R190). -/
inductive Store where
  | exchange | accounting | registers
deriving DecidableEq, Repr

/-- A filled and frozen capture record (R191). -/
structure Capture where
  store : Store
  location : Word
  lastHanded : Option Seq16
  second : Nat
deriving DecidableEq, Repr

/-- RUN and WARM of LWCTL (R140) and READY (R141). WARM_BUSY of LWSTAT equals WARM (R142, R143). -/
structure Control where
  run : Bool
  warm : Bool
  ready : Bool
deriving DecidableEq, Repr

/-- The banks' four counters (R64). -/
structure BankCounters where
  accounted : Word
  missing : Word
  ignoredTariff : Word
  notAccounted : Word
deriving DecidableEq, Repr

/-- The write watch's three counters (R144). -/
structure WatchCounters where
  owner : Word
  tag : Word
  corrected : Word
deriving DecidableEq, Repr

/-- The ECC condition of an exchange memory word in error (R138): a single-bit error, or an uncorrectable one with the word
as it reads. -/
inductive ExchangeMark where
  | single
  | uncorrectable (asRead : Word)
deriving DecidableEq, Repr

/-- The ECC condition of a word in error in the accounting table or the register store. -/
inductive EccMark where
  | single
  | uncorrectable
deriving DecidableEq, Repr

/-- A word of an accumulator set (spec 11.6): an entry's words, entry 5 the balance entry, or a word of the set as a whole.
`flag` holds DAMAGED and MASK_CHANGED (assumption 23). -/
inductive AccItem where
  | acc (entry : Fin 6) (q : QuantityId)
  | present (entry : Fin 6)
  | absent (entry : Fin 6)
  | clipped (entry : Fin 6)
  | flag (entry : Fin 6)
  | mask (entry : Fin 6)
  | invert (entry : Fin 6)
  | interval | start | last | span | causes
deriving DecidableEq, Repr

/-- The place of a word in the accounting table. -/
structure AccWord where
  bank : BankId
  set : Fin 2
  item : AccItem
deriving DecidableEq, Repr

/-- A word of a register set (R108 to R110). A pending REBASE, with its values and slot, is one word (assumption 34). -/
inductive RegItem where
  | register (q : QuantityId)
  | residue (q : QuantityId)
  | state (q : QuantityId)
  | scale | staged | lastFolded | rebase
deriving DecidableEq, Repr

/-- The place of a word in the register store. -/
structure RegWord where
  point : SetId
  item : RegItem
deriving DecidableEq, Repr

/-- The words now in error, store by store; a word not listed is clean (R190). Exchange words go by word number. -/
structure Ecc where
  exchange : List (Nat × ExchangeMark)
  accounting : List (AccWord × EccMark)
  registers : List (RegWord × EccMark)
deriving DecidableEq, Repr

/-- Exchange memory's ordinary words outside the header page and the exception page: (byte address, byte) cells, addresses
strictly rising, no zero byte listed. An unlisted byte reads 0 (R141). -/
abbrev Memory := List Host.Cell

end Sys2Proof.Machine
end

