-- ==== Sys2Proof/Machine/State.lean ====
section
/-! DEFINITION. The machine's state as plain data, and the state right after reset.

Each piece of state has one home, in the block that owns it. Words of exchange memory that are the image of a block's state
(header page, tags, attribute entries, exception records) are computed from it (R129, R132; assumption 7). -/

namespace Sys2Proof.Machine

/-- The state of the LW2840. INVENTORY.md lists every piece with its rule. -/
structure State where
  links : Vector Receiver 6
  sorter : Sorter
  accounting : Option Accounting
  watches : Vector Watch 40
  profiles : Vector Profile 40
  banks : Vector Bank 8
  timing : Timing
  bankCounters : BankCounters
  folds : Vector (Option Fold) 8
  regs : Vector RegisterSet 41
  writer : Writer
  requests : RequestUnit
  exceptions : ExceptionUnit
  notices : Notices
  capture : Option Capture
  control : Control
  watchCounters : WatchCounters
  mem : Memory
  ecc : Ecc
  ld : Word
  pending : List Instr
deriving DecidableEq, Repr

/-- Why the block would stop with a fault: no rule of the spec stops the part, so there is no such reason. -/
inductive Fault
deriving DecidableEq, Repr

/-- Why a command has no outcome. -/
inductive Refusal where
  /-- Raised by exec for a command that has no meaning yet. Safe: nothing can be proved of the command. -/
  | notModelled (mnemonic : String)
deriving DecidableEq, Repr

namespace State

/-- A receiver after cold reset (R18). -/
def resetReceiver : Receiver :=
  { state := .down, inProgress := [], consecutiveBad := 0, silenceTimer := none, fifo := [],
    errors := ⟨false, false, false, false⟩, good := 0, bad := 0, lost := 0 }

/-- The sorter after cold reset (R39). -/
def resetSorter : Sorter :=
  { queue := [], lastHanded := none, heldFrame := none, consecutiveLate := 0, resyncMark := false, timeout := 300,
    late := 0, duplicate := 0, unmapped := 0, unexpected := 0, halted := 0, discarded := 0 }

/-- A polarity watch after either reset (R60). -/
def resetWatch : Watch := { count := 0, armed := true, runStart := none }

/-- A profile after cold reset (R161). -/
def resetProfile : Profile :=
  { enable := false, role := .feeder, mapping := none, invert := false, mask := BitVec.allOnes 49,
    stagedEnable := none, stagedRole := none, stagedMapping := none }

/-- No close cause. -/
def noCauses : Causes := ⟨false, false, false, false, false⟩

/-- A zeroed point entry (R61). -/
def zeroEntry : PointEntry :=
  { inUse := false, acc := Vector.replicate 104 0, present := 0, absent := 0, clipped := 0, damaged := false,
    maskChanged := false, mask := 0, invert := false }

/-- A zeroed balance entry (R61). -/
def zeroBalance : BalanceEntry :=
  { acc := Vector.replicate 104 0, balanced := 0, unbalanced := 0, damaged := false }

/-- A zeroed accumulator set (R61, R88), with a balance entry or without. -/
def zeroSet (balance : Bool) : AccSet :=
  { interval := 0, start := none, last := none, span := 0, causes := noCauses,
    entries := Vector.replicate 5 zeroEntry, balance := if balance then some zeroBalance else none }

/-- The timing after cold reset (R73, R88). -/
def resetTiming : Timing := { coupled := false, length := 4500, dwell := 4050 }

/-- A bank after cold reset (R88); bank 0 holds the balance entries. -/
def resetBank (balance : Bool) : Bank :=
  { phase := .stopped, sets := Vector.replicate 2 (zeroSet balance), previous := none, interval := 0,
    timing := resetTiming, held := none, billing := false, notify := false, archive := true }

/-- A register set after cold reset (R111). -/
def resetRegisterSet : RegisterSet :=
  { scale := 0, staged := none, quantities := Vector.replicate 104 ⟨0, 0, true⟩, lastFolded := 0, rebase := none }

/-- The record writer after cold reset (R127). -/
def resetWriter : Writer :=
  { pages := Vector.replicate 58 .free, freeQueue := List.finRange 58, filling := none, pageSeq := 0, gapLoss := 0,
    lost := 0, returns := [] }

/-- The request unit after cold reset (R159); the quota timer starts when READY becomes 1. -/
def resetRequests : RequestUnit :=
  { slots := Vector.replicate 32 .free, intake := [], quotaLimit := 4, quotaCount := 0, quotaTimer := none, table := [] }

/-- An exception record after cold reset: zeros, tag EMPTY (R193). -/
def resetRecord : ExceptionRecord :=
  { tag := .empty, kind := 0, lostAfter := 0, lastHanded := 0, summary := 0, subject := 0, d0 := 0, d1 := 0, d2 := 0,
    copy := Vector.replicate 8 0 }

/-- The machine right after cold reset, with READY still 0 (R141): the READY command makes READY 1. `ld`, the data pins, is
0: DESIGN CHOICE, assumption 8. -/
def reset : State :=
  { links := Vector.replicate 6 resetReceiver
    sorter := resetSorter
    accounting := none
    watches := Vector.replicate 40 resetWatch
    profiles := Vector.replicate 40 resetProfile
    banks := (Vector.replicate 8 (resetBank false)).set 0 (resetBank true)
    timing := resetTiming
    bankCounters := ⟨0, 0, 0, 0⟩
    folds := Vector.replicate 8 none
    regs := Vector.replicate 41 resetRegisterSet
    writer := resetWriter
    requests := resetRequests
    exceptions := { records := Vector.replicate 64 resetRecord, top := 64, lost := 0 }
    notices := { latched := 0, mask := 0, owner := false }
    capture := none
    control := { run := false, warm := false, ready := false }
    watchCounters := ⟨0, 0, 0⟩
    mem := []
    ecc := { exchange := [], accounting := [], registers := [] }
    ld := 0
    pending := [] }

end State

end Sys2Proof.Machine
end

