-- ==== Sys2Proof/Machine/Operands.lean ====
section
/-! DEFINITION. The forms in which values stand in memory, in slots and in registers: byte order, packed decimal, sequence
marks, and the code of every enumeration (R194, R195, spec 11). -/

namespace Sys2Proof.Machine

/-- The vector whose entry `i` is `f i`. -/
def tabulate (n : Nat) {α : Type} (f : Fin n → α) : Vector α n := ⟨((List.finRange n).map f).toArray, by simp⟩

/-- `n` bytes of a value, little-endian (spec 00 "Words and bytes"). -/
def leBytes : Nat → Nat → List Byte
  | 0, _ => []
  | n + 1, v => BitVec.ofNat 8 (v % 256) :: leBytes n (v / 256)

/-- The value of bytes in little-endian order. -/
def leValue : List Byte → Nat
  | [] => 0
  | b :: rest => b.toNat + 256 * leValue rest

/-- The four bytes of a word. -/
def wordBytes (w : Word) : List Byte := leBytes 4 w.toNat

/-- Packed decimal in `n` bytes, two digits a byte, the units digit in bits 3 to 0 of the first (R195). -/
def packDecimal : Nat → Nat → List Byte
  | 0, _ => []
  | n + 1, v => BitVec.ofNat 8 (v % 10 + 16 * (v / 10 % 10)) :: packDecimal n (v / 100)

/-- The value of packed decimal bytes; none when a nibble is above 9 (R195). -/
def unpackDecimal : List Byte → Option Nat
  | [] => some 0
  | b :: rest =>
    if b.toNat % 16 ≤ 9 ∧ b.toNat / 16 ≤ 9 then
      (unpackDecimal rest).map fun v => b.toNat % 16 + 10 * (b.toNat / 16) + 100 * v
    else none

/-- `s` is newer than `r` when (s − r) mod 65536 lies in 1 to 32767 (spec 00 "Window sequence numbers"). -/
def newer (s r : Seq16) : Bool := 1 ≤ (s - r).toNat && (s - r).toNat ≤ 32767

/-- A sequence in a 32-bit field; FFFFFFFFh is the undefined mark (R195). -/
def seqWord : Option Seq16 → Word
  | some q => q.setWidth 32
  | none => 0xFFFFFFFF

/-- One bit as a number. -/
def bit (b : Bool) : Nat := if b then 1 else 0

/-- Slot tag codes (R194). -/
def SlotState.code : SlotState → Word
  | .free => 0 | .posted => 1 | .taken => 2 | .done => 3 | .refused => 4

/-- Page attribute entry codes (R194). -/
def PageState.code : PageState → Word
  | .free => 0 | .filling => 1 | .filled => 2 | .returned => 3

/-- Exception record tag codes (R194). -/
def RecordTag.code : RecordTag → Word
  | .empty => 0 | .new => 1 | .acked => 2

/-- Receiver state codes (R195). -/
def RxState.code : RxState → Nat
  | .down => 0 | .hunt => 1 | .sync => 2

/-- Latched error set bits (R195). -/
def LinkErrors.code (e : LinkErrors) : Nat := bit e.crc + 2 * bit e.format + 4 * bit e.overrun + 8 * bit e.silence

/-- Bank state codes (R195). -/
def Phase.code : Phase → Nat
  | .stopped => 0 | .opened _ => 1 | .turning _ => 2 | .stopping _ => 3

/-- Close cause set bits (R195). -/
def Causes.code (c : Causes) : Nat :=
  bit c.host + 2 * bit c.tariff + 4 * bit c.count + 8 * bit c.overlong + 16 * bit c.stop

/-- Role codes (R195). -/
def Role.code : Role → Nat
  | .pcc => 1 | .feeder => 2 | .source => 3

/-- The role of a code, none when undefined (R195). -/
def Role.ofCode : Nat → Option Role
  | 1 => some .pcc | 2 => some .feeder | 3 => some .source | _ => none

/-- Course codes (R195). -/
def Course.code : Course → Nat
  | .none => 0 | .immediate => 1 | .deferred => 2

/-- Outcome codes (R195). -/
def ReplyOutcome.code : ReplyOutcome → Nat
  | .none => 0 | .ok => 1 | .cancelled => 2 | .notPending => 3

/-- Refusal reason codes (R195). -/
def Reason.code : Reason → Nat
  | .none => 0 | .badKind => 1 | .badParam => 2 | .badPoint => 3 | .conflict => 4 | .role => 5 | .scale => 6
  | .state => 7 | .protectedBank => 8 | .busy => 9 | .memory => 10 | .reset => 11

/-- Exception kind codes (R195). -/
def ExceptionKind.code : ExceptionKind → BitVec 16
  | .tagViolation => 1 | .ownerViolation => 2 | .overlong => 3 | .recordsLost => 4 | .scaleAbandoned => 5
  | .registerOverflow => 6 | .polaritySuspect => 7 | .sequenceResync => 8

/-- Capture store codes (R195). -/
def Store.code : Store → Word
  | .exchange => 1 | .accounting => 2 | .registers => 3

/-- The request kind of a kind word, none when it is not one of the ten (R150, R195). -/
def Kind.ofCode : Nat → Option Kind
  | 1 => some .setPoint | 2 => some .setBank | 3 => some .setTiming | 4 => some .close | 5 => some .readOpen
  | 6 => some .readRegisters | 7 => some .rebase | 8 => some .cancel | 9 => some .linkControl | 10 => some .readCapture
  | _ => none

/-- The LINK_CONTROL action of a code (spec 11.3). -/
def LinkAction.ofCode : Nat → Option LinkAction
  | 1 => some .enable | 2 => some .disable | 3 => some .reset | 4 => some .clear | _ => none

/-- The kind held in a pending entry, as a request kind code (R176, spec 11.3). -/
def Work.kindCode : Work → Nat
  | .banks .stop _ _ => 3
  | .banks _ _ _ => 4
  | .rebase _ => 7

/-- The state of set `i` in a bank (R62, R63). -/
def Phase.setState (p : Phase) (i : Fin 2) : SetState :=
  match p with
  | .stopped => .held
  | .opened a => if i = a then .accumulating else .held
  | .turning a => if i = a then .accumulating else .folding
  | .stopping f => if i = f then .folding else .held

/-- The ACCUMULATING set, if the bank has one (R63). -/
def Phase.accumulating : Phase → Option (Fin 2)
  | .opened a => some a
  | .turning a => some a
  | _ => none

/-- The other set of a bank. -/
def otherSet (i : Fin 2) : Fin 2 := if i = 0 then 1 else 0

/-- The bank of a physical point: bank b holds points 5b to 5b + 4 (spec 00 "Points and banks"). -/
def bankOf (p : PointId) : BankId := ⟨p.val / 5, by omega⟩

/-- The bank of a register set's point; BP (40) belongs to bank 0. -/
def bankOfSet (p : SetId) : BankId := if h : p.val < 40 then ⟨p.val / 5, by omega⟩ else 0

/-- Point `e` of bank `b`. -/
def pointAt (b : BankId) (e : Fin 5) : PointId := ⟨5 * b.val + e.val, by omega⟩

/-- The point that entry `e` of a set of bank `b` reports for: 40 for the balance entry (e = 5). -/
def entryPoint (b : BankId) (e : Fin 6) : SetId := if h : e.val < 5 then ⟨5 * b.val + e.val, by omega⟩ else 40

/-- The entry of a set in which a point lies: 5 for BP. -/
def entryOf (p : SetId) : Fin 6 := if p.val < 40 then ⟨p.val % 5, by omega⟩ else 5

/-- A point is active when its current enable is enabled and its current mapping is not none (R161). -/
def Profile.active (p : Profile) : Bool := p.enable && p.mapping.isSome

/-- A point is prospectively active by its staged values where present (R161). -/
def Profile.prospectivelyActive (p : Profile) : Bool :=
  p.stagedEnable.getD p.enable && (p.stagedMapping.getD p.mapping).isSome

/-- The prospective role (R161). -/
def Profile.prospectiveRole (p : Profile) : Role := p.stagedRole.getD p.role

/-- An interval number's successor: past 4294967295 it becomes 1 (R81). -/
def nextInterval (n : Word) : Word := if n = 0xFFFFFFFF then 1 else n + 1

end Sys2Proof.Machine
end

