-- ==== Sys2Proof/Machine/Angle.lean ====
section
/-! DEFINITION. The fixed angle tables c and s (R43).

DEDUCED (assumption 9): the tables are given as rounded values of 2^30 cos and 2^30 sin, and are computed here by the Taylor
series of the cosine over one quarter turn in fixed point with 128 fraction bits. The other quarters follow by the symmetry
that R43 states. -/

namespace Sys2Proof.Machine

/-- 2^128, the unit of the fixed-point series. -/
def fixedOne : Nat := 2 ^ 128

/-- π × 2^128, truncated. -/
def fixedPi : Nat := 1069028584064966747859680373161870783300

/-- t − t·x²/((2i+1)(2i+2)) + …, `n` terms of the cosine series from the term t = x^(2i)/(2i)! on, all in fixed point. -/
def cosSeries : Nat → Nat → Nat → Nat → Int
  | 0, _, _, _ => 0
  | n + 1, i, t, x2 => (t : Int) - cosSeries n (i + 1) (t * x2 / fixedOne / ((2 * i + 1) * (2 * i + 2))) x2

/-- 2^30 cos(2π k / 65536) rounded to nearest, for k in 0 to 16384. -/
def quarterCos (k : Nat) : Int :=
  let x := k * fixedPi / 32768
  (cosSeries 24 0 fixedOne (x * x / fixedOne) * 2 ^ 31 + fixedOne) / (2 * fixedOne)

/-- The cosine table c(Δ) (R43), from one quarter by symmetry. -/
def cosTable (delta : BitVec 16) : Int :=
  let d := delta.toNat
  if d ≤ 16384 then quarterCos d
  else if d ≤ 32768 then -quarterCos (32768 - d)
  else if d ≤ 49152 then -quarterCos (d - 32768)
  else quarterCos (65536 - d)

/-- The sine table s(Δ) (R43): the cosine a quarter turn earlier. -/
def sinTable (delta : BitVec 16) : Int := cosTable (delta - 16384)

end Sys2Proof.Machine
end

