-- ==== Sys2Proof/Machine/Flags.lean ====
section
/-! DEFINITION. Notice causes, LWNOTE, NOTE#, and the words of LWCTL and LWSTAT (R187 to R189, spec 11.7). -/

namespace Sys2Proof.Machine

/-- The bit of a cause in the latched set and the mask: code − 1 (R140, R187). -/
def Cause.index : Cause → Fin 6
  | .capture => 0 | .exception => 1 | .page => 2 | .link => 3 | .close => 4 | .done => 5

/-- The cause code (R187). -/
def Cause.code (c : Cause) : Nat := c.index.val + 1

/-- The set of one cause. -/
def Cause.flag (c : Cause) : BitVec 6 := 1#6 <<< c.index.val

/-- Latches a notice cause in LWSTAT, enabled or not (R187). -/
def State.latch (s : State) (c : Cause) : State :=
  { s with notices := { s.notices with latched := s.notices.latched ||| c.flag } }

/-- A cause is latched. -/
def State.latched (s : State) (c : Cause) : Bool := s.notices.latched.getLsbD c.index.val

/-- LWNOTE: the lowest code latched and enabled, 0 when there is none, and 0 before READY (R189). -/
def State.lwnote (s : State) : Nat :=
  if s.control.ready then
    match (List.finRange 6).find? fun i => (s.notices.latched &&& s.notices.mask).getLsbD i.val with
    | some i => i.val + 1
    | none => 0
  else 0

/-- NOTE# is low exactly while LWNOTE reads other than 0 (R189). -/
def State.noteAsserted (s : State) : Bool := s.lwnote != 0

/-- LWCTL as read: 0 RUN, 1 WARM, 13 to 8 the mask (spec 11.7). -/
def State.lwctl (s : State) : Word :=
  BitVec.ofNat 32 (bit s.control.run + 2 * bit s.control.warm + 256 * s.notices.mask.toNat)

/-- LWSTAT as read: 0 READY, 1 WARM_BUSY, 2 OWNER, 13 to 8 the latched causes (spec 11.7). -/
def State.lwstat (s : State) : Word :=
  BitVec.ofNat 32
    (bit s.control.ready + 2 * bit s.control.warm + 4 * bit s.notices.owner + 256 * s.notices.latched.toNat)

/-- A register as the host reads it, LA1 and LA0 selecting (R139). -/
def State.readRegister (s : State) (la : BitVec 16) : Word :=
  match (la.setWidth 2 : BitVec 2).toNat with
  | 0 => Config.lwid
  | 1 => s.lwctl
  | 2 => s.lwstat
  | _ => BitVec.ofNat 32 s.lwnote

/-- Clears the causes written as 1 and, with byte 0 enabled, OWNER (R188). -/
def State.clearStatus (s : State) (data : Word) (be : BitVec 4) : State :=
  { s with
    notices :=
      { s.notices with
        latched := if be.getLsbD 1 then s.notices.latched &&& ~~~(data.extractLsb' 8 6) else s.notices.latched
        owner := if be.getLsbD 0 && data.getLsbD 2 then false else s.notices.owner } }

/-- Clears every latched cause except CAPTURE, as the completion of a warm reset does (R143). -/
def State.clearCausesButCapture (s : State) : State :=
  { s with notices := { s.notices with latched := s.notices.latched &&& Cause.capture.flag } }

end Sys2Proof.Machine
end

