-- ==== Sys2Proof/Machine/Ops.lean ====
section
/-! DEFINITION. The named operations over the state: exchange memory and its images, ECC and fault capture, exception
pushes, replies, and the one place where each block's record is written back. -/

namespace Sys2Proof.Machine

/-! ### Byte memory -/

/-- One byte of slot bodies and record pages; an unlisted byte reads 0 (R141). -/
def Memory.read : Memory → Nat → Byte
  | [], _ => 0
  | (k, v) :: rest, a => if k = a then v else Memory.read rest a

/-- Writes one byte and keeps the canonical form: writing 0 removes the cell. -/
def Memory.write : Memory → Nat → Byte → Memory
  | [], a, b => if b = 0 then [] else [(a, b)]
  | (k, v) :: rest, a, b =>
    if a < k then (if b = 0 then (k, v) :: rest else (a, b) :: (k, v) :: rest)
    else if a = k then (if b = 0 then rest else (a, b) :: rest)
    else (k, v) :: Memory.write rest a b

/-- Writes bytes at rising addresses. -/
def Memory.writeBytes : Memory → Nat → List Byte → Memory
  | m, _, [] => m
  | m, a, b :: bs => Memory.writeBytes (m.write a b) (a + 1) bs

/-- Writes zeros over the addresses `lo` to `hi` − 1. -/
def Memory.zero (m : Memory) (lo hi : Nat) : Memory := m.filter fun c => !(lo ≤ c.1 && c.1 < hi)

/-- `n` bytes from `a` on. -/
def Memory.bytes (m : Memory) (a n : Nat) : List Byte := (List.range n).map fun j => m.read (a + j)

/-- The word at byte address `a`, little-endian. -/
def Memory.word (m : Memory) (a : Nat) : Word := BitVec.ofNat 32 (leValue (m.bytes a 4))

/-- The canonical form: addresses strictly rising, no zero listed. -/
abbrev Memory.wf (m : Memory) : Prop := m.Pairwise (fun c d => c.1 < d.1) ∧ ∀ c ∈ m, c.2 ≠ 0

/-! ### The words of exchange memory -/

/-- Word j of bank b's mirror: state, interval number, span of the ACCUMULATING set, held causes (R64). -/
def Bank.mirrorWord (b : Bank) (j : Nat) : Word :=
  match j with
  | 0 => BitVec.ofNat 32 b.phase.code
  | 1 => b.interval
  | 2 => match b.phase.accumulating with
    | some a => b.sets[a].span
    | none => 0
  | _ => match b.held with
    | some h => BitVec.ofNat 32 h.causes.code
    | none => 0

/-- A link's mirror word (spec 11.6). -/
def Receiver.mirrorWord (r : Receiver) : Word := BitVec.ofNat 32 (r.state.code + 256 * r.errors.code)

/-- Word j of the capture record (spec 11.6, R191). -/
def captureWord (c : Option Capture) (j : Nat) : Word :=
  match c, j with
  | some c, 0 => c.store.code
  | some c, 1 => c.location
  | some c, 2 => seqWord c.lastHanded
  | some c, _ => BitVec.ofNat 32 (1 + 256 * c.second)
  | none, 2 => 0xFFFFFFFF
  | none, _ => 0

/-- Word j of an exception record (spec 11.5). -/
def ExceptionRecord.word (r : ExceptionRecord) (j : Nat) : Word :=
  match j with
  | 0 => r.tag.code
  | 1 => BitVec.ofNat 32 (r.kind.toNat + 65536 * r.lostAfter.toNat)
  | 2 => r.lastHanded
  | 3 => r.summary
  | 4 => r.subject
  | 5 => r.d0
  | 6 => r.d1
  | 7 => r.d2
  | _ => match r.copy[j - 8]? with
    | some w => w
    | none => 0

/-- The stack pointer, 4096 when the stack is empty (R180). -/
def ExceptionUnit.pointer (e : ExceptionUnit) : Nat := 64 * e.top

/-- The words of the header page, as their owning blocks hold them (R129, spec 11.6). -/
def State.headerWord (s : State) (w : Nat) : Word :=
  if w = 0 then 1
  else if w = 1 then 40
  else if w = 2 then 6
  else if w = 3 then 32
  else if w = 4 then 58
  else if w = 5 then 64
  else if w < 8 then 0
  else if w < 14 then match s.links[w - 8]? with
    | some r => r.mirrorWord
    | none => 0
  else if w < 16 then 0
  else if w < 48 then match s.banks[(w - 16) / 4]? with
    | some b => b.mirrorWord ((w - 16) % 4)
    | none => 0
  else if w = 48 then BitVec.ofNat 32 s.writer.freeQueue.length
  else if w = 49 then match s.writer.filling with
    | some f => BitVec.ofNat 32 (f.page.val + 6)
    | none => 0
  else if w = 50 then BitVec.ofNat 32 s.exceptions.pointer
  else if w = 51 then 0
  else if w < 56 then captureWord s.capture (w - 52)
  else if w < 64 then 0
  else if w < 122 then match s.writer.pages[w - 64]? with
    | some p => p.code
    | none => 0
  else if w < 128 then 0
  else if w < 146 then match s.links[(w - 128) / 3]? with
    | some r => if (w - 128) % 3 = 0 then r.good else if (w - 128) % 3 = 1 then r.bad else r.lost
    | none => 0
  else if w = 146 then s.sorter.late
  else if w = 147 then s.sorter.duplicate
  else if w = 148 then s.sorter.unmapped
  else if w = 149 then s.sorter.unexpected
  else if w = 150 then s.sorter.halted
  else if w = 151 then s.sorter.discarded
  else if w = 152 then s.bankCounters.accounted
  else if w = 153 then s.bankCounters.missing
  else if w = 154 then s.bankCounters.ignoredTariff
  else if w = 155 then s.bankCounters.notAccounted
  else if w = 156 then s.writer.lost
  else if w = 157 then s.exceptions.lost
  else if w = 158 then s.watchCounters.owner
  else if w = 159 then s.watchCounters.tag
  else if w = 160 then s.watchCounters.corrected
  else 0

/-- A word that is the image of a block's state: header page, slot tag or exception record; none for an ordinary word of a
slot body or a record page (R128, R129, R135). -/
def State.imageWord (s : State) (w : Nat) : Option Word :=
  if w < 1024 then some (s.headerWord w)
  else if w < 5120 then
    if (w - 1024) % 128 = 0 then (s.requests.slots[(w - 1024) / 128]?).map SlotState.code else none
  else if w < 6144 then (s.exceptions.records[(w - 5120) / 16]?).map fun r => r.word ((w - 5120) % 16)
  else none

/-- The word numbered `w` of exchange memory, leaving ECC aside. -/
def State.word (s : State) (w : Nat) : Word := (s.imageWord w).getD (s.mem.word (4 * w))

/-- The word numbered `w` as a reader finds it: a word with an uncorrectable error reads as its mark says. -/
def State.wordAsRead (s : State) (w : Nat) : Word :=
  match s.ecc.exchange.lookup w with
  | some (.uncorrectable v) => v
  | _ => s.word w

/-- Drops the error marks of words `lo` to `hi` − 1: a whole-word write replaces a damaged word (R138, R190). -/
def State.wordsWritten (s : State) (lo hi : Nat) : State :=
  { s with ecc := { s.ecc with exchange := s.ecc.exchange.filter fun m => !(lo ≤ m.1 && m.1 < hi) } }

/-- After a block's state changed from `s` to `t`, every image word that changed has been rewritten (R129). -/
def State.rewrite (s t : State) : State :=
  { t with ecc := { t.ecc with exchange := t.ecc.exchange.filter fun m => s.imageWord m.1 == t.imageWord m.1 } }

/-! ### Writing a block's state back, with its images -/

def State.putLink (s : State) (l : LinkId) (r : Receiver) : State := s.rewrite { s with links := s.links.set l r }

def State.putSorter (s : State) (x : Sorter) : State := s.rewrite { s with sorter := x }

def State.putBank (s : State) (b : BankId) (x : Bank) : State := s.rewrite { s with banks := s.banks.set b x }

def State.putBankCounters (s : State) (x : BankCounters) : State := s.rewrite { s with bankCounters := x }

def State.putWriter (s : State) (x : Writer) : State := s.rewrite { s with writer := x }

def State.putExceptions (s : State) (x : ExceptionUnit) : State := s.rewrite { s with exceptions := x }

def State.putWatchCounters (s : State) (x : WatchCounters) : State := s.rewrite { s with watchCounters := x }

def State.putRequests (s : State) (x : RequestUnit) : State := s.rewrite { s with requests := x }

/-- Writes the capture record and its whole image (R191). -/
def State.putCapture (s : State) (c : Option Capture) : State := { s with capture := c }.wordsWritten 52 56

def State.putProfile (s : State) (p : PointId) (x : Profile) : State := { s with profiles := s.profiles.set p x }

def State.putFold (s : State) (b : BankId) (x : Option Fold) : State := { s with folds := s.folds.set b x }

def State.putRegs (s : State) (p : SetId) (x : RegisterSet) : State := { s with regs := s.regs.set p x }

def State.putWatch (s : State) (p : PointId) (x : Watch) : State := { s with watches := s.watches.set p x }

/-! ### ECC and fault capture -/

/-- Reports an uncorrectable error to fault capture: it freezes an empty record and latches CAPTURE, or adds to the
second-fault count, which stays at 255 (R191). -/
def State.report (s : State) (store : Store) (location : Word) : State :=
  match s.capture with
  | none => (s.putCapture (some ⟨store, location, s.sorter.lastHanded, 0⟩)).latch .capture
  | some c => s.putCapture (some { c with second := if c.second < 255 then c.second + 1 else 255 })

/-- Counts one corrected error (R144). -/
def State.countCorrected (s : State) : State :=
  s.putWatchCounters { s.watchCounters with corrected := s.watchCounters.corrected + 1 }

/-- The ECC check of a read of word `w` of exchange memory: a single-bit error is corrected, counted and written back, an
uncorrectable error is reported with the byte address and stays (R138). -/
def State.checkWord (s : State) (w : Nat) : State :=
  match s.ecc.exchange.lookup w with
  | none => s
  | some .single => (s.wordsWritten w (w + 1)).countCorrected
  | some (.uncorrectable _) => s.report .exchange (BitVec.ofNat 32 (4 * w))

/-- Word `w` has an uncorrectable error. -/
def State.badWord (s : State) (w : Nat) : Bool :=
  match s.ecc.exchange.lookup w with
  | some (.uncorrectable _) => true
  | _ => false

/-- The checks of reads of several words, one after another. -/
def State.checkWords (s : State) (ws : List Nat) : State := ws.foldl State.checkWord s

/-- Reads eight words through the ECC check, for a copy field (R134, R137, R138). They are read in ascending order, and a
report or a correction met at one word shows in the words behind it (assumption 29). -/
def State.copyBlock (s : State) (w : Nat) : Vector Word 8 × State :=
  let r := (List.range 8).foldl
    (fun (acc : List Word × State) j => (acc.1 ++ [acc.2.wordAsRead (w + j)], acc.2.checkWord (w + j))) ([], s)
  (tabulate 8 fun j => r.1.getD j.val 0, r.2)

/-! ### The exception stack -/

/-- The bank state summary of an exception record (R185, spec 11.5). -/
def State.bankSummary (s : State) : Word :=
  BitVec.ofNat 32 ((List.finRange 8).foldl
    (fun n b => n + 16 ^ b.val * (s.banks[b].phase.code + 4 * bit s.banks[b].held.isSome)) 0)

/-- No copy: zeros (R185). -/
def noCopy : Vector Word 8 := Vector.replicate 8 0

/-- Pushes an exception (R181), or counts it in the top record of a full stack (R182); both latch EXCEPTION (R187). -/
def State.push (s : State) (kind : ExceptionKind) (subject d0 d1 d2 : Word) (copy : Vector Word 8) : State :=
  let e := s.exceptions
  if h : 0 < e.top ∧ e.top ≤ 64 then
    let i : Fin 64 := ⟨e.top - 1, by omega⟩
    let rec' : ExceptionRecord :=
      { tag := .new, kind := kind.code, lostAfter := 0, lastHanded := seqWord s.sorter.lastHanded,
        summary := s.bankSummary, subject := subject, d0 := d0, d1 := d1, d2 := d2, copy := copy }
    (((s.putExceptions { e with records := e.records.set i rec', top := e.top - 1 }).wordsWritten
      (5120 + 16 * i.val) (5136 + 16 * i.val))).latch .exception
  else
    let r := e.records[(0 : Fin 64)]
    let r' := { r with lostAfter := if r.lostAfter = 0xFFFF then 0xFFFF else r.lostAfter + 1 }
    (s.putExceptions { e with records := e.records.set (0 : Fin 64) r', lost := e.lost + 1 }).latch .exception

/-- Pops every ACKED record from the top (R183). The argument bounds the pops by the stack's 64 places. -/
def ExceptionUnit.pop : Nat → ExceptionUnit → ExceptionUnit
  | 0, e => e
  | n + 1, e =>
    match e.records[e.top]? with
    | some r => if r.tag = .acked then ExceptionUnit.pop n { e with top := e.top + 1 } else e
    | none => e

/-! ### Slots and replies -/

/-- The first word of slot k (R128). -/
def slotWord (k : SlotId) : Nat := 1024 + 128 * k.val

/-- The first byte of slot k (R128). -/
def slotByte (k : SlotId) : Nat := 4096 + 512 * k.val

/-- The reply area's bytes from offset 080h to 1FFh (R146, spec 11.3). -/
def Reply.bytes (serial : Word) (r : Reply) : List Byte :=
  wordBytes serial ++ leBytes 4 r.course.code ++ leBytes 4 r.outcome.code ++ leBytes 4 r.reason.code ++
    leBytes 4 r.estimate ++ wordBytes r.interval ++ wordBytes r.windows ++ leBytes 4 r.count ++ List.replicate 32 0 ++
    (r.data ++ List.replicate (320 - r.data.length) 0)

/-- Writes a slot's reply area whole (R146). -/
def State.writeReply (s : State) (k : SlotId) (serial : Word) (r : Reply) : State :=
  { s with mem := s.mem.writeBytes (slotByte k + 0x80) (r.bytes serial) }.wordsWritten (slotWord k + 32) (slotWord k + 128)

/-- Writes one word field of a slot at byte offset `off`. -/
def State.writeField (s : State) (k : SlotId) (off : Nat) (v : Word) : State :=
  { s with mem := s.mem.writeBytes (slotByte k + off) (wordBytes v) }.wordsWritten (slotWord k + off / 4)
    (slotWord k + off / 4 + 1)

/-- Writes the first bytes of a slot's data area, a multiple of four of them. -/
def State.writeData (s : State) (k : SlotId) (data : List Byte) : State :=
  { s with mem := s.mem.writeBytes (slotByte k + 0xC0) data }.wordsWritten (slotWord k + 48)
    (slotWord k + 48 + data.length / 4)

/-- Writes a slot's tag, which is the request unit's slot state (R145). -/
def State.setSlot (s : State) (k : SlotId) (st : SlotState) : State :=
  s.putRequests { s.requests with slots := s.requests.slots.set k st }

/-- Ends a slot: the tag DONE or REFUSED after the reply, and the DONE cause (R151, R154, R155). -/
def State.endSlot (s : State) (k : SlotId) (st : SlotState) : State := (s.setSlot k st).latch .done

/-- Removes a slot's pending table entry (R154, R155). -/
def State.removePending (s : State) (k : SlotId) : State :=
  { s with requests := { s.requests with table := s.requests.table.filter fun e => e.slot != k } }

/-- Ends a deferred request: the reply fields the ending decides, then the tag; the rest of the reply keeps what the take
wrote (R146, R154, R155). Every ending decides outcome, reason, interval number and count (assumption 37). -/
def State.endDeferred (s : State) (k : SlotId) (st : SlotState) (outcome : ReplyOutcome) (reason : Reason)
    (interval : Word) (count : Nat) (data : List Byte) : State :=
  let s := s.writeField k 0x88 (BitVec.ofNat 32 outcome.code)
  let s := s.writeField k 0x8C (BitVec.ofNat 32 reason.code)
  let s := s.writeField k 0x94 interval
  let s := s.writeField k 0x9C (BitVec.ofNat 32 count)
  let s := s.writeData k data
  (s.removePending k).endSlot k st

/-- The closed-interval list in ascending bank order (R169, R171). -/
def closedInOrder (closed : List (BankId × Word)) : List (BankId × Word) :=
  (List.finRange 8).filterMap fun b => (closed.lookup b).map fun n => (b, n)

/-- The closed-interval list as data area bytes (spec 11.3). -/
def closedBytes (closed : List (BankId × Word)) : List Byte :=
  (closedInOrder closed).flatMap fun c => leBytes 4 c.1.val ++ wordBytes c.2

/-- Refreshes the quota: the count returns to 0 and the timer restarts (R149). -/
def State.refreshQuota (s : State) : State :=
  { s with requests := { s.requests with quotaCount := 0, quotaTimer := some Config.quotaMs } }

/-! ### Events -/

/-- An event of the part: it takes place only once READY is 1 (R141). -/
def State.event (s : State) (f : State → State) : Host.Outcome State Fault Refusal :=
  .next (if s.control.ready then f s else s)

end Sys2Proof.Machine
end

