-- ==== Sys2Proof/Machine/Sorter.lean ====
section
/-! DEFINITION. The frame sorter and alignment queue (spec 02): SORTER_TAKE, ALIGNMENT_TIMER_EXPIRY, RELEASE. -/

namespace Sys2Proof.Machine

/-- The point whose current mapping names a link and port (R19). -/
def State.mappedPoint (s : State) (l : LinkId) (port : Fin 8) : Option PointId :=
  (List.finRange 40).find? fun p => s.profiles[p].mapping == some (l, port)

/-- An expected point has arrived when its buffer holds a frame (R20). -/
def Expected.arrived (x : Expected) : Bool := x.frame.isSome

/-- The arrived set equals the expected set (R24). -/
def Entry.full (e : Entry) : Bool := e.expected.all Expected.arrived

/-- Completes an OPEN entry with a cause and stops its timer; a complete entry keeps its cause (R28). -/
def Entry.complete (e : Entry) (c : Completion) : Entry :=
  match e.completion with
  | none => { e with completion := some c, timer := none }
  | some _ => e

/-- The handed entry, which is the head while accounting is BUSY (R31). -/
def State.handedEntry (s : State) : Option Entry := s.sorter.queue.find? Entry.handed

/-- The horizon (R22). -/
def State.horizon (s : State) : Option Seq16 :=
  match s.handedEntry with
  | some e => some e.seq
  | none => s.sorter.lastHanded

/-- The sequence is not newer than the horizon (R22). -/
def State.behindHorizon (s : State) (q : Seq16) : Bool :=
  match s.horizon with
  | some h => !newer q h
  | none => false

/-- The entries that `q` is newer than at the front of the queue. -/
def entriesBefore (queue : List Entry) (q : Seq16) : List Entry := queue.takeWhile fun e => newer q e.seq

/-- The rest of the queue behind them. -/
def entriesBehind (queue : List Entry) (q : Seq16) : List Entry := queue.dropWhile fun e => newer q e.seq

/-- The placement test (R22): every entry behind the first few that `q` is newer than is newer than `q`. -/
def placeable (queue : List Entry) (q : Seq16) : Bool := (entriesBehind queue q).all fun e => newer e.seq q

/-- Hands the head to window accounting when it is complete, accounting is IDLE and no warm reset is in progress (R31). -/
def State.tryHandOff (s : State) : State :=
  match s.sorter.queue, s.accounting with
  | e :: rest, none =>
    if e.completion.isSome && !s.control.warm then
      { s with
        sorter := { s.sorter with queue := { e with handed := true } :: rest }
        accounting := some
          { carriedLast := s.sorter.lastHanded, calculation := none, added := Vector.replicate 8 false,
            setAside := Vector.replicate 8 false } }
    else s
  | _, _ => s

/-- The expected points of an entry that opens now, the arriving frame in its point's buffer (R21). -/
def State.expectedNow (s : State) (p : PointId) (t : TaggedFrame) : List Expected :=
  (List.finRange 40).filterMap fun i =>
    if s.profiles[i].active then
      some ⟨i, s.profiles[i].mask, s.profiles[i].invert, false, if i = p then some t else none⟩
    else none

/-- The entry that a frame of point `p` opens (R21): it completes at once when it expects that point alone. -/
def State.newEntry (s : State) (p : PointId) (t : TaggedFrame) : Entry :=
  let e : Entry :=
    { seq := t.frame.seq, expected := s.expectedNow p t, completion := none, handed := false,
      timer := some s.sorter.timeout }
  if e.full then e.complete .allArrived else e

/-- Opens an entry at its place in sequence order (R21); the frame is accepted (R34). -/
def State.openEntry (s : State) (p : PointId) (t : TaggedFrame) : State :=
  let q := s.sorter.queue
  s.putSorter { s.sorter with
    queue := entriesBefore q t.frame.seq ++ s.newEntry p t :: entriesBehind q t.frame.seq, consecutiveLate := 0 }

/-- The entry with a frame stored in its point's buffer (R24). -/
def Entry.store (e : Entry) (p : PointId) (t : TaggedFrame) : Entry :=
  let e := { e with expected := e.expected.map fun (x : Expected) => if x.point = p then { x with frame := some t } else x }
  if e.full then e.complete .allArrived else e

/-- Stores a frame in the entry of its sequence (R24); the frame is accepted (R34). -/
def State.storeFrame (s : State) (p : PointId) (t : TaggedFrame) : State :=
  s.putSorter { s.sorter with
    queue := s.sorter.queue.map fun (e : Entry) => if e.seq = t.frame.seq then e.store p t else e, consecutiveLate := 0 }

/-- A resync at the drop of a frame of link `l` (R35): every entry not handed is discarded and counted, the mark is set if
one is handed, the last handed sequence becomes undefined, and SEQUENCE_RESYNC is pushed. -/
def State.resync (s : State) (l : LinkId) (f : WindowFrame) : State :=
  let gone := (s.sorter.queue.filter fun e => !e.handed).length
  let before := s.sorter.lastHanded
  let s := s.putSorter { s.sorter with
    queue := s.sorter.queue.filter Entry.handed
    resyncMark := s.sorter.resyncMark || s.sorter.queue.any Entry.handed
    lastHanded := none
    consecutiveLate := 0
    discarded := s.sorter.discarded + BitVec.ofNat 32 gone }
  s.push .sequenceResync (BitVec.ofNat 32 l.val) (BitVec.ofNat 32 (f.seq.toNat + 65536 * f.port.val)) (seqWord before)
    (BitVec.ofNat 32 gone) noCopy

/-- Drops a frame LATE (R34); the 64th in a row takes the resync in the same event. -/
def State.dropLate (s : State) (l : LinkId) (f : WindowFrame) : State :=
  let n := s.sorter.consecutiveLate + 1
  let s := s.putSorter { s.sorter with late := s.sorter.late + 1, consecutiveLate := n }
  if n = 64 then s.resync l f else s

def State.dropUnmapped (s : State) : State := s.putSorter { s.sorter with unmapped := s.sorter.unmapped + 1 }

def State.dropUnexpected (s : State) : State := s.putSorter { s.sorter with unexpected := s.sorter.unexpected + 1 }

def State.dropDuplicate (s : State) : State := s.putSorter { s.sorter with duplicate := s.sorter.duplicate + 1 }

/-- Forces the head and holds the frame (R29). -/
def State.forceAndHold (s : State) (l : LinkId) (t : TaggedFrame) : State :=
  match s.sorter.queue with
  | e :: rest => s.putSorter { s.sorter with queue := e.complete .forced :: rest, heldFrame := some ⟨l, t⟩ }
  | [] => s

/-- The arrival table for a frame of point `p` (R23), first line that applies. -/
def State.arrive (s : State) (l : LinkId) (p : PointId) (t : TaggedFrame) : State :=
  let q := t.frame.seq
  if s.behindHorizon q then s.dropLate l t.frame
  else match s.sorter.queue.find? fun e => e.seq == q with
    | some e =>
      if e.handed then s.dropLate l t.frame
      else match e.expected.find? fun x => x.point == p with
        | none => s.dropUnexpected
        | some x => if x.arrived then s.dropDuplicate else s.storeFrame p t
    | none =>
      if !s.profiles[p].active then s.dropUnexpected
      else if !placeable s.sorter.queue q then s.dropLate l t.frame
      else if s.sorter.queue.length < 4 then s.openEntry p t
      else match s.sorter.queue with
        | e :: _ => if newer e.seq q then s.dropLate l t.frame else s.forceAndHold l t
        | [] => s

/-- A frame handled from R19 on: the lookup by the mapping now in force, then the arrival table. -/
def State.handleFrame (s : State) (l : LinkId) (t : TaggedFrame) : State :=
  match s.mappedPoint l t.frame.port with
  | none => s.dropUnmapped
  | some p => s.arrive l p t

/-- The sorter's take of the head frame of a link FIFO (R14, R19). While a frame is held no frame is taken (R30); a take
from an empty FIFO does not happen (R14). -/
def State.sorterTake (s : State) (l : LinkId) : State :=
  match s.sorter.heldFrame, s.links[l].fifo with
  | none, t :: rest => ((s.putLink l { s.links[l] with fifo := rest }).handleFrame l t).tryHandOff
  | _, _ => s

/-- SORTER_TAKE (R19). -/
def execSorterTake (l : LinkId) (s : State) : Host.Outcome State Fault Refusal :=
  s.event fun s => s.sorterTake l

/-- The alignment timer of the entry with sequence `q` expires: an OPEN entry completes with TIMEOUT (R27). A stopped timer
does not expire (R28). -/
def State.alignmentExpiry (s : State) (q : Seq16) : State :=
  { s with sorter := { s.sorter with
      queue := s.sorter.queue.map fun (e : Entry) => if e.seq = q ∧ e.timer.isSome then e.complete .timeout else e } }.tryHandOff

/-- ALIGNMENT_TIMER_EXPIRY (R27). -/
def execAlignmentTimerExpiry (q : Seq16) (s : State) : Host.Outcome State Fault Refusal :=
  s.event fun s => s.alignmentExpiry q

/-- All eight banks have taken the addition of the handed window (R41). -/
def Accounting.finished (a : Accounting) : Bool :=
  a.calculation.isSome && (List.finRange 8).all fun b => a.added[b]

/-- The entry leaves the queue and accounting is IDLE; the last handed sequence is the released one unless the resync mark
is set, and the mark is cleared (R33, R36). -/
def State.dropHanded (s : State) : State :=
  match s.sorter.queue with
  | e :: rest =>
    { s with
      sorter := { s.sorter with
        queue := rest
        lastHanded := if s.sorter.resyncMark then s.sorter.lastHanded else some e.seq
        resyncMark := false }
      accounting := none }
  | [] => { s with accounting := none }

/-- The held frame, if there is one, is handled afresh and the stall ends (R30, R33). -/
def State.endStall (s : State) : State :=
  match s.sorter.heldFrame with
  | some h => { s with sorter := { s.sorter with heldFrame := none } }.handleFrame h.link h.item
  | none => s

/-- The release of the handed entry (R33), which refreshes the quota (R149). It follows when all eight banks have taken
their addition (R41). -/
def State.release (s : State) : State :=
  match s.accounting with
  | some a => if a.finished then s.dropHanded.endStall.tryHandOff.refreshQuota else s
  | none => s

/-- RELEASE (R33). -/
def execRelease (s : State) : Host.Outcome State Fault Refusal :=
  s.event State.release

/-- SET_POINT changed a point's mask or INVERT: its change mark is set in every entry that expects it and is not handed
(R26). -/
def State.markChange (s : State) (p : PointId) : State :=
  { s with sorter := { s.sorter with
      queue := s.sorter.queue.map fun (e : Entry) =>
        if e.handed then e
        else { e with expected := e.expected.map fun (x : Expected) => if x.point = p then { x with changeMark := true } else x } } }

/-- The sorter's warm-reset effect (R40). -/
def State.warmSorter (s : State) : State :=
  s.putSorter { s.sorter with
    queue := [], lastHanded := none, heldFrame := none, consecutiveLate := 0, resyncMark := false
    discarded := s.sorter.discarded + BitVec.ofNat 32 s.sorter.queue.length }

end Sys2Proof.Machine
end

