-- ==== Sys2Proof/Machine/Energy.lean ====
section
/-! DEFINITION. The window calculator (spec 03): CALCULATION. -/

namespace Sys2Proof.Machine

/-- The angle difference of a phase: the current angle, advanced half a turn under INVERT, taken from the voltage angle
(R44). -/
def Phasor.delta (p : Phasor) (invert : Bool) : BitVec 16 :=
  p.vAng - (if invert then p.iAng + 32768 else p.iAng)

/-- The phase active product V × I × c(Δ) (R44). -/
def Phasor.active (p : Phasor) (invert : Bool) : Int := p.vMag.toNat * p.iMag.toNat * cosTable (p.delta invert)

/-- The phase reactive product V × I × s(Δ) (R44). -/
def Phasor.reactive (p : Phasor) (invert : Bool) : Int := p.vMag.toNat * p.iMag.toNat * sinTable (p.delta invert)

/-- The sum of the three phase active products: SP, or Sh for a harmonic order (R45, R48). -/
def Phases.activeSum (p : Phases) (invert : Bool) : Int := p.a.active invert + p.b.active invert + p.c.active invert

/-- The reactive sum SQ (R45). -/
def Phases.reactiveSum (p : Phases) (invert : Bool) : Int :=
  p.a.reactive invert + p.b.reactive invert + p.c.reactive invert

/-- The frame's sum Sh at order h, none when the frame lists no entry for h (R48). -/
def WindowFrame.harmonicSum (f : WindowFrame) (invert : Bool) (h : Nat) : Option Int :=
  (f.harmonics.find? fun x => x.order == h).map fun x => x.phases.activeSum invert

/-- The order mask admits order h (R195: bit i admits order i + 2). -/
def admitsOrder (mask : BitVec 49) (h : Nat) : Bool := mask.getLsbD (h - 2)

/-- The window energy of an energy term: its magnitude divided and truncated (R45). -/
def energyOf (term : Int) : Nat := term.natAbs / Config.energyDivisor

/-- The 104 energies of an active sum, a reactive sum and the accounted orders' sums over a duration, each assigned to its
one quantity by sign (R46 to R48, R55, R56). An order with no sum leaves both its quantities 0. -/
def assignEnergies (sp sq : Int) (sh : Nat → Option Int) (d : Nat) : Vector Nat 104 :=
  tabulate 104 fun q =>
    match q.val with
    | 0 => if 0 ≤ sp then energyOf (sp * d) else 0
    | 1 => if sp < 0 then energyOf (sp * d) else 0
    | 2 => if 0 ≤ sp ∧ 0 ≤ sq then energyOf (sq * d) else 0
    | 3 => if sp < 0 ∧ 0 ≤ sq then energyOf (sq * d) else 0
    | 4 => if sp < 0 ∧ sq < 0 then energyOf (sq * d) else 0
    | 5 => if 0 ≤ sp ∧ sq < 0 then energyOf (sq * d) else 0
    | n =>
      match sh (n / 2 - 1) with
      | some x => if n % 2 = 0 then (if 0 ≤ x then energyOf (x * d) else 0) else (if x < 0 then energyOf (x * d) else 0)
      | none => 0

/-- The energies of a VALID point (R44 to R48). -/
def pointEnergies (f : WindowFrame) (mask : BitVec 49) (invert : Bool) : Vector Nat 104 :=
  assignEnergies (f.fundamental.activeSum invert) (f.fundamental.reactiveSum invert)
    (fun h => if admitsOrder mask h then f.harmonicSum invert h else none) f.duration.toNat

/-- A frame's marks make its point INVALID (R42). -/
def FrameStatus.invalid (st : FrameStatus) : Bool := st.unlock || st.gap || st.range

/-- The point's frame when the point is VALID (R42). -/
def Expected.validFrame (x : Expected) : Option WindowFrame :=
  match x.frame with
  | some t => if t.status.invalid then none else some t.frame
  | none => none

/-- A point's status, with energies when VALID (R42, R51). -/
def Expected.status (x : Expected) : PointStatus :=
  match x.frame with
  | none => .absent
  | some t => if t.status.invalid then .invalid else .valid (pointEnergies t.frame x.mask x.invert) t.status.clip

/-- The point result (R51). -/
def Expected.result (x : Expected) : PointResult :=
  { point := x.point, status := x.status, changeMark := x.changeMark, mask := x.mask, invert := x.invert }

/-- A bank has active points now (R54). -/
def State.bankActive (s : State) (b : BankId) : Bool :=
  (List.finRange 5).any fun e => s.profiles[pointAt b e].active

/-- A bank's start mark when the window with sequence `q` is calculated (R54). -/
def State.startMark (s : State) (b : BankId) (q : Seq16) : Option Seq16 :=
  match s.banks[b].phase.accumulating with
  | some a => some (s.banks[b].sets[a].start.getD q)
  | none => none

/-- Every bank that has active points is in step with bank 0 (R53, R54). -/
def State.inStep (s : State) (q : Seq16) : Bool :=
  (List.finRange 8).all fun b =>
    !s.bankActive b || ((s.startMark b q).isSome && s.startMark b q == s.startMark 0 q)

/-- The sign with which a point's terms enter the residual (R55). -/
def Role.sign : Role → Int
  | .pcc => 1
  | .feeder => -1
  | .source => -1

/-- One expected point's contribution to a residual: its role's sign, a sum of its frame, and the frame's own duration. -/
def State.contribution (s : State) (x : Expected) (sum : WindowFrame → Int) : Int :=
  match x.validFrame with
  | some f => s.profiles[x.point].role.sign * (sum f * f.duration.toNat)
  | none => 0

/-- A residual term over the expected set (R55, R56). -/
def State.residual (s : State) (e : Entry) (sum : Expected → WindowFrame → Int) : Int :=
  (e.expected.map fun x => s.contribution x (sum x)).sum

/-- The three conditions of R53. -/
def State.balanced (s : State) (e : Entry) : Bool :=
  (e.expected.any fun x => s.profiles[x.point].role == .pcc) && (e.expected.all fun x => x.validFrame.isSome) &&
    s.inStep e.seq

/-- The balance result (R53, R55 to R57); an order that some expected point's mask excludes is left out. -/
def State.balanceResult (s : State) (e : Entry) : Option (Vector Nat 104) :=
  if s.balanced e then
    some (assignEnergies (s.residual e fun x f => f.fundamental.activeSum x.invert)
      (s.residual e fun x f => f.fundamental.reactiveSum x.invert)
      (fun h => if e.expected.all fun x => admitsOrder x.mask h then
        some (s.residual e fun x f => (f.harmonicSum x.invert h).getD 0) else none) 1)
  else none

/-- The window counts toward the point's run (R58): role FEEDER, VALID, each phase active product negative. -/
def State.suspicious (s : State) (x : Expected) : Bool :=
  match x.validFrame with
  | some f => s.profiles[x.point].role == .feeder && decide (f.fundamental.a.active x.invert < 0) &&
      decide (f.fundamental.b.active x.invert < 0) && decide (f.fundamental.c.active x.invert < 0)
  | none => false

/-- The watch after a window of sequence `q` that counts toward the run (R58, R59). -/
def Watch.advance (w : Watch) (q : Seq16) : Watch :=
  { count := if w.count < 25 then w.count + 1 else w.count
    armed := w.armed && w.count != 24
    runStart := if w.count = 0 then some q else w.runStart }

/-- The polarity watch of one expected point advances or resets; the count reaching 25 while armed pushes POLARITY_SUSPECT
(R58, R59). -/
def State.watchPoint (q : Seq16) (s : State) (x : Expected) : State :=
  let w := s.watches[x.point]
  if s.suspicious x then
    let s := s.putWatch x.point (w.advance q)
    if w.count = 24 && w.armed then
      s.push .polaritySuspect (BitVec.ofNat 32 x.point.val) (seqWord (some q)) (seqWord (w.advance q).runStart)
        (BitVec.ofNat 32 (bit x.invert)) noCopy
    else s
  else s.putWatch x.point { w with count := 0, armed := true }

/-- The calculation of the handed entry (R41), made once. -/
def State.calculate (s : State) : State :=
  match s.accounting, s.handedEntry with
  | some a, some e =>
    if a.calculation.isSome then s
    else
      let c : Calculation := { points := e.expected.map Expected.result, balance := s.balanceResult e }
      e.expected.foldl (State.watchPoint e.seq) { s with accounting := some { a with calculation := some c } }
  | _, _ => s

/-- CALCULATION (R41). -/
def execCalculation (s : State) : Host.Outcome State Fault Refusal :=
  s.event State.calculate

/-- The calculator's warm-reset effect (R60). -/
def State.warmWatches (s : State) : State := { s with watches := Vector.replicate 40 State.resetWatch }

end Sys2Proof.Machine
end

