-- ==== Sys2Proof/Machine/Banks.lean ====
section
/-! DEFINITION. Banks and accounting intervals (spec 04): WINDOW_ADDITION, TARIFF_EVENT, the held close, the close start,
the opening of a bank by START, and the ECC of the accounting table. -/

namespace Sys2Proof.Machine

/-! ### ECC of the accounting table -/

/-- Changes one entry of a set: 0 to 4 a point entry, 5 the balance entry. -/
def AccSet.mapEntry (x : AccSet) (e : Fin 6) (f : PointEntry → PointEntry) (g : BalanceEntry → BalanceEntry) : AccSet :=
  if h : e.val < 5 then { x with entries := x.entries.set e.val (f x.entries[e.val]) }
  else { x with balance := x.balance.map g }

/-- DAMAGED on every entry of the set, the balance entry included (R72). -/
def AccSet.damageAll (x : AccSet) : AccSet :=
  { x with entries := tabulate 5 fun e => { x.entries[e] with damaged := true }
           balance := x.balance.map fun y => { y with damaged := true } }

/-- DAMAGED on entry `e` (R72). -/
def AccSet.damage (x : AccSet) (e : Fin 6) : AccSet :=
  x.mapEntry e (fun y => { y with damaged := true }) (fun y => { y with damaged := true })

/-- Rewrites one word as 0, an entry's or one of the set as a whole (R72). The in-use mark stands in none of these words
(assumption 23). -/
def AccSet.zeroWord (x : AccSet) : AccItem → AccSet
  | .acc e q => x.mapEntry e (fun y => { y with acc := y.acc.set q 0 }) (fun y => { y with acc := y.acc.set q 0 })
  | .present e => x.mapEntry e (fun y => { y with present := 0 }) (fun y => { y with balanced := 0 })
  | .absent e => x.mapEntry e (fun y => { y with absent := 0 }) (fun y => { y with unbalanced := 0 })
  | .clipped e => x.mapEntry e (fun y => { y with clipped := 0 }) id
  | .flag e => x.mapEntry e (fun y => { y with damaged := false, maskChanged := false }) (fun y => { y with damaged := false })
  | .mask e => x.mapEntry e (fun y => { y with mask := 0 }) id
  | .invert e => x.mapEntry e (fun y => { y with invert := false }) id
  | .interval => { x with interval := 0 }
  | .start => { x with start := some 0 }
  | .last => { x with last := some 0 }
  | .span => { x with span := 0 }
  | .causes => { x with causes := State.noCauses }

/-- The entry that holds a word, none for a word of the set as a whole. -/
def AccItem.entry : AccItem → Option (Fin 6)
  | .acc e _ | .present e | .absent e | .clipped e | .flag e | .mask e | .invert e => some e
  | .interval | .start | .last | .span | .causes => none

/-- A lost word: rewritten as 0, and DAMAGED then set on its entry, or on every entry for a word of the set as a whole
(R72). -/
def AccSet.loseWord (x : AccSet) (it : AccItem) : AccSet :=
  match it.entry with
  | some e => (x.zeroWord it).damage e
  | none => (x.zeroWord it).damageAll

/-- The point field of a capture location: the entry's point, FFh for a word of the set as a whole (spec 11.6). -/
def AccWord.pointField (w : AccWord) : Nat :=
  match w.item.entry with
  | some e => (entryPoint w.bank e).val
  | none => 0xFF

/-- The item field of a capture location (spec 11.6); for a word of the set as a whole it is a free value (assumption 10). -/
def AccWord.itemField (w : AccWord) : Nat :=
  match w.item with
  | .acc _ q => q.val
  | .present _ => 104
  | .absent _ => 105
  | .clipped _ => 106
  | .flag _ | .mask _ | .invert _ => 107
  | .interval | .start | .last | .span | .causes => Config.accountingSetItem.toNat

/-- The capture location of an accounting word (spec 11.6). -/
def AccWord.location (w : AccWord) : Word :=
  BitVec.ofNat 32 (w.itemField + 256 * w.pointField + 65536 * w.set.val + 16777216 * w.bank.val)

/-- Drops the error mark of an accounting word that has been written. -/
def State.accWritten (s : State) (w : AccWord) : State :=
  { s with ecc := { s.ecc with accounting := s.ecc.accounting.filter fun m => m.1 != w } }

/-- Drops the error marks of a set that is zeroed at its opening (R61, R72). -/
def State.setWritten (s : State) (b : BankId) (i : Fin 2) : State :=
  { s with ecc := { s.ecc with
      accounting := s.ecc.accounting.filter fun m => !(m.1.bank == b && m.1.set == i) } }

/-- The ECC check of a read of an accounting word (R72). -/
def State.checkAcc (s : State) (w : AccWord) : State :=
  match s.ecc.accounting.lookup w with
  | none => s
  | some .single => (s.accWritten w).countCorrected
  | some .uncorrectable =>
    let s := (s.report .accounting w.location).accWritten w
    let b := s.banks[w.bank]
    s.putBank w.bank { b with sets := b.sets.set w.set (b.sets[w.set].loseWord w.item) }

/-- The checks of reads of several words of one set. -/
def State.checkAccs (s : State) (b : BankId) (i : Fin 2) (items : List AccItem) : State :=
  items.foldl (fun s it => s.checkAcc ⟨b, i, it⟩) s

/-! ### Window addition -/

/-- The missing windows m (R65). -/
def missing (carriedLast : Option Seq16) (q : Seq16) : Nat :=
  match carriedLast with
  | some r => (q - r - 1).toNat
  | none => 0

/-- A 32-bit count raised by n, with whether it would have passed its limit (R71). -/
def addCount (c : Word) (n : Nat) : Word × Bool :=
  if c.toNat + n ≤ 0xFFFFFFFF then (BitVec.ofNat 32 (c.toNat + n), false) else (0xFFFFFFFF, true)

/-- An accumulator raised by an energy; at its limit it stays there (R71). -/
def addEnergy (a : BitVec 64) (n : Nat) : BitVec 64 :=
  if a.toNat + n ≤ 0xFFFFFFFFFFFFFFFF then BitVec.ofNat 64 (a.toNat + n) else 0xFFFFFFFFFFFFFFFF

/-- The addition would carry the accumulator beyond 2^64 − 1 (R71). -/
def energyPasses (a : BitVec 64) (n : Nat) : Bool := !(a.toNat + n ≤ 0xFFFFFFFFFFFFFFFF)

/-- All 104 energies added to accumulators (R66). -/
def addEnergies (acc : Vector (BitVec 64) 104) (es : Vector Nat 104) : Vector (BitVec 64) 104 :=
  tabulate 104 fun q => addEnergy acc[q] es[q]

/-- Some accumulator would pass its limit (R71). -/
def anyEnergyPasses (acc : Vector (BitVec 64) 104) (es : Vector Nat 104) : Bool :=
  (List.finRange 104).any fun q => energyPasses acc[q] es[q]

/-- One window's worth for a point entry in use (R66). -/
def PointEntry.count (x : PointEntry) (m : Nat) (st : Option PointStatus) : PointEntry :=
  match st with
  | some (.valid es clip) =>
    let p := addCount x.present 1
    let a := addCount x.absent m
    let c := addCount x.clipped (bit clip)
    { x with acc := addEnergies x.acc es, present := p.1, absent := a.1, clipped := c.1
             damaged := x.damaged || anyEnergyPasses x.acc es || p.2 || a.2 || c.2 }
  | _ =>
    let a := addCount x.absent (1 + m)
    { x with absent := a.1, damaged := x.damaged || a.2 }

/-- The entry takes the window's mask and INVERT; MASK_CHANGED is set by a difference after the set's first window, or by
the change mark (R67). -/
def PointEntry.noteProfile (x : PointEntry) (later : Bool) (r : Option PointResult) : PointEntry :=
  match r with
  | some r =>
    { x with
      maskChanged := x.maskChanged || r.changeMark || (later && (x.mask != r.mask || x.invert != r.invert))
      mask := r.mask, invert := r.invert }
  | none => x

/-- A point entry at an addition: untouched unless in use (R66, R67). -/
def PointEntry.add (x : PointEntry) (m : Nat) (later : Bool) (r : Option PointResult) : PointEntry :=
  if x.inUse then (x.count m (r.map PointResult.status)).noteProfile later r else x

/-- The balance entry at an addition of bank 0 (R68). -/
def BalanceEntry.add (x : BalanceEntry) (m : Nat) (balance : Option (Vector Nat 104)) : BalanceEntry :=
  match balance with
  | some es =>
    let p := addCount x.balanced 1
    let a := addCount x.unbalanced m
    { x with acc := addEnergies x.acc es, balanced := p.1, unbalanced := a.1
             damaged := x.damaged || anyEnergyPasses x.acc es || p.2 || a.2 }
  | none =>
    let a := addCount x.unbalanced (1 + m)
    { x with unbalanced := a.1, damaged := x.damaged || a.2 }

/-- The result for entry `e` of bank `b`, if the point is in the expected set. -/
def Calculation.resultAt (c : Calculation) (b : BankId) (e : Fin 5) : Option PointResult :=
  c.points.find? fun r => r.point == pointAt b e

/-- A set after the addition of window `q` with m missing windows before it (R65 to R68); `later`: a window was added to
the set before this one (assumption 27). A span that would pass its limit stays there and damages every entry
(assumption 18). -/
def AccSet.add (x : AccSet) (b : BankId) (q : Seq16) (m : Nat) (later : Bool) (c : Calculation) : AccSet :=
  let sp := addCount x.span (1 + m)
  let y : AccSet :=
    { x with
      span := sp.1
      start := if later then x.start else some q
      last := some q
      entries := tabulate 5 fun e => x.entries[e].add m later (c.resultAt b e)
      balance := x.balance.map fun z => z.add m c.balance }
  if sp.2 then y.damageAll else y

/-- The words of entry `e` but its flag word that an addition changes, and so reads (R72; assumption 16). -/
def readsOfEntry (e : Fin 5) (m : Nat) (r : Option PointResult) : List AccItem :=
  let i : Fin 6 := ⟨e.val, by omega⟩
  match r with
  | none => [.absent i]
  | some r =>
    match r.status with
    | .valid _ clip =>
      (List.finRange 104).map (AccItem.acc i) ++ [.present i] ++ (if m = 0 then [] else [.absent i]) ++
        (if clip then [.clipped i] else []) ++ [.mask i, .invert i]
    | _ => [.absent i, .mask i, .invert i]

/-- The words of the set but flag words that an addition changes, and so reads (R72; assumption 16). Their order, which
decides the error that fault capture freezes where several are lost, is assumption 29. -/
def readsOfAddition (x : AccSet) (b : BankId) (m : Nat) (later : Bool) (c : Calculation) : List AccItem :=
  (if later then [] else [.start]) ++ [.last, .span] ++
    ((List.finRange 5).flatMap fun e => if x.entries[e].inUse then readsOfEntry e m (c.resultAt b e) else []) ++
    (if x.balance.isSome then
      match c.balance with
      | some _ => (List.finRange 104).map (AccItem.acc 5) ++ [.present 5] ++ (if m = 0 then [] else [.absent 5])
      | none => [.absent 5]
    else [])

/-- DAMAGED and MASK_CHANGED of entry `e` as its flag word holds them; the balance entry has DAMAGED alone (R61). -/
def AccSet.flagWord (x : AccSet) (e : Fin 6) : Bool × Bool :=
  if h : e.val < 5 then (x.entries[e.val].damaged, x.entries[e.val].maskChanged)
  else ((x.balance.map BalanceEntry.damaged).getD false, false)

/-- The flag words that differ between two sets: those an addition changes, and so reads (R72; assumption 16). -/
def flagReads (x y : AccSet) : List AccItem :=
  ((List.finRange 6).filter fun e => x.flagWord e != y.flagWord e).map AccItem.flag

/-! ### The held close -/

/-- One cause alone. -/
def Causes.onlyHost : Causes := { State.noCauses with host := true }
def Causes.onlyTariff : Causes := { State.noCauses with tariff := true }
def Causes.onlyCount : Causes := { State.noCauses with count := true }
def Causes.onlyOverlong : Causes := { State.noCauses with overlong := true }
def Causes.onlyStop : Causes := { State.noCauses with stop := true }

/-- The union of two cause sets. -/
def Causes.union (a b : Causes) : Causes :=
  ⟨a.host || b.host, a.tariff || b.tariff, a.count || b.count, a.overlong || b.overlong, a.stop || b.stop⟩

/-- The set holds no cause. -/
def Causes.isEmpty (a : Causes) : Bool := !(a.host || a.tariff || a.count || a.overlong || a.stop)

/-- The causes of a bank's held close, none when it is absent. -/
def Bank.heldCauses (b : Bank) : Causes := (b.held.map HeldClose.causes).getD State.noCauses

/-- The bank is OPEN or TURNING: it has an ACCUMULATING set and takes closes (R63, R77). -/
def Bank.takesClose (b : Bank) : Bool := b.phase.accumulating.isSome

/-- A close asked of the bank creates its held close or merges into it (R77); a STOPPED or STOPPING bank takes none. -/
def Bank.ask (b : Bank) (cause : Causes) (waiter : List (SlotId × WaitCause)) : Bank :=
  if b.takesClose then
    match b.held with
    | some h => { b with held := some ⟨h.causes.union cause, h.waiters ++ waiter⟩ }
    | none => { b with held := some ⟨cause, waiter⟩ }
  else b

/-- The span of the ACCUMULATING set, 0 when there is none (R64). This look is no read through ECC (assumption 39). -/
def Bank.span (b : Bank) : Nat :=
  match b.phase.accumulating with
  | some a => b.sets[a].span.toNat
  | none => 0

/-- The causes include one that is not dwell-bound (R78). -/
def Causes.dwellFree (c : Causes) : Bool := c.count || c.overlong || c.stop

/-- The held close may start as far as the bank is concerned (R78): OPEN, and the span at D or a dwell-free cause. -/
def Bank.mayStart (b : Bank) : Bool :=
  match b.phase, b.held with
  | .opened _, some h => b.timing.dwell ≤ b.span || h.causes.dwellFree
  | _, _ => false

/-- The staged enable, role and mapping made current; they leave the staged part (R80). -/
def Profile.applyStaged (p : Profile) : Profile :=
  { p with enable := p.stagedEnable.getD p.enable, role := p.stagedRole.getD p.role
           mapping := p.stagedMapping.getD p.mapping, stagedEnable := none, stagedRole := none, stagedMapping := none }

/-- Applies the staged profile fields of a bank's five points (R80, R84). -/
def State.applyStaged (s : State) (b : BankId) : State :=
  (List.finRange 5).foldl (fun s e => s.putProfile (pointAt b e) s.profiles[pointAt b e].applyStaged) s

/-- A zeroed set opened as interval `n`: in-use marks for the points now active, mask and INVERT from the profiles (R80,
R84). -/
def State.openedSet (s : State) (b : BankId) (n : Word) (balance : Bool) : AccSet :=
  { State.zeroSet balance with
    interval := n
    entries := tabulate 5 fun e =>
      { State.zeroEntry with
        inUse := s.profiles[pointAt b e].active, mask := s.profiles[pointAt b e].mask
        invert := s.profiles[pointAt b e].invert } }

/-- Makes a register set's staged scale and pending REBASE due (R95). -/
def RegisterSet.makeDue (r : RegisterSet) : RegisterSet :=
  { r with staged := r.staged.map fun x => { x with due := true }, rebase := r.rebase.map fun x => { x with due := true } }

/-- Makes the items of a bank's points due, and BP's with bank 0 (R95). Setting a due mark writes no word anew: an error in it
stays (assumption 35). -/
def State.makeDue (s : State) (b : BankId) : State :=
  { s with regs := tabulate 41 fun p => if bankOfSet p = b then s.regs[p].makeDue else s.regs[p] }

/-- A waiting bank's progress in a pending entry becomes FOLDING (R154). -/
def Work.beginFold (w : Work) (b : BankId) (n : Word) : Work :=
  match w with
  | .banks k out closed => .banks k (out.map fun o => if o.1 = b then (b, .folding n) else o) closed
  | .rebase p => .rebase p

/-- Reports a close start to the request unit for each waiting slot (R83, R154). -/
def State.reportStart (s : State) (b : BankId) (n : Word) (waiters : List (SlotId × WaitCause)) : State :=
  { s with requests := { s.requests with
      table := s.requests.table.map fun (e : PendingEntry) =>
        if waiters.any fun w => w.1 == e.slot then { e with work := e.work.beginFold b n } else e } }

/-- The bank after the turnover of R81: set `a` closes with the held causes, the other set is opened, or stays zeroed and
HELD under STOP; the interval number of the set so zeroed is 0 (assumption 28). -/
def State.turnedBank (s : State) (b : BankId) (a : Fin 2) (h : HeldClose) : Bank :=
  let x := s.banks[b]
  let o := otherSet a
  let n := nextInterval x.interval
  let balance := x.sets[o].balance.isSome
  { x with
    phase := if h.causes.stop then .stopping a else .turning o
    sets := (x.sets.set o (if h.causes.stop then State.zeroSet balance else s.openedSet b n balance)).set a
      { x.sets[a] with causes := h.causes }
    previous := some a
    interval := if h.causes.stop then x.interval else n
    timing := s.timing
    held := none }

/-- The close start (R80, R81, R95, R83): settings for the new interval, the turnover, the items made due, the fold begun,
and the waiting slots reported with the closed interval's number. -/
def State.closeStart (s : State) (b : BankId) (a : Fin 2) (h : HeldClose) : State :=
  let n := s.banks[b].interval
  let s := s.applyStaged b
  let s := s.putBank b (s.turnedBank b a h)
  let s := (s.setWritten b (otherSet a)).accWritten ⟨b, a, .causes⟩
  let s := s.makeDue b
  let s := s.putFold b (some { set := a, interval := n, causes := h.causes, position := 0, lost := 0, lostCounter := 0 })
  s.reportStart b n h.waiters

/-- The held-close test (R78): not made while a warm reset is in progress. -/
def State.heldTest (s : State) (b : BankId) : State :=
  if s.control.warm then s
  else if s.banks[b].mayStart then
    match s.banks[b].phase, s.banks[b].held with
    | .opened a, some h => s.closeStart b a h
    | _, _ => s
  else s

/-- A close asked of a bank, and the test that follows every ask (R77, R78). -/
def State.askClose (s : State) (b : BankId) (cause : Causes) (waiter : List (SlotId × WaitCause)) : State :=
  (s.putBank b (s.banks[b].ask cause waiter)).heldTest b

/-! ### Addition and timing tests -/

/-- The cause that the timing test asks at an addition (R75, R76). -/
def Bank.timingCause (b : Bank) : Causes :=
  if b.timing.coupled then (if 2 * b.timing.length ≤ b.span then Causes.onlyOverlong else State.noCauses)
  else (if b.timing.length ≤ b.span then Causes.onlyCount else State.noCauses)

/-- The bank with the timing test's ask made (R75, R76). -/
def Bank.askTiming (b : Bank) : Bank := if b.timingCause.isEmpty then b else b.ask b.timingCause []

/-- The OVERLONG exception, pushed when the held close did not already carry OVERLONG (R76). Its place in the event is the
end (R185; assumption 12). -/
def State.pushOverlong (s : State) (b : BankId) (before : Bank) : State :=
  if before.timingCause.overlong && !before.heldCauses.overlong then
    s.push .overlong (BitVec.ofNat 32 b.val) before.interval (BitVec.ofNat 32 before.span)
      (BitVec.ofNat 32 before.timing.length) noCopy
  else s

/-- The span word of the bank's mirror rewritten, whether or not its value changes (R64). -/
def State.spanWritten (s : State) (b : BankId) : State := s.wordsWritten (18 + 4 * b.val) (19 + 4 * b.val)

/-- The window added into the bank's ACCUMULATING set, before the timing tests (R65 to R68). The set has had a window when
its start sequence stands before the addition's reads (assumption 27); flag words are read last, where the addition changes
them (assumption 29). -/
def State.addToSet (s : State) (b : BankId) (a : Fin 2) (q : Seq16) (m : Nat) (c : Calculation) : State :=
  let later := s.banks[b].sets[a].start.isSome
  let s := s.checkAccs b a (readsOfAddition s.banks[b].sets[a] b m later c)
  let x := s.banks[b].sets[a]
  let s := s.checkAccs b a (flagReads x (x.add b q m later c))
  let y := s.banks[b]
  (s.putBank b { y with sets := y.sets.set a (y.sets[a].add b q m later c) }).spanWritten b

/-- The addition at an OPEN or TURNING bank: the set, the timing test, the held-close test (R65, R75, R76, R78). -/
def State.addWindow (s : State) (b : BankId) (a : Fin 2) (q : Seq16) (m : Nat) (c : Calculation) : State :=
  let s := s.addToSet b a q m c
  let x := s.banks[b]
  ((s.putBank b x.askTiming).heldTest b).pushOverlong b x

/-- Bank 0's two counters of windows handed and of gaps (R69). -/
def State.countHanded (s : State) (b : BankId) (m : Nat) : State :=
  if b = 0 then
    s.putBankCounters { s.bankCounters with
      accounted := s.bankCounters.accounted + 1, missing := s.bankCounters.missing + BitVec.ofNat 32 m }
  else s

/-- A window not accounted because the bank was stopped (R69). -/
def State.countNotAccounted (s : State) : State :=
  s.putBankCounters { s.bankCounters with notAccounted := s.bankCounters.notAccounted + 1 }

/-- The window addition at a bank (R65, R69), taken once after the calculation (R41). -/
def State.windowAddition (s : State) (b : BankId) : State :=
  match s.accounting, s.handedEntry with
  | some a, some e =>
    match a.calculation with
    | some c =>
      if a.added[b] then s
      else
        let m := missing a.carriedLast e.seq
        let s := { s with accounting := some { a with added := a.added.set b true } }
        let s := s.countHanded b m
        match s.banks[b].phase.accumulating with
        | some i => if a.setAside[b] then s.countNotAccounted else s.addWindow b i e.seq m c
        | none => s.countNotAccounted
    | none => s
  | _, _ => s

/-- WINDOW_ADDITION (R65). -/
def execWindowAddition (b : BankId) (s : State) : Host.Outcome State Fault Refusal :=
  s.event fun s => s.windowAddition b

/-- A tariff event at one bank (R74). -/
def State.tariffAt (s : State) (b : BankId) : State :=
  if s.banks[b].timing.coupled && s.banks[b].takesClose then s.askClose b Causes.onlyTariff []
  else s.putBankCounters { s.bankCounters with ignoredTariff := s.bankCounters.ignoredTariff + 1 }

/-- TARIFF_EVENT (R74): every bank takes it, in ascending order (assumption 11) and with no other event between the eight
takings (assumption 30). -/
def execTariffEvent (s : State) : Host.Outcome State Fault Refusal :=
  s.event fun s => (List.finRange 8).foldl State.tariffAt s

/-! ### Starting, cancelling, warm reset -/

/-- The set that a START zeroes and opens: the one that is not the previous set, set 0 when there is none (R84). -/
def Bank.startSet (b : Bank) : Fin 2 :=
  match b.previous with
  | some p => otherSet p
  | none => 0

/-- START at one STOPPED bank (R84). A bank opened between a window's calculation and its release sets that window's
addition aside. -/
def State.openBank (s : State) (b : BankId) : State :=
  let s := s.applyStaged b
  let x := s.banks[b]
  let o := x.startSet
  let n := nextInterval x.interval
  let s := s.putBank b { x with
    phase := .opened o
    sets := x.sets.set o (s.openedSet b n x.sets[o].balance.isSome)
    previous := none
    interval := n
    timing := s.timing }
  let s := s.setWritten b o
  match s.accounting with
  | some a => if a.calculation.isSome then { s with accounting := some { a with setAside := a.setAside.set b true } } else s
  | none => s

/-- A cancelled CLOSE leaves the bank's held close: HOST goes with its last HOST waiter, and the hold with its last cause
(R79, R177). -/
def Bank.withdraw (b : Bank) (k : SlotId) : Bank :=
  match b.held with
  | some h =>
    let ws := h.waiters.filter fun w => w.1 != k
    let cs := { h.causes with host := h.causes.host && ws.any fun w => w.2 == .host }
    { b with held := if cs.isEmpty then none else some ⟨cs, ws⟩ }
  | none => b

/-- A warm reset withdraws HOST and STOP with every waiting slot (R89). -/
def Bank.warm (b : Bank) : Bank :=
  match b.held with
  | some h =>
    let cs := { h.causes with host := false, stop := false }
    { b with held := if cs.isEmpty then none else some ⟨cs, []⟩ }
  | none => b

end Sys2Proof.Machine
end

