-- ==== Sys2Proof/Machine/Records.lean ====
section
/-! DEFINITION. The record writer (spec 06): page takes, record writes, losses, the flush, RETURN_TAKE. -/

namespace Sys2Proof.Machine

/-- The first byte of a record page (R128). -/
def pageByte (p : PageId) : Nat := 4096 * (p.val + 6)

/-- The first word of a record page. -/
def pageWord (p : PageId) : Nat := 1024 * (p.val + 6)

/-- Writes bytes into a record page at byte offset `off`, both multiples of four. -/
def State.writePage (s : State) (p : PageId) (off : Nat) (bytes : List Byte) : State :=
  { s with mem := s.mem.writeBytes (pageByte p + off) bytes }.wordsWritten (pageWord p + off / 4)
    (pageWord p + off / 4 + bytes.length / 4)

/-- Zeroes the whole record area of a page (R115). -/
def State.zeroPage (s : State) (p : PageId) : State :=
  { s with mem := s.mem.zero (pageByte p + 64) (pageByte p + 4096) }.wordsWritten (pageWord p + 16) (pageWord p + 1024)

/-- The page header when the page is taken: 64 bytes (R115, R123, spec 11.4). -/
def headerBytes (seq lost : Word) : List Byte := wordBytes seq ++ List.replicate 12 0 ++ wordBytes lost ++ List.replicate 44 0

/-- The FILLING page becomes FILLED: its entry, the FILLING page number, and PAGE (R117, R122). -/
def State.fillPage (s : State) : State :=
  match s.writer.filling with
  | some f =>
    (s.putWriter { s.writer with pages := s.writer.pages.set f.page .filled, filling := none }).latch .page
  | none => s

/-- Takes the page at the head of the free queue (R115); nothing when the queue is empty. -/
def State.takePage (s : State) : State :=
  match s.writer.freeQueue with
  | p :: rest =>
    let w := s.writer
    let s := s.zeroPage p
    let s := s.writePage p 0 (headerBytes (w.pageSeq + 1) w.gapLoss)
    s.putWriter { w with
      pages := w.pages.set p .filling, freeQueue := rest, filling := some ⟨p, 0, 0, 0, 0⟩, pageSeq := w.pageSeq + 1
      gapLoss := 0 }
  | [] => s

/-- The page header after a record of interval `interval`: the record count, the first interval number with the first record
alone, the last interval number, the bytes used (R116). -/
def State.updateHeader (s : State) (f : Filling) (interval : Word) (used : Nat) : State :=
  let s := s.writePage f.page 4 (leBytes 4 (f.count + 1))
  let s := if f.count = 0 then s.writePage f.page 8 (wordBytes interval) else s
  let s := s.writePage f.page 12 (wordBytes interval)
  s.writePage f.page 20 (leBytes 4 used)

/-- Writes a record that fits behind the last one and updates the page header (R116); a room below 112 bytes fills the
page in the same event (R117). -/
def State.placeRecord (s : State) (f : Filling) (interval : Word) (record : List Byte) : State :=
  let g : Filling :=
    { f with used := f.used + record.length, count := f.count + 1, first := if f.count = 0 then interval else f.first
             last := interval }
  let s := (s.writePage f.page (64 + f.used) record).updateHeader f interval g.used
  let s := s.putWriter { s.writer with filling := some g }
  if Config.recordArea - g.used < Config.shortestRecord then s.fillPage else s

/-- Counts a lost record, and records it with the fold it belongs to (R118). -/
def State.loseRecord (s : State) (b : BankId) : State :=
  let n := s.writer.lost + 1
  let s := s.putWriter { s.writer with lost := n, gapLoss := s.writer.gapLoss + 1 }
  s.putFold b (s.folds[b].map fun f => { f with lost := f.lost + 1, lostCounter := n })

/-- Closes the FILLING page when the record does not fit in its room (R117). -/
def State.makeRoom (s : State) (length : Nat) : State :=
  match s.writer.filling with
  | some f => if length ≤ Config.recordArea - f.used then s else s.fillPage
  | none => s

/-- Takes a page when there is no FILLING page (R115). -/
def State.ensurePage (s : State) : State := if s.writer.filling.isSome then s else s.takePage

/-- Gives a record of bank `b`'s fold to the writer: written on the FILLING page, on the next page, or lost (R115 to
R118). -/
def State.writeRecord (s : State) (b : BankId) (interval : Word) (record : List Byte) : State :=
  let s := (s.makeRoom record.length).ensurePage
  match s.writer.filling with
  | some f => s.placeRecord f interval record
  | none => s.loseRecord b

/-- The record writer's take of the oldest page return (R120). With no return passed there is nothing to take. -/
def State.returnTake (s : State) : State :=
  match s.writer.returns with
  | p :: rest =>
    s.putWriter { s.writer with
      pages := s.writer.pages.set p .free, freeQueue := s.writer.freeQueue ++ [p], returns := rest }
  | [] => s

/-- RETURN_TAKE (R120). -/
def execReturnTake (s : State) : Host.Outcome State Fault Refusal :=
  s.event State.returnTake

/-! ### Record bytes -/

/-- What an interval record says besides its energies (R124, R125, spec 11.4). -/
structure RecordHead where
  balance : Bool
  point : SetId
  bank : BankId
  interval : Word
  start : Option Seq16
  last : Option Seq16
  span : Word
  present : Word
  absent : Word
  clipped : Word
  causes : Causes
  damaged : Bool
  maskChanged : Bool
  invert : Bool
  rebased : Bool
  regInvalid : Bool
  mask : BitVec 49
deriving DecidableEq, Repr

/-- The orders with a non-zero accumulator, as their even quantities' numbers halved: order h at h (R124). -/
def recordOrders (acc : Vector (BitVec 64) 104) : List (Fin 49) :=
  (List.finRange 49).filter fun j =>
    acc[(⟨6 + 2 * j.val, by omega⟩ : Fin 104)] != 0 || acc[(⟨7 + 2 * j.val, by omega⟩ : Fin 104)] != 0

/-- One harmonic entry: order, zeros, absorbed, injected (spec 11.4). -/
def harmonicBytes (acc : Vector (BitVec 64) 104) (j : Fin 49) : List Byte :=
  leBytes 2 (j.val + 2) ++ List.replicate 6 0 ++ leBytes 8 acc[(⟨6 + 2 * j.val, by omega⟩ : Fin 104)].toNat ++
    leBytes 8 acc[(⟨7 + 2 * j.val, by omega⟩ : Fin 104)].toNat

/-- The flags word of a record (spec 11.4). -/
def RecordHead.flags (h : RecordHead) : Nat :=
  bit h.damaged + 2 * bit h.maskChanged + 4 * bit h.invert + 8 * bit h.rebased + 16 * bit h.regInvalid

/-- An interval record of 112 + 24n bytes (R124, spec 11.4). -/
def RecordHead.bytes (h : RecordHead) (acc : Vector (BitVec 64) 104) : List Byte :=
  let orders := recordOrders acc
  leBytes 4 (112 + 24 * orders.length) ++ leBytes 2 (if h.balance then 2 else 1) ++ leBytes 2 orders.length ++
    leBytes 2 h.point.val ++ leBytes 2 h.bank.val ++ wordBytes h.interval ++ wordBytes (seqWord h.start) ++
    wordBytes (seqWord h.last) ++ wordBytes h.span ++ wordBytes h.present ++ wordBytes h.absent ++
    wordBytes h.clipped ++ leBytes 4 h.causes.code ++ leBytes 4 h.flags ++ leBytes 8 h.mask.toNat ++
    ((List.finRange 6).flatMap fun q => leBytes 8 acc[(⟨q.val, by omega⟩ : Fin 104)].toNat) ++ List.replicate 8 0 ++
    orders.flatMap (harmonicBytes acc)

end Sys2Proof.Machine
end

