-- ==== Sys2Proof/Machine/Registers.lean ====
section
/-! DEFINITION. The register store (spec 05): decimal registers and residues, scale changes, rebase, addition, net readouts,
and the store's ECC. -/

namespace Sys2Proof.Machine

/-- 10^16, one more than the largest register (R90). -/
def registerLimit : Nat := 10 ^ 16

/-- The residue's range at a scale: 10^(3 + scale), by R90's formula (assumption 32). -/
def residueLimit (scale : Fin 4) : Nat := 10 ^ (3 + scale.val)

/-- A quantity's stored value in mWh (R90). -/
def Quantity.stored (q : Quantity) (scale : Fin 4) : Nat := q.register * residueLimit scale + q.residue

/-! ### Scale changes -/

/-- An increase by k digits from scale `old` (R99): the lowest k digits join the residue. -/
def Quantity.raise (q : Quantity) (old : Fin 4) (k : Nat) : Quantity :=
  { q with register := q.register / 10 ^ k, residue := q.register % 10 ^ k * residueLimit old + q.residue }

/-- A decrease by k digits to scale `new` (R100): k digits enter at the bottom from the residue's top; a digit pushed out
at the top of an INVALID register is discarded. -/
def Quantity.lower (q : Quantity) (new : Fin 4) (k : Nat) : Quantity :=
  { q with register := (q.register * 10 ^ k + q.residue / residueLimit new) % registerLimit
           residue := q.residue % residueLimit new }

/-- The quantity fails the headroom test for k digits (R92): VALID with a non-zero digit among its top k. -/
def Quantity.failsHeadroom (q : Quantity) (k : Nat) : Bool := q.valid && 10 ^ (16 - k) ≤ q.register

/-- The lowest quantity that fails the headroom test (R92, R100). -/
def RegisterSet.failing (r : RegisterSet) (k : Nat) : Option QuantityId :=
  (List.finRange 104).find? fun q => r.quantities[q].failsHeadroom k

/-- Every quantity changed alike. -/
def RegisterSet.mapQuantities (r : RegisterSet) (f : QuantityId → Quantity → Quantity) : RegisterSet :=
  { r with quantities := tabulate 104 fun q => f q r.quantities[q] }

/-- A scale change that passes: increase or decrease, the scale taken and the staged scale removed (R99, R100). -/
def RegisterSet.rescale (r : RegisterSet) (new : Fin 4) : RegisterSet :=
  let r' := r.mapQuantities fun _ q =>
    if r.scale < new then q.raise r.scale (new.val - r.scale.val) else q.lower new (r.scale.val - new.val)
  { r' with scale := new, staged := none }

/-- The due staged scale, none when there is none to apply (R97). -/
def RegisterSet.dueScale (r : RegisterSet) : Option (Fin 4) :=
  match r.staged with
  | some x => if x.due then some x.value else none
  | none => none

/-- The quantity that makes the due decrease abandoned (R100); none when there is no due decrease, or it passes. -/
def RegisterSet.abandons (r : RegisterSet) : Option QuantityId :=
  match r.dueScale with
  | some v => if v < r.scale then r.failing (r.scale.val - v.val) else none
  | none => none

/-- The scale part of a point step (R97, R99, R100). -/
def RegisterSet.scalePart (r : RegisterSet) : RegisterSet :=
  match r.dueScale with
  | some v => if r.abandons.isSome then { r with staged := none } else r.rescale v
  | none => r

/-! ### Rebase and addition -/

/-- The due pending REBASE (R97). -/
def RegisterSet.dueRebase (r : RegisterSet) : Option PendingRebase :=
  match r.rebase with
  | some x => if x.due then some x else none
  | none => none

/-- The value a pending REBASE gives quantity q, none when it does not name q (R101). -/
def PendingRebase.valueFor (x : PendingRebase) (q : Nat) : Option Nat :=
  if x.first ≤ q then x.values[q - x.first]? else none

/-- The addition of total T overflows quantity q (R102). -/
def Quantity.overflows (q : Quantity) (scale : Fin 4) (total : Nat) : Bool :=
  q.valid && registerLimit ≤ q.register + (q.residue + total) / residueLimit scale

/-- The addition of an interval total (R102): an INVALID quantity receives nothing, an overflow leaves register and residue
and makes it INVALID. -/
def Quantity.addTotal (q : Quantity) (scale : Fin 4) (total : Nat) : Quantity :=
  if !q.valid then q
  else if q.overflows scale total then { q with valid := false }
  else { q with register := q.register + (q.residue + total) / residueLimit scale
                residue := (q.residue + total) % residueLimit scale }

/-- One quantity in the second part of a step: set by the rebase that names it, else added to (R97, R101, R102). -/
def Quantity.settle (q : Quantity) (scale : Fin 4) (named : Option Nat) (total : Nat) : Quantity :=
  match named with
  | some v => ⟨v, 0, true⟩
  | none => q.addTotal scale total

/-- The second part of a step: the due rebase applied and removed, the totals added (R97). -/
def RegisterSet.settle (r : RegisterSet) (totals : Vector (BitVec 64) 104) : RegisterSet :=
  let r' := r.mapQuantities fun i q => q.settle r.scale (r.dueRebase.bind fun x => x.valueFor i.val) totals[i].toNat
  { r' with rebase := if r.dueRebase.isSome then none else r.rebase }

/-- The quantities that overflow in the second part (R102). -/
def RegisterSet.overflowing (r : RegisterSet) (totals : Vector (BitVec 64) 104) : List QuantityId :=
  (List.finRange 104).filter fun i =>
    (r.dueRebase.bind fun x => x.valueFor i.val).isNone && r.quantities[i].overflows r.scale totals[i].toNat

/-- Some quantity of the set is INVALID (R98). -/
def RegisterSet.anyInvalid (r : RegisterSet) : Bool := (List.finRange 104).any fun q => !r.quantities[q].valid

/-! ### Net readouts -/

/-- A net item's state (R107). -/
inductive NetState where
  | valid | invalid | overrange
deriving DecidableEq, Repr

/-- Net state codes (R195). -/
def NetState.code : NetState → Nat
  | .valid => 0 | .invalid => 1 | .overrange => 2

/-- A net item: sign (negative), magnitude, state (R106, R107). -/
structure NetItem where
  negative : Bool
  magnitude : Nat
  state : NetState
deriving DecidableEq, Repr

/-- The difference of two sums as a net item: A − B by sign and magnitude; a seventeenth digit is OVERRANGE and leaves the
lowest 16 (R106, R107). -/
def netDifference (a b : Nat) : NetItem :=
  let m := if b ≤ a then a - b else b - a
  { negative := decide (a < b), magnitude := m % registerLimit, state := if registerLimit ≤ m then .overrange else .valid }

/-- The quantities added and those subtracted in a net item (R106). -/
def netTerms (item : Nat) : List QuantityId × List QuantityId :=
  if item = 0 then ([0], [1])
  else if item = 1 then ([2, 3], [4, 5])
  else if h : item ≤ 50 then ([⟨2 + 2 * item, by omega⟩], [⟨3 + 2 * item, by omega⟩])
  else ([], [])

/-- A net item of a register set (R106, R107). -/
def RegisterSet.netItem (r : RegisterSet) (item : Nat) : NetItem :=
  let t := netTerms item
  if (t.1 ++ t.2).any fun q => !r.quantities[q].valid then ⟨false, 0, .invalid⟩
  else netDifference (t.1.map fun q => r.quantities[q].register).sum (t.2.map fun q => r.quantities[q].register).sum

/-! ### Reply forms -/

/-- A quantity in a READ_REGISTERS reply: 16 bytes (spec 11.3). -/
def Quantity.bytes (q : Quantity) (scale : Fin 4) : List Byte :=
  packDecimal 8 q.register ++ leBytes 4 q.residue ++ leBytes 1 (bit (!q.valid)) ++ leBytes 1 scale.val ++ [0, 0]

/-- A net item in a reply: 16 bytes (spec 11.3). -/
def NetItem.bytes (x : NetItem) (scale : Fin 4) : List Byte :=
  packDecimal 8 x.magnitude ++ leBytes 1 (bit x.negative) ++ leBytes 1 x.state.code ++ leBytes 1 scale.val ++
    [0, 0, 0, 0, 0]

/-- The quantities `first` to `first + count − 1` of a set as reply bytes. -/
def RegisterSet.bytes (r : RegisterSet) (first count : Nat) : List Byte :=
  (List.range count).flatMap fun j =>
    match r.quantities[first + j]? with
    | some q => q.bytes r.scale
    | none => []

/-- The net items `first` to `first + count − 1` of a set as reply bytes. -/
def RegisterSet.netBytes (r : RegisterSet) (first count : Nat) : List Byte :=
  (List.range count).flatMap fun j => (r.netItem (first + j)).bytes r.scale

/-! ### ECC of the register store -/

/-- A lost quantity: 0, 0, INVALID (R109). -/
def lostQuantity : Quantity := ⟨0, 0, false⟩

/-- The quantity field of a capture location: FFh for a word of the set as a whole (spec 11.6). -/
def RegItem.quantityField : RegItem → Nat
  | .register q | .residue q | .state q => q.val
  | .scale | .staged | .lastFolded | .rebase => 0xFF

/-- The capture location of a register-store word (spec 11.6). -/
def RegWord.location (w : RegWord) : Word := BitVec.ofNat 32 (w.item.quantityField + 256 * w.point.val)

/-- The word belongs to quantity q. -/
def RegItem.ofQuantity (it : RegItem) (q : QuantityId) : Bool := it == .register q || it == .residue q || it == .state q

/-- Drops the error marks of words of one set that have been written. -/
def State.regWritten (s : State) (p : SetId) (which : RegItem → Bool) : State :=
  { s with ecc := { s.ecc with registers := s.ecc.registers.filter fun m => !(m.1.point == p && which m.1.item) } }

/-- Removes a set's pending REBASE whose words are lost; its slot is refused with MEMORY (R110, R155). -/
def State.loseRebase (s : State) (p : SetId) : State :=
  match s.regs[p].rebase with
  | some x =>
    (s.putRegs p { s.regs[p] with rebase := none }).endDeferred x.slot .refused .none .memory 0 0 []
  | none => s

/-- The effect of an uncorrectable error in a word of a register set (R109, R110). -/
def State.loseReg (s : State) (p : SetId) (it : RegItem) : State :=
  let r := s.regs[p]
  match it with
  | .register q | .residue q | .state q =>
    (s.putRegs p { r with quantities := r.quantities.set q lostQuantity }).regWritten p (RegItem.ofQuantity · q)
  | .scale =>
    (s.putRegs p { r with scale := 0, staged := none, quantities := Vector.replicate 104 lostQuantity }).regWritten p
      fun it => it != .lastFolded && it != .rebase
  | .staged => (s.putRegs p { r with staged := none }).regWritten p (· == .staged)
  | .lastFolded => (s.putRegs p { r with lastFolded := 0 }).regWritten p (· == .lastFolded)
  | .rebase => (s.loseRebase p).regWritten p (· == .rebase)

/-- The ECC check of a read of a register-store word (R108). -/
def State.checkReg (s : State) (p : SetId) (it : RegItem) : State :=
  match s.ecc.registers.lookup ⟨p, it⟩ with
  | none => s
  | some .single => (s.regWritten p (· == it)).countCorrected
  | some .uncorrectable => (s.report .registers (RegWord.location ⟨p, it⟩)).loseReg p it

/-- The checks of reads of several words of one set. -/
def State.checkRegs (s : State) (p : SetId) (items : List RegItem) : State := items.foldl (fun s it => s.checkReg p it) s

/-- The three words of a quantity. -/
def quantityWords (q : QuantityId) : List RegItem := [.register q, .residue q, .state q]

/-- The words of all 104 quantities (R92, R108), in the model's order (assumption 29). -/
def allQuantityWords : List RegItem := (List.finRange 104).flatMap quantityWords

end Sys2Proof.Machine
end

