-- ==== Sys2Proof/Machine/Fold.lean ====
section
/-! DEFINITION. The folding unit (spec 05 §5.3): POINT_STEP and FOLD_COMPLETION. -/

namespace Sys2Proof.Machine

/-! ### The walk -/

/-- Entry `e` of a set has a point step in the set's fold: a point entry in use, or the balance entry (R96). -/
def AccSet.hasStep (x : AccSet) (e : Fin 6) : Bool := if h : e.val < 5 then x.entries[e.val].inUse else x.balance.isSome

/-- The fold in progress at a bank and the entry its next point step takes, none when every step has been taken (R96). -/
def State.nextStep (s : State) (b : BankId) : Option (Fold × Fin 6) :=
  match s.folds[b] with
  | some f =>
    ((List.finRange 6).find? fun e => f.position ≤ e.val && s.banks[b].sets[f.set].hasStep e).map fun e => (f, e)
  | none => none

/-- The 104 accumulators of an entry (R97). -/
def AccSet.totals (x : AccSet) (e : Fin 6) : Vector (BitVec 64) 104 :=
  if h : e.val < 5 then x.entries[e.val].acc
  else match x.balance with
    | some y => y.acc
    | none => Vector.replicate 104 0

/-! ### A point step -/

/-- A due rebase names quantity q (R101). -/
def RegisterSet.rebases (r : RegisterSet) (q : QuantityId) : Bool :=
  (r.dueRebase.bind fun x => x.valueFor q.val).isSome

/-- The quantity words a point step reads: those of every quantity when a scale change is due, else those of the quantities
that no due rebase names, since a rebase replaces words unread (R97, R108). -/
def RegisterSet.stepWords (r : RegisterSet) : List RegItem :=
  ((List.finRange 104).filter fun q => r.dueScale.isSome || !r.rebases q).flatMap quantityWords

/-- The reads of a point step: the scale, the staged scale and the pending REBASE, then quantities, then the entry's totals
(R97, R108; assumption 16), in the model's order (assumption 29). -/
def State.stepReads (s : State) (b : BankId) (i : Fin 2) (e : Fin 6) : State :=
  let p := entryPoint b e
  let s := s.checkRegs p [.scale, .staged, .rebase]
  let s := s.checkRegs p s.regs[p].stepWords
  s.checkAccs b i ((List.finRange 104).map (AccItem.acc e))

/-- The scale part of a step in interval `n`; an abandoned decrease pushes SCALE_ABANDONED (R99, R100). -/
def State.stepScale (s : State) (p : SetId) (n : Word) : State :=
  let r := s.regs[p]
  let s := s.putRegs p r.scalePart
  match r.abandons, r.dueScale with
  | some q, some v =>
    s.push .scaleAbandoned (BitVec.ofNat 32 p.val) n (BitVec.ofNat 32 (r.scale.val + 256 * v.val)) (BitVec.ofNat 32 q.val)
      noCopy
  | _, _ => s

/-- The word belongs to a quantity that the due rebase writes. -/
def RegisterSet.rebasesWord (r : RegisterSet) : RegItem → Bool
  | .register q | .residue q | .state q => r.rebases q
  | .rebase => r.dueRebase.isSome
  | .scale | .staged | .lastFolded => false

/-- The end of an applied rebase: its slot DONE with OK, the step's interval number, the count and the values set (R101,
R154, R175). -/
def State.endRebase (s : State) (p : SetId) (n : Word) (x : PendingRebase) : State :=
  s.endDeferred x.slot .done .ok .none n x.values.length (s.regs[p].bytes x.first x.values.length)

/-- The second part of a step: the due rebase, the totals added, and REGISTER_OVERFLOW once (R101, R102). -/
def State.stepSettle (s : State) (p : SetId) (n : Word) (totals : Vector (BitVec 64) 104) : State :=
  let r := s.regs[p]
  let s := (s.putRegs p (r.settle totals)).regWritten p r.rebasesWord
  let s := match r.dueRebase with
    | some x => s.endRebase p n x
    | none => s
  match r.overflowing totals with
  | q :: rest =>
    s.push .registerOverflow (BitVec.ofNat 32 p.val) n (BitVec.ofNat 32 q.val) (BitVec.ofNat 32 (rest.length + 1)) noCopy
  | [] => s

/-- The words of the set that the record alone reads (R98, R124), in the model's order (assumption 29). -/
def recordReads (e : Fin 6) : List AccItem :=
  [.interval, .start, .last, .span, .causes, .present e, .absent e] ++
    (if e.val < 5 then [.clipped e, .flag e, .mask e, .invert e] else [.flag e])

/-- The head of the record of entry `e`, from the FOLDING set as read (R98, R124, R125). -/
def AccSet.recordHead (x : AccSet) (b : BankId) (e : Fin 6) (rebased regInvalid : Bool) : RecordHead :=
  if h : e.val < 5 then
    let y := x.entries[e.val]
    { balance := false, point := entryPoint b e, bank := b, interval := x.interval, start := x.start, last := x.last
      span := x.span, present := y.present, absent := y.absent, clipped := y.clipped, causes := x.causes
      damaged := y.damaged, maskChanged := y.maskChanged, invert := y.invert, rebased := rebased
      regInvalid := regInvalid, mask := y.mask }
  else
    let y := x.balance.getD State.zeroBalance
    { balance := true, point := 40, bank := 0, interval := x.interval, start := x.start, last := x.last
      span := x.span, present := y.balanced, absent := y.unbalanced, clipped := 0, causes := x.causes
      damaged := y.damaged, maskChanged := false, invert := false, rebased := rebased, regInvalid := regInvalid
      mask := BitVec.allOnes 49 }

/-- The third part of a step: the interval record, under ARCHIVE as it stands at the step (R98). Its interval number is the
FOLDING set's as read, the page header's too; the fold's own number stays with the rest of the step (assumption 17). -/
def State.stepRecord (s : State) (b : BankId) (e : Fin 6) (f : Fold) (rebased : Bool) : State :=
  if s.banks[b].archive then
    let s := s.checkAccs b f.set (recordReads e)
    let x := s.banks[b].sets[f.set]
    s.writeRecord b x.interval
      ((x.recordHead b e rebased s.regs[entryPoint b e].anyInvalid).bytes (x.totals e))
  else s

/-- The fourth part: the last folded interval (R97). -/
def State.stepInterval (s : State) (p : SetId) (n : Word) : State :=
  (s.putRegs p { s.regs[p] with lastFolded := n }).regWritten p (· == .lastFolded)

/-- The point step of entry `e` in fold `f` (R97). -/
def State.stepEntry (s : State) (b : BankId) (f : Fold) (e : Fin 6) : State :=
  let p := entryPoint b e
  let s := (s.stepReads b f.set e).stepScale p f.interval
  let rebased := s.regs[p].dueRebase.isSome
  let s := s.stepSettle p f.interval (s.banks[b].sets[f.set].totals e)
  let s := (s.stepRecord b e f rebased).stepInterval p f.interval
  s.putFold b (s.folds[b].map fun g => { g with position := e.val + 1 })

/-- The next point step of a bank's fold; nothing when there is no fold or no step left (R96). -/
def State.pointStep (s : State) (b : BankId) : State :=
  match s.nextStep b with
  | some (f, e) => s.stepEntry b f e
  | none => s

/-- POINT_STEP (R97). -/
def execPointStep (b : BankId) (s : State) : Host.Outcome State Fault Refusal :=
  s.event fun s => s.pointStep b

/-! ### Fold completion -/

/-- The bank state after its fold (R63, R82). -/
def Phase.folded : Phase → Phase
  | .turning a => .opened a
  | .stopping _ => .stopped
  | p => p

/-- The bank's part of a pending entry ends when its progress is FOLDING: the bank leaves the outstanding set and joins the
closed intervals (R154). -/
def Work.endPart (w : Work) (b : BankId) (n : Word) : Work :=
  match w with
  | .banks k out closed =>
    if out.any fun o => o.1 == b && o.2 != .waiting then .banks k (out.filter fun o => o.1 != b) (closed ++ [(b, n)])
    else w
  | .rebase _ => w

/-- No outstanding part is left (R154). -/
def Work.finished : Work → Bool
  | .banks _ out _ => out.isEmpty
  | .rebase _ => false

/-- The closed intervals of a pending entry. -/
def Work.closed : Work → List (BankId × Word)
  | .banks _ _ closed => closed
  | .rebase _ => []

/-- The interval number field at an entry's end: the closed interval for a CLOSE of one bank, else 0 (R169, R171). -/
def Work.intervalField : Work → Word
  | .banks .closeOne _ ((_, n) :: _) => n
  | _ => 0

/-- Ends a CLOSE or a STOP whose last part has ended (R154, R169, R171). -/
def State.endClose (s : State) (e : PendingEntry) : State :=
  s.endDeferred e.slot .done .ok .none e.work.intervalField e.work.closed.length (closedBytes e.work.closed)

/-- The report of a fold completion to the request unit (R83, R154). -/
def State.reportCompletion (s : State) (b : BankId) (n : Word) : State :=
  let table := s.requests.table.map fun (e : PendingEntry) => { e with work := e.work.endPart b n }
  (table.filter fun e => e.work.finished).foldl State.endClose { s with requests := { s.requests with table := table } }

/-- Every bank is STOPPED (R122). -/
def State.allStopped (s : State) : Bool := (List.finRange 8).all fun b => s.banks[b].phase == .stopped

/-- The flush: the FILLING page becomes FILLED when all eight banks are STOPPED (R122). -/
def State.flush (s : State) : State := if s.allStopped then s.fillPage else s

/-- RECORDS_LOST for a fold that lost records (R119). -/
def State.pushLost (s : State) (b : BankId) (f : Fold) : State :=
  if f.lost = 0 then s
  else s.push .recordsLost (BitVec.ofNat 32 b.val) f.interval f.lost f.lostCounter noCopy

/-- The completion of fold `f` at a bank (R82, R83, R119, R122). RECORDS_LOST is pushed at the end of the event
(assumption 12). -/
def State.completeFold (s : State) (b : BankId) (f : Fold) : State :=
  let s := (s.putBank b { s.banks[b] with phase := s.banks[b].phase.folded }).putFold b none
  let s := if s.banks[b].notify then s.latch .close else s
  (((s.reportCompletion b f.interval).flush).heldTest b).pushLost b f

/-- The fold completion of a bank, reported when no step of the fold is left (R96). -/
def State.foldCompletion (s : State) (b : BankId) : State :=
  match s.folds[b] with
  | some f => if (s.nextStep b).isSome then s else s.completeFold b f
  | none => s

/-- FOLD_COMPLETION (R82). -/
def execFoldCompletion (b : BankId) (s : State) : Host.Outcome State Fault Refusal :=
  s.event fun s => s.foldCompletion b

end Sys2Proof.Machine
end

