-- ==== Sys2Proof/Machine/Frames.lean ====
section
/-! DEFINITION. Frame delimitation, CRC and well-formedness (R2 to R5), and the status word (R11). -/

namespace Sys2Proof.Machine

/-- One bit of the CRC division by x^16 + x^12 + x^5 + 1, most significant bit first (R2). -/
def crcShift (crc : BitVec 16) : BitVec 16 := if crc.msb then (crc <<< 1) ^^^ 0x1021 else crc <<< 1

/-- The CRC after one more byte (R2). -/
def crcByte (crc : BitVec 16) (b : Byte) : BitVec 16 :=
  let x := crc ^^^ (b.setWidth 16 <<< 8)
  crcShift (crcShift (crcShift (crcShift (crcShift (crcShift (crcShift (crcShift x)))))))

/-- The CRC of the length bytes and the body, from FFFFh, with no final inversion (R2). -/
def crc16 (bytes : List Byte) : BitVec 16 := bytes.foldl crcByte 0xFFFF

/-- The little-endian field of `n` bytes at an offset (spec 11.2). -/
def fieldAt (bytes : List Byte) (off n : Nat) : Nat := leValue ((bytes.drop off).take n)

/-- A phase group of 12 bytes (spec 11.2). -/
def phasorAt (bytes : List Byte) (off : Nat) : Phasor :=
  { vMag := BitVec.ofNat 32 (fieldAt bytes off 4), vAng := BitVec.ofNat 16 (fieldAt bytes (off + 4) 2),
    iMag := BitVec.ofNat 32 (fieldAt bytes (off + 6) 4), iAng := BitVec.ofNat 16 (fieldAt bytes (off + 10) 2) }

/-- Three phase groups on end (spec 11.2). -/
def phasesAt (bytes : List Byte) (off : Nat) : Phases :=
  ⟨phasorAt bytes off, phasorAt bytes (off + 12), phasorAt bytes (off + 24)⟩

/-- The orders are strictly ascending (R5). -/
def ascending : List Nat → Bool
  | a :: b :: rest => a < b && ascending (b :: rest)
  | _ => true

/-- The body of a frame, none when it breaks a test of R5. -/
def parseBody (body : List Byte) : Option FrameBody :=
  match fieldAt body 0 1 with
  | 1 => if body.length = 1 then some .idle else none
  | 2 =>
    let n := fieldAt body 45 1
    let port := fieldAt body 1 1
    let flags := fieldAt body 4 1
    let harmonics := (List.range n).map fun j =>
      (⟨fieldAt body (46 + 38 * j) 2, phasesAt body (48 + 38 * j)⟩ : Harmonic)
    let orders := harmonics.map Harmonic.order
    if h : body.length = 46 + 38 * n ∧ n ≤ 49 ∧ port < 8 ∧ flags < 8 ∧
        (orders.all fun o => 2 ≤ o && o ≤ 50) = true ∧ ascending orders = true then
      some (.window
        { port := ⟨port, h.2.2.1⟩, seq := BitVec.ofNat 16 (fieldAt body 2 2), clip := flags.testBit 0,
          unlock := flags.testBit 1, gap := flags.testBit 2, duration := BitVec.ofNat 32 (fieldAt body 5 4),
          fundamental := phasesAt body 9, harmonics := harmonics })
    else none
  | _ => none

/-- What stands at the front of a stream: a gap byte, a frame not yet complete, a length out of range, or a whole frame of
`size` bytes that is bad or good (R2 to R5). -/
inductive Look where
  | gap
  | incomplete
  | badLength
  | crcError (size : Nat)
  | formatError (size : Nat)
  | good (body : FrameBody) (size : Nat)
deriving DecidableEq, Repr

/-- Judges the frame of which `stream` begins with all bytes; `n` is its length field (R4: CRC before contents). -/
def judge (stream : List Byte) (n : Nat) : Look :=
  let body := (stream.drop 4).take n
  if crc16 ((stream.drop 2).take (2 + n)) ≠ BitVec.ofNat 16 (fieldAt stream (4 + n) 2) then .crcError (6 + n)
  else match parseBody body with
    | some b => .good b (6 + n)
    | none => .formatError (6 + n)

/-- Examines the front of a stream (R2). -/
def examine : List Byte → Look
  | [] => .incomplete
  | [d0] => if d0 = 0x7E then .incomplete else .gap
  | d0 :: d1 :: rest =>
    if d0 = 0x7E ∧ d1 = 0xC3 then
      if rest.length < 2 then .incomplete
      else
        let n := fieldAt rest 0 2
        if n = 0 ∨ 1908 < n then .badLength
        else if rest.length < 4 + n then .incomplete
        else judge (d0 :: d1 :: rest) n
    else .gap

/-- RANGE: the duration lies outside 180,000 to 230,000 µs (R11). -/
def outOfRange (duration : BitVec 32) : Bool := duration.toNat < 180000 || 230000 < duration.toNat

/-- The status word formed when a frame enters the FIFO (R11). -/
def formStatus (f : WindowFrame) (overrun : Bool) : FrameStatus :=
  { clip := f.clip, unlock := f.unlock, gap := f.gap, range := outOfRange f.duration, overrun := overrun }

end Sys2Proof.Machine
end

