-- ==== Sys2Proof/Machine/Links.lean ====
section
/-! DEFINITION. The link receivers (spec 01): GOOD_FRAME, BAD_FRAME, HUNT_CANDIDATE, SILENCE_TIMER_EXPIRY, and the effects
of LINK_CONTROL on a receiver. -/

namespace Sys2Proof.Machine

/-- A change of receiver state with the bookkeeping of R9: the frame in progress is discarded, the consecutive-bad count is
0, the silence timer starts in SYNC and stops otherwise, the mirror is rewritten and LINK is latched. The FIFO stays. -/
def State.changeReceiver (s : State) (l : LinkId) (st : RxState) : State :=
  let r := s.links[l]
  (s.putLink l
    { r with state := st, inProgress := [], consecutiveBad := 0,
             silenceTimer := if st = .sync then some Config.silenceMs else none }).latch .link

/-- The FIFO and the counters after a good WINDOW frame is placed: appended below 4 frames, else over the newest (R12,
R13). -/
def Receiver.place (r : Receiver) (f : WindowFrame) : Receiver :=
  if r.fifo.length < 4 then { r with fifo := r.fifo ++ [⟨f, formStatus f false⟩] }
  else
    { r with fifo := r.fifo.dropLast ++ [⟨f, formStatus f true⟩], lost := r.lost + 1,
             errors := { r.errors with overrun := true } }

/-- A good frame in SYNC (R6, R10). -/
def State.goodFrame (s : State) (l : LinkId) (body : FrameBody) : State :=
  let r := { s.links[l] with
    good := s.links[l].good + 1, consecutiveBad := 0, silenceTimer := some Config.silenceMs }
  match body with
  | .idle => s.putLink l r
  | .window f =>
    if s.control.run then s.putLink l (r.place f)
    else (s.putLink l r).putSorter { s.sorter with halted := s.sorter.halted + 1 }

/-- A bad frame in SYNC with the CRC error or the FORMAT error; the third in a row takes the link to HUNT (R7). -/
def State.badFrame (s : State) (l : LinkId) (crc : Bool) : State :=
  let r := s.links[l]
  let errors := if crc then { r.errors with crc := true } else { r.errors with format := true }
  let s := s.putLink l { r with bad := r.bad + 1, errors := errors, consecutiveBad := r.consecutiveBad + 1 }
  if r.consecutiveBad + 1 < 3 then s else s.changeReceiver l .hunt

/-- Leaves the unresolved rest of the stream in progress. -/
def State.keepStream (s : State) (l : LinkId) (stream : List Byte) : State :=
  s.putLink l { s.links[l] with inProgress := stream }

/-- Resolves the stream of a link front to back: gap bytes are passed over; in HUNT a failed candidate is searched again
from the byte after its first (R3), and a good one takes the link to SYNC and is its first good frame; in SYNC each frame is
judged and the search goes on behind it (R4). Every round drops a byte at least, so `fuel` = the stream's length is enough. -/
def State.resolve : Nat → State → LinkId → List Byte → State
  | 0, s, l, stream => s.keepStream l stream
  | fuel + 1, s, l, stream =>
    match s.links[l].state with
    | .down => s.keepStream l []
    | .hunt =>
      match examine stream with
      | .incomplete => s.keepStream l stream
      | .good body size =>
        State.resolve fuel ((s.changeReceiver l .sync).goodFrame l body) l (stream.drop size)
      | _ => State.resolve fuel s l (stream.drop 1)
    | .sync =>
      match examine stream with
      | .incomplete => s.keepStream l stream
      | .gap => State.resolve fuel s l (stream.drop 1)
      | .badLength => State.resolve fuel (s.badFrame l false) l (stream.drop 4)
      | .crcError size => State.resolve fuel (s.badFrame l true) l (stream.drop size)
      | .formatError size => State.resolve fuel (s.badFrame l false) l (stream.drop size)
      | .good body size => State.resolve fuel (s.goodFrame l body) l (stream.drop size)

/-- Bytes arrive on a link behind those in progress. In DOWN they are ignored (R1). -/
def State.receive (s : State) (l : LinkId) (bytes : List Byte) : State :=
  if s.links[l].state = .down then s
  else
    let stream := s.links[l].inProgress ++ bytes
    s.resolve (stream.length + 1) l stream

/-- GOOD_FRAME (R6). -/
def execGoodFrame (l : LinkId) (bytes : List Byte) (s : State) : Host.Outcome State Fault Refusal :=
  s.event fun s => s.receive l bytes

/-- BAD_FRAME (R7). -/
def execBadFrame (l : LinkId) (bytes : List Byte) (s : State) : Host.Outcome State Fault Refusal :=
  s.event fun s => s.receive l bytes

/-- HUNT_CANDIDATE (R3). -/
def execHuntCandidate (l : LinkId) (bytes : List Byte) (s : State) : Host.Outcome State Fault Refusal :=
  s.event fun s => s.receive l bytes

/-- The silence timer expires: SILENCE is set and the link changes to HUNT (R8). A stopped timer does not expire. The bytes in
progress are discarded, so a frame completed later is judged by the bytes that arrive after the expiry alone (assumption 38). -/
def State.silenceExpiry (s : State) (l : LinkId) : State :=
  match s.links[l].silenceTimer with
  | none => s
  | some _ =>
    (s.putLink l { s.links[l] with errors := { s.links[l].errors with silence := true } }).changeReceiver l .hunt

/-- SILENCE_TIMER_EXPIRY (R8). -/
def execSilenceTimerExpiry (l : LinkId) (s : State) : Host.Outcome State Fault Refusal :=
  s.event fun s => s.silenceExpiry l

/-- No latched error. -/
def noErrors : LinkErrors := ⟨false, false, false, false⟩

/-- The link's mirror word rewritten, whether or not its value changes (R17, R178). -/
def State.mirrorWritten (s : State) (l : LinkId) : State := s.wordsWritten (8 + l.val) (9 + l.val)

/-- LINK_CONTROL's effect on the receiver (R17); clearing the latched error set rewrites the mirror (R17, R178). -/
def State.linkAction (s : State) (l : LinkId) (a : LinkAction) : State :=
  let r := s.links[l]
  match a with
  | .enable => if r.state = .down then s.changeReceiver l .hunt else s
  | .disable => if r.state = .down then s else (s.putLink l { r with fifo := [] }).changeReceiver l .down
  | .reset =>
    let s := (s.putLink l { r with fifo := [], errors := noErrors, inProgress := [] }).mirrorWritten l
    if r.state = .hunt then s else s.changeReceiver l .hunt
  | .clear => (s.putLink l { r with errors := noErrors }).mirrorWritten l

/-- A warm reset's effect on a receiver: a link in HUNT or SYNC has its FIFO emptied and is in HUNT; one already in HUNT has
its search restarted (R18). -/
def State.warmLink (s : State) (l : LinkId) : State :=
  let r := s.links[l]
  match r.state with
  | .down => s
  | .hunt => s.putLink l { r with fifo := [], inProgress := [] }
  | .sync => (s.putLink l { r with fifo := [] }).changeReceiver l .hunt

end Sys2Proof.Machine
end

