-- ==== Sys2Proof/Machine/Requests.lean ====
section
/-! DEFINITION. The take of a request (spec 08): its conditions, the words it reads, the row it is, and the two courses. -/

namespace Sys2Proof.Machine

/-! ### The request area -/

/-- Word j of a slot's request area as the request unit reads it (R150). -/
def State.requestWord (s : State) (k : SlotId) (j : Nat) : Word := s.wordAsRead (slotWord k + j)

/-- A parameter of `n` bytes at byte offset `off` of the slot, within one word (spec 11.3). -/
def State.param (s : State) (k : SlotId) (off n : Nat) : Nat :=
  (s.requestWord k (off / 4)).toNat / 256 ^ (off % 4) % 256 ^ n

/-- The request kind, none when it is not one of the ten (R150). -/
def State.requestKind (s : State) (k : SlotId) : Option Kind := Kind.ofCode (s.param k 0x04 4)

/-- The serial number as read (R146). -/
def State.serial (s : State) (k : SlotId) : Word := s.requestWord k 2

/-- The option word (spec 11.3). -/
def State.optionWord (s : State) (k : SlotId) : Nat := s.param k 0x0C 4

/-- A bit of the option word is set. -/
def State.optionBit (s : State) (k : SlotId) (i : Nat) : Bool := (s.optionWord k).testBit i

/-- The parameter words a kind uses (spec 11.3); a REBASE uses the values below its count, and none when
the count is 0 or above 12 (assumption 14). -/
def State.parameterWords (s : State) (k : SlotId) : Kind → List Nat
  | .setPoint => [4, 5, 6, 7]
  | .setBank => [4]
  | .setTiming => [4, 5, 6, 7, 8, 9]
  | .close => [4]
  | .readOpen => [4, 5]
  | .readRegisters => [4, 5]
  | .rebase =>
    let c := s.param k 0x14 2
    [4, 5] ++ (if 1 ≤ c ∧ c ≤ 12 then (List.range (2 * c)).map (· + 6) else [])
  | .cancel => [4]
  | .linkControl => [4, 5]
  | .readCapture => []

/-- The words of the slot that the take reads: kind, serial, and for a known kind the option word and its parameters (R150;
assumption 14), in ascending order (assumption 29). Where the kind word, or a REBASE's count word, is itself uncorrectable,
the kind and the count are those it reads as (assumption 31). -/
def State.requestWords (s : State) (k : SlotId) : List Nat :=
  ([1, 2] ++ match s.requestKind k with
    | some kd => 3 :: s.parameterWords k kd
    | none => []).map (slotWord k + ·)

/-- A word read has an uncorrectable error (R150). -/
def State.requestBad (s : State) (k : SlotId) : Bool := (s.requestWords k).any s.badWord

/-! ### The row of the table that a take is -/

/-- The eighteen rows that take a request. -/
inductive Row where
  | badKind | setPoint | setBank | setTiming | start | stop | close | readOpen | readRegisters | readRegistersNet | rebase
  | cancel
  | link (a : LinkAction)
  | readCapture | readCaptureClear
deriving DecidableEq, Repr

/-- The take of the request in slot `k` is this row. A LINK_CONTROL with an undefined action may come under any of its four
rows, which refuse it alike (assumption 14). -/
def State.isRow (s : State) (k : SlotId) (row : Row) : Bool :=
  if s.requestBad k then row == .badKind
  else match s.requestKind k with
    | none => row == .badKind
    | some .setPoint => row == .setPoint
    | some .setBank => row == .setBank
    | some .setTiming =>
      row == (match s.param k 0x24 4 with
        | 1 => .start
        | 2 => .stop
        | _ => .setTiming)
    | some .close => row == .close
    | some .readOpen => row == .readOpen
    | some .readRegisters => row == (if s.optionBit k 0 then .readRegistersNet else .readRegisters)
    | some .rebase => row == .rebase
    | some .cancel => row == .cancel
    | some .linkControl =>
      match LinkAction.ofCode (s.param k 0x14 4), row with
      | some a, .link b => a == b
      | none, .link _ => true
      | _, _ => false
    | some .readCapture => row == (if s.optionBit k 0 then .readCaptureClear else .readCapture)

/-! ### The take -/

/-- The quota and the warm reset allow a take (R148). -/
def State.mayTake (s : State) : Bool := s.requests.quotaCount < s.requests.quotaLimit && !s.control.warm

/-- The slot leaves the queue, the take is counted, and the request area is read through ECC (R149, R150). -/
def State.beginTake (s : State) (k : SlotId) (rest : List SlotId) : State :=
  let s := { s with requests := { s.requests with intake := rest, quotaCount := s.requests.quotaCount + 1 } }
  s.checkWords (s.requestWords k)

/-- The take of the head request when it is of this row and the conditions of R148 hold; nothing otherwise
(assumption 1). -/
def State.take (row : Row) (carry : State → SlotId → State) (s : State) : State :=
  match s.requests.intake with
  | k :: rest => if s.mayTake && s.isRow k row then carry (s.beginTake k rest) k else s
  | [] => s

/-! ### The courses -/

/-- A reply of the IMMEDIATE course with outcome OK and nothing else (R151). -/
def okReply : Reply :=
  { course := .immediate, outcome := .ok, reason := .none, estimate := 0, interval := 0, windows := 0, count := 0, data := [] }

/-- A refusal at the take (R151). -/
def refusal (r : Reason) : Reply :=
  { course := .immediate, outcome := .none, reason := r, estimate := 0, interval := 0, windows := 0, count := 0, data := [] }

/-- A slot refused without a take (R146, R158). -/
def resetReply : Reply :=
  { course := .none, outcome := .none, reason := .reset, estimate := 0, interval := 0, windows := 0, count := 0, data := [] }

/-- The reply of a deferred take (R152). -/
def deferredReply (estimate : Nat) : Reply :=
  { course := .deferred, outcome := .none, reason := .none, estimate := estimate, interval := 0, windows := 0, count := 0
    data := [] }

/-- Ends the slot within its take (R151). -/
def State.finish (s : State) (k : SlotId) (st : SlotState) (r : Reply) : State := (s.writeReply k (s.serial k) r).endSlot k st

/-- Ends the slot DONE. -/
def State.done (s : State) (k : SlotId) (r : Reply) : State := s.finish k .done r

/-- Ends the slot REFUSED with a reason alone. -/
def State.refuse (s : State) (k : SlotId) (r : Reason) : State := s.finish k .refused (refusal r)

/-- The DEFERRED course: the pending entry, the reply, the tag TAKEN (R152, R153). -/
def State.defer (s : State) (k : SlotId) (w : Work) (estimate : Nat) : State :=
  let s := { s with requests := { s.requests with table := s.requests.table ++ [({ slot := k, work := w } : PendingEntry)] } }
  (s.writeReply k (s.serial k) (deferredReply estimate)).setSlot k .taken

/-- The take of a request with an uncorrectable word or of an unknown kind (R150). -/
def State.takeBadKind (s : State) (k : SlotId) : State := s.refuse k (if s.requestBad k then .memory else .badKind)

/-- BAD_KIND (R150). -/
def execBadKind (s : State) : Host.Outcome State Fault Refusal := s.event (State.take .badKind State.takeBadKind)

/-- The quota timer's expiry refreshes the quota (R149). A stopped timer does not expire. -/
def State.quotaExpiry (s : State) : State := if s.requests.quotaTimer.isSome then s.refreshQuota else s

/-- QUOTA_TIMER_EXPIRY (R149). -/
def execQuotaTimerExpiry (s : State) : Host.Outcome State Fault Refusal := s.event State.quotaExpiry

end Sys2Proof.Machine
end

