-- ==== Sys2Proof/Machine/Points.lean ====
section
/-! DEFINITION. SET_POINT: its parameters, its checks, the profile it writes and its echo (R161 to R164, R92, R93). -/

namespace Sys2Proof.Machine

/-- The parameters of a SET_POINT behind its point (spec 11.3). -/
structure PointRequest where
  enable : Bool
  role : Role
  mapping : Option Mapping
  invert : Bool
  scale : Fin 4
  mask : BitVec 49
deriving DecidableEq, Repr

/-- The request's mapping: none for link FFh, a link and a port, or undefined (R162). -/
def mappingOf (link port : Nat) : Option (Option Mapping) :=
  if link = 0xFF then some none
  else if h : link < 6 ∧ port < 8 then some (some (⟨link, h.1⟩, ⟨port, h.2⟩))
  else none

/-- The order mask of two words; bits 63 to 49 are not read (R195). -/
def maskOf (lo hi : Word) : BitVec 49 := BitVec.ofNat 49 (lo.toNat + 2 ^ 32 * hi.toNat)

/-- The parameters, none when BAD_PARAM applies (R160, R162). -/
def State.pointRequest (s : State) (k : SlotId) : Option PointRequest :=
  let enable := s.param k 0x12 1
  let invert := s.param k 0x16 1
  let scale := s.param k 0x17 1
  match Role.ofCode (s.param k 0x13 1), mappingOf (s.param k 0x14 1) (s.param k 0x15 1) with
  | some role, some mapping =>
    if h : enable ≤ 1 ∧ invert ≤ 1 ∧ scale < 4 ∧ s.optionWord k = 0 then
      some { enable := enable == 1, role := role, mapping := mapping, invert := invert == 1, scale := ⟨scale, h.2.2.1⟩
             mask := maskOf (s.requestWord k 6) (s.requestWord k 7) }
    else none
  | _, _ => none

/-- Another point that holds the mapping, current or staged (R162). -/
def State.mappingHolder (s : State) (p : PointId) (m : Option Mapping) : Option PointId :=
  match m with
  | some m => (List.finRange 40).find? fun i =>
      i != p && (s.profiles[i].mapping == some m || s.profiles[i].stagedMapping == some (some m))
  | none => none

/-- ROLE applies (R162). -/
def Profile.refusesRole (x : Profile) (p : PointId) (role : Role) : Bool :=
  (role == .pcc && 5 ≤ p.val) || (role != x.prospectiveRole && (x.active || x.prospectivelyActive))

/-- The register set of a physical point. -/
def setOf (p : PointId) : SetId := ⟨p.val, by omega⟩

/-- The staged value of a field after a SET_POINT: the request's value when it differs from the current one (R163). -/
def stageOver {α : Type} [DecidableEq α] (current request : α) : Option α := if request = current then none else some request

/-- The profile after a SET_POINT (R163). -/
def Profile.write (x : Profile) (r : PointRequest) : Profile :=
  { x with
    invert := r.invert
    mask := r.mask
    stagedEnable := stageOver x.enable r.enable
    stagedRole := stageOver x.role r.role
    stagedMapping := stageOver x.mapping r.mapping }

/-- The register set after a SET_POINT's scale (R93). -/
def RegisterSet.stageScale (r : RegisterSet) (v : Fin 4) : RegisterSet :=
  { r with staged := if v = r.scale then none else some ⟨v, false⟩ }

/-! ### The echo -/

/-- A mapping's link and port bytes; FFh and 0 for none (spec 11.3; assumption 26). -/
def mappingBytes : Option Mapping → List Byte
  | some m => leBytes 1 m.1.val ++ leBytes 1 m.2.val
  | none => [0xFF, 0]

/-- The staged-field marks (spec 11.3). -/
def stagedMarks (x : Profile) (r : RegisterSet) : Nat :=
  bit x.stagedEnable.isSome + 2 * bit x.stagedRole.isSome + 4 * bit x.stagedMapping.isSome + 8 * bit r.staged.isSome +
    16 * bit (match r.staged with
      | some v => v.due
      | none => false)

/-- The profile echo of a SET_POINT reply: 20 bytes (spec 11.3). -/
def Profile.echo (x : Profile) (r : RegisterSet) : List Byte :=
  leBytes 1 (bit x.enable) ++ leBytes 1 x.role.code ++ mappingBytes x.mapping ++ leBytes 1 (bit x.invert) ++
    leBytes 1 r.scale.val ++ leBytes 1 (stagedMarks x r) ++
    leBytes 1 (match x.stagedEnable with
      | some v => bit v
      | none => 0) ++
    leBytes 8 x.mask.toNat ++
    leBytes 1 (match x.stagedRole with
      | some v => v.code
      | none => 0) ++
    (match x.stagedMapping with
      | some m => mappingBytes m
      | none => [0, 0]) ++
    leBytes 1 (match r.staged with
      | some v => v.value.val
      | none => 0)

/-- Ends a SET_POINT of point `p` with the echo of its profile as it stands (R164). The scale and the staged scale are read
through ECC (assumption 20). -/
def State.finishPoint (s : State) (k : SlotId) (p : PointId) (st : SlotState) (r : Reply) : State :=
  let s := s.checkRegs (setOf p) [.scale, .staged]
  s.finish k st { r with interval := s.banks[bankOf p].interval, data := s.profiles[p].echo s.regs[setOf p] }

/-! ### The take -/

/-- The effects of a SET_POINT that passed (R163, R93, R26). -/
def State.writePoint (s : State) (p : PointId) (r : PointRequest) : State :=
  let x := s.profiles[p]
  let s := if x.mask = r.mask ∧ x.invert = r.invert then s else s.markChange p
  let s := s.putProfile p (x.write r)
  (s.putRegs (setOf p) (s.regs[setOf p].stageScale r.scale)).regWritten (setOf p) (· == .staged)

/-- The headroom test's reads, made for a lower scale alone (R92, R162), in the model's order (assumption 29). -/
def State.headroomReads (s : State) (p : PointId) (v : Fin 4) : State :=
  let s := s.checkReg (setOf p) .scale
  if v < s.regs[setOf p].scale then s.checkRegs (setOf p) allQuantityWords else s

/-- SCALE applies (R162). -/
def RegisterSet.refusesScale (r : RegisterSet) (v : Fin 4) : Bool :=
  decide (v < r.scale) && (r.failing (r.scale.val - v.val)).isSome

/-- A SET_POINT of an existing point with defined parameters, judged from CONFLICT on (R162). -/
def State.judgePoint (s : State) (k : SlotId) (p : PointId) (r : PointRequest) : State :=
  match s.mappingHolder p r.mapping with
  | some i => s.finishPoint k p .refused { refusal .conflict with count := i.val }
  | none =>
    if s.profiles[p].refusesRole p r.role then s.finishPoint k p .refused (refusal .role)
    else
      let s := s.headroomReads p r.scale
      if s.regs[setOf p].refusesScale r.scale then s.finishPoint k p .refused (refusal .scale)
      else (s.writePoint p r).finishPoint k p .done okReply

/-- The take of a SET_POINT (R162). -/
def State.takeSetPoint (s : State) (k : SlotId) : State :=
  let n := s.param k 0x10 2
  if h : n < 40 then
    match s.pointRequest k with
    | some r => s.judgePoint k ⟨n, h⟩ r
    | none => s.finishPoint k ⟨n, h⟩ .refused (refusal .badParam)
  else s.refuse k .badPoint

/-- SET_POINT (R163). -/
def execSetPoint (s : State) : Host.Outcome State Fault Refusal := s.event (State.take .setPoint State.takeSetPoint)

end Sys2Proof.Machine
end

