-- ==== Sys2Proof/Machine/Kinds.lean ====
section
/-! DEFINITION. The other request kinds (spec 09): SET_BANK, SET_TIMING, START, STOP, CLOSE, READ_OPEN, READ_REGISTERS,
REBASE, CANCEL, LINK_CONTROL, READ_CAPTURE. -/

namespace Sys2Proof.Machine

/-! ### SET_BANK -/

/-- The attributes in the option-bit positions (spec 11.3). -/
def Bank.attributes (b : Bank) : Nat := bit b.billing + 2 * bit b.notify + 4 * bit b.archive

/-- The take of a SET_BANK (R165). -/
def State.takeSetBank (s : State) (k : SlotId) : State :=
  let n := s.param k 0x10 4
  if h : n < 8 ∧ s.optionWord k < 8 then
    let b : BankId := ⟨n, h.1⟩
    if s.banks[b].billing && !s.optionBit k 0 && s.banks[b].phase != .stopped then s.refuse k .state
    else
      let x := { s.banks[b] with
        billing := s.optionBit k 0, notify := s.optionBit k 1, archive := s.optionBit k 2 }
      (s.putBank b x).done k
        { okReply with interval := x.interval, data := leBytes 4 x.attributes ++ leBytes 4 x.phase.code }
  else s.refuse k .badParam

/-- SET_BANK (R165). -/
def execSetBank (s : State) : Host.Outcome State Fault Refusal := s.event (State.take .setBank State.takeSetBank)

/-! ### SET_TIMING -/

/-- The parameters of a SET_TIMING behind its action (spec 11.3). -/
structure TimingRequest where
  timing : Timing
  timeout : Nat
  quota : Nat
deriving DecidableEq, Repr

/-- The parameters, none when BAD_PARAM applies (R166). -/
def State.timingRequest (s : State) (k : SlotId) : Option TimingRequest :=
  let mode := s.param k 0x10 4
  let l := s.param k 0x14 4
  let d := s.param k 0x18 4
  let timeout := s.param k 0x1C 4
  let quota := s.param k 0x20 4
  if mode ≤ 1 ∧ l ∈ [300, 1500, 3000, 4500, 9000, 18000] ∧ (1 ≤ d ∧ d ≤ l) ∧ (50 ≤ timeout ∧ timeout ≤ 1000) ∧
      (1 ≤ quota ∧ quota ≤ 32) ∧ s.param k 0x24 4 ≤ 2 ∧ s.optionWord k = 0 then
    some { timing := { coupled := mode == 1, length := l, dwell := d }, timeout := timeout, quota := quota }
  else none

/-- Steps 1 to 3 of R167: the timing setting, the alignment timeout, the quota limit. -/
def State.writeTiming (s : State) (r : TimingRequest) : State :=
  { s with
    timing := r.timing
    sorter := { s.sorter with timeout := r.timeout }
    requests := { s.requests with quotaLimit := r.quota } }

/-- A timing as three words: mode, L, D (spec 11.3). -/
def Timing.bytes (t : Timing) : List Byte := leBytes 4 (bit t.coupled) ++ leBytes 4 t.length ++ leBytes 4 t.dwell

/-- The echo of a SET_TIMING reply: the setting, then state and timing in force of each bank (R167, spec 11.3). -/
def State.timingEcho (s : State) : List Byte :=
  s.timing.bytes ++ leBytes 4 s.sorter.timeout ++ leBytes 4 s.requests.quotaLimit ++
    (List.finRange 8).flatMap fun b => leBytes 4 s.banks[b].phase.code ++ s.banks[b].timing.bytes

/-- The end of a SET_TIMING with action NONE or START (R167). -/
def State.doneTiming (s : State) (k : SlotId) (count : Nat) : State :=
  s.done k { okReply with count := count, data := s.timingEcho }

/-- The take of a SET_TIMING with action NONE, or with an undefined one (R166, R167). -/
def State.takeSetTiming (s : State) (k : SlotId) : State :=
  match s.timingRequest k with
  | some r => (s.writeTiming r).doneTiming k 0
  | none => s.refuse k .badParam

/-- SET_TIMING (R167). -/
def execSetTiming (s : State) : Host.Outcome State Fault Refusal := s.event (State.take .setTiming State.takeSetTiming)

/-- The STOPPED banks, ascending (R168). -/
def State.stoppedBanks (s : State) : List BankId := (List.finRange 8).filter fun b => s.banks[b].phase == .stopped

/-- The take of a START (R166, R168). -/
def State.takeStart (s : State) (k : SlotId) : State :=
  match s.timingRequest k with
  | some r =>
    if s.stoppedBanks.isEmpty then s.refuse k .state
    else (s.stoppedBanks.foldl State.openBank (s.writeTiming r)).doneTiming k s.stoppedBanks.length
  | none => s.refuse k .badParam

/-- START (R168). -/
def execStart (s : State) : Host.Outcome State Fault Refusal := s.event (State.take .start State.takeStart)

/-- A bank's progress in a STOP entry at its take: FOLDING when it is STOPPING, else WAITING (R153, R169). -/
def State.stopProgress (s : State) (b : BankId) : Progress :=
  match s.banks[b].phase, s.folds[b] with
  | .stopping _, some f => .folding f.interval
  | _, _ => .waiting

/-- The outstanding set of a STOP: every bank that is not STOPPED, a STOPPING one included (R153, R169, against R77;
assumption 33). -/
def State.stopSet (s : State) : List (BankId × Progress) :=
  ((List.finRange 8).filter fun b => s.banks[b].phase != .stopped).map fun b => (b, s.stopProgress b)

/-- A close asked of each bank in turn, with one waiter (R77, R83; assumption 11). -/
def State.askBanks (s : State) (bs : List BankId) (cause : Causes) (waiter : SlotId × WaitCause) : State :=
  bs.foldl (fun s b => s.askClose b cause [waiter]) s

/-- The take of a STOP (R166, R169). -/
def State.takeStop (s : State) (k : SlotId) : State :=
  match s.timingRequest k with
  | some r =>
    if s.stopSet.isEmpty then s.refuse k .state
    else
      let out := s.stopSet
      ((s.writeTiming r).defer k (.banks .stop out []) 0).askBanks (out.map Prod.fst) Causes.onlyStop (k, .stop)
  | none => s.refuse k .badParam

/-- STOP (R169). -/
def execStop (s : State) : Host.Outcome State Fault Refusal := s.event (State.take .stop State.takeStop)

/-! ### CLOSE -/

/-- The windows a CLOSE of a bank may wait (R152). -/
def Bank.closeEstimate (b : Bank) : Nat := if b.heldCauses.dwellFree then 0 else b.timing.dwell - b.span

/-- The banks that take a close, ascending (R153). -/
def State.closeSet (s : State) : List BankId := (List.finRange 8).filter fun b => s.banks[b].takesClose

/-- A CLOSE of these banks, already judged (R152, R153, R170). -/
def State.closeBanks (s : State) (k : SlotId) (kind : BankWork) (bs : List BankId) : State :=
  (s.defer k (.banks kind (bs.map fun b => (b, .waiting)) [])
    ((bs.map fun b => s.banks[b].closeEstimate).foldl max 0)).askBanks bs Causes.onlyHost (k, .host)

/-- The take of a CLOSE (R170). -/
def State.takeClose (s : State) (k : SlotId) : State :=
  let n := s.param k 0x10 4
  if s.optionWord k ≠ 0 then s.refuse k .badParam
  else if n = 0xFF then
    if s.closeSet.isEmpty then s.refuse k .state else s.closeBanks k .closeAll s.closeSet
  else if h : n < 8 then
    if s.banks[(⟨n, h⟩ : BankId)].takesClose then s.closeBanks k .closeOne [⟨n, h⟩] else s.refuse k .state
  else s.refuse k .badParam

/-- CLOSE (R170). -/
def execClose (s : State) : Host.Outcome State Fault Refusal := s.event (State.take .close State.takeClose)

/-! ### READ_OPEN -/

/-- Windows present of a point entry, or balanced windows of the balance entry (R172). -/
def AccSet.presentOf (x : AccSet) (e : Fin 6) : Word :=
  if h : e.val < 5 then x.entries[e.val].present
  else match x.balance with
    | some y => y.balanced
    | none => 0

/-- The quantities `first` to `first + count − 1`. -/
def quantityRange (first count : Nat) : List QuantityId :=
  (List.finRange 104).filter fun q => first ≤ q.val && q.val < first + count

/-- A READ_OPEN of an existing set (R172, R87): the words returned are read through ECC, in the model's order
(assumption 29). -/
def State.readSet (s : State) (k : SlotId) (p : SetId) (i : Fin 2) (first count : Nat) : State :=
  let b := bankOfSet p
  let e := entryOf p
  let qs := quantityRange first count
  let s := s.checkAccs b i ([.interval, .span, .present e] ++ qs.map (AccItem.acc e))
  let x := s.banks[b].sets[i]
  s.done k { okReply with
    interval := x.interval, windows := x.span, count := (x.presentOf e).toNat
    data := qs.flatMap fun q => leBytes 8 (x.totals e)[q].toNat }

/-- The take of a READ_OPEN (R172). -/
def State.takeReadOpen (s : State) (k : SlotId) : State :=
  let n := s.param k 0x10 2
  let first := s.param k 0x12 2
  let count := s.param k 0x14 2
  if h : n < 41 then
    if 1 ≤ count ∧ count ≤ 40 ∧ first + count ≤ 104 ∧ s.optionWord k ≤ 1 then
      let b := s.banks[bankOfSet ⟨n, h⟩]
      match if s.optionBit k 0 then b.previous else b.phase.accumulating with
      | some i => s.readSet k ⟨n, h⟩ i first count
      | none => s.refuse k .state
    else s.refuse k .badParam
  else s.refuse k .badPoint

/-- READ_OPEN (R172). -/
def execReadOpen (s : State) : Host.Outcome State Fault Refusal := s.event (State.take .readOpen State.takeReadOpen)

/-! ### READ_REGISTERS -/

/-- A read of quantities (R105, R173), in the model's order (assumption 29). -/
def State.readQuantities (s : State) (k : SlotId) (p : SetId) (first count : Nat) : State :=
  let s := s.checkRegs p ([.scale, .lastFolded] ++ (quantityRange first count).flatMap quantityWords)
  let r := s.regs[p]
  s.done k { okReply with interval := r.lastFolded, count := count, data := r.bytes first count }

/-- The words that net items use: registers and states (R106). -/
def netWords (first count : Nat) : List RegItem :=
  (List.range count).flatMap fun j =>
    ((netTerms (first + j)).1 ++ (netTerms (first + j)).2).flatMap fun q => [RegItem.register q, RegItem.state q]

/-- A read of net items (R106, R173), in the model's order (assumption 29). -/
def State.readNet (s : State) (k : SlotId) (p : SetId) (first count : Nat) : State :=
  let s := s.checkRegs p ([.scale, .lastFolded] ++ netWords first count)
  let r := s.regs[p]
  s.done k { okReply with interval := r.lastFolded, count := count, data := r.netBytes first count }

/-- The judgement of a READ_REGISTERS over a numbering of `size` values (R173). -/
def State.judgeRead (s : State) (k : SlotId) (size : Nat) (read : SetId → Nat → Nat → State) : State :=
  let n := s.param k 0x10 2
  let first := s.param k 0x12 2
  let count := s.param k 0x14 2
  if h : n < 41 then
    if 1 ≤ count ∧ count ≤ 20 ∧ first + count ≤ size ∧ s.optionWord k ≤ 1 then read ⟨n, h⟩ first count
    else s.refuse k .badParam
  else s.refuse k .badPoint

/-- The take of a READ_REGISTERS without NET (R173). -/
def State.takeReadRegisters (s : State) (k : SlotId) : State := s.judgeRead k 104 (s.readQuantities k)

/-- READ_REGISTERS (R105). -/
def execReadRegisters (s : State) : Host.Outcome State Fault Refusal :=
  s.event (State.take .readRegisters State.takeReadRegisters)

/-- The take of a READ_REGISTERS with NET (R173). -/
def State.takeReadRegistersNet (s : State) (k : SlotId) : State := s.judgeRead k 51 (s.readNet k)

/-- READ_REGISTERS_NET (R106). -/
def execReadRegistersNet (s : State) : Host.Outcome State Fault Refusal :=
  s.event (State.take .readRegistersNet State.takeReadRegistersNet)

/-! ### REBASE -/

/-- Value i of a REBASE, none when a digit lies outside 0 to 9 (R174, R195). -/
def State.rebaseValue (s : State) (k : SlotId) (i : Nat) : Option Nat :=
  unpackDecimal (wordBytes (s.requestWord k (6 + 2 * i)) ++ wordBytes (s.requestWord k (7 + 2 * i)))

/-- The windows a REBASE may wait (R152). -/
def Bank.rebaseEstimate (b : Bank) : Nat := if b.takesClose then b.timing.length - b.span else b.timing.length

/-- The values of a REBASE, none when BAD_PARAM applies (R174). -/
def State.rebaseValues (s : State) (k : SlotId) : Option (List Nat) :=
  let first := s.param k 0x12 2
  let count := s.param k 0x14 2
  if 1 ≤ count ∧ count ≤ 12 ∧ first + count ≤ 104 ∧ s.optionWord k = 0 then
    (List.range count).mapM (s.rebaseValue k)
  else none

/-- A REBASE that passed: its pending entry and the pending REBASE in the register set (R94, R174). -/
def State.holdRebase (s : State) (k : SlotId) (p : SetId) (values : List Nat) : State :=
  let first := s.param k 0x12 2
  let s := s.defer k (.rebase p) s.banks[bankOfSet p].rebaseEstimate
  (s.putRegs p { s.regs[p] with rebase := some { first := first, values := values, slot := k, due := false } }).regWritten p
    (· == .rebase)

/-- The take of a REBASE (R174). The pending REBASE's words are read for BUSY (assumption 14). -/
def State.takeRebase (s : State) (k : SlotId) : State :=
  let n := s.param k 0x10 2
  if h : n < 41 then
    let p : SetId := ⟨n, h⟩
    match s.rebaseValues k with
    | some values =>
      if s.banks[bankOfSet p].billing then s.refuse k .protectedBank
      else
        let s := s.checkReg p .rebase
        if s.regs[p].rebase.isSome then s.refuse k .busy else s.holdRebase k p values
    | none => s.refuse k .badParam
  else s.refuse k .badPoint

/-- REBASE (R174). -/
def execRebase (s : State) : Host.Outcome State Fault Refusal := s.event (State.take .rebase State.takeRebase)

/-! ### CANCEL -/

/-- The target may be withdrawn: a CLOSE none of whose closes has started, or a REBASE (R79, R176; assumption 13). -/
def Work.cancellable : Work → Bool
  | .banks .stop _ _ => false
  | .banks _ out closed => (out.all fun o => o.2 == .waiting) && closed.isEmpty
  | .rebase _ => true

/-- The slot leaves the blocks that hold it: each bank's held close, or the register set (R79, R177). -/
def State.withdraw (s : State) (t : SlotId) : Work → State
  | .banks _ out _ => out.foldl (fun s o => s.putBank o.1 (s.banks[o.1].withdraw t)) s
  | .rebase p => (s.putRegs p { s.regs[p] with rebase := none }).regWritten p (· == .rebase)

/-- The CANCEL's reply data: target slot, the kind of its pending entry or 0, its tag as found (R176, spec 11.3). -/
def cancelBytes (t : SlotId) (e : Option PendingEntry) (st : SlotState) : List Byte :=
  leBytes 4 t.val ++ leBytes 4 (match e with
    | some e => e.work.kindCode
    | none => 0) ++ wordBytes st.code

/-- The pending entry of a slot. -/
def State.pendingEntry (s : State) (t : SlotId) : Option PendingEntry := s.requests.table.find? fun e => e.slot == t

/-- A CANCEL of target slot `t` (R176, R177). -/
def State.cancelSlot (s : State) (k t : SlotId) : State :=
  let e := s.pendingEntry t
  let data := cancelBytes t e s.requests.slots[t]
  match e.bind fun x => if x.work.cancellable then some x else none with
  | some x => (((s.withdraw t x.work).endDeferred t .done .cancelled .none 0 0 []).done k { okReply with data := data })
  | none => s.done k { okReply with outcome := .notPending, data := data }

/-- The take of a CANCEL (R176). -/
def State.takeCancel (s : State) (k : SlotId) : State :=
  let n := s.param k 0x10 4
  if h : n < 32 ∧ s.optionWord k = 0 then s.cancelSlot k ⟨n, h.1⟩ else s.refuse k .badParam

/-- CANCEL (R176). -/
def execCancel (s : State) : Host.Outcome State Fault Refusal := s.event (State.take .cancel State.takeCancel)

/-! ### LINK_CONTROL -/

/-- The reply data: states before and after, errors before, counters (R178, spec 11.3). -/
def linkBytes (before after : Receiver) : List Byte :=
  leBytes 4 before.state.code ++ leBytes 4 after.state.code ++ leBytes 4 before.errors.code ++ wordBytes before.good ++
    wordBytes before.bad ++ wordBytes before.lost

/-- The take of a LINK_CONTROL with action `a`; BAD_PARAM for an undefined link, action or option (R178). -/
def State.takeLink (a : LinkAction) (s : State) (k : SlotId) : State :=
  let n := s.param k 0x10 4
  if h : n < 6 ∧ LinkAction.ofCode (s.param k 0x14 4) = some a ∧ s.optionWord k = 0 then
    let l : LinkId := ⟨n, h.1⟩
    let before := s.links[l]
    let s := s.linkAction l a
    s.done k { okReply with data := linkBytes before s.links[l] }
  else s.refuse k .badParam

/-- LINK_CONTROL_ENABLE (R17). -/
def execLinkControlEnable (s : State) : Host.Outcome State Fault Refusal :=
  s.event (State.take (.link .enable) (State.takeLink .enable))

/-- LINK_CONTROL_DISABLE (R17). -/
def execLinkControlDisable (s : State) : Host.Outcome State Fault Refusal :=
  s.event (State.take (.link .disable) (State.takeLink .disable))

/-- LINK_CONTROL_RESET (R17). -/
def execLinkControlReset (s : State) : Host.Outcome State Fault Refusal :=
  s.event (State.take (.link .reset) (State.takeLink .reset))

/-- LINK_CONTROL_CLEAR (R17). -/
def execLinkControlClear (s : State) : Host.Outcome State Fault Refusal :=
  s.event (State.take (.link .clear) (State.takeLink .clear))

/-! ### READ_CAPTURE -/

/-- The capture record as 16 bytes (spec 11.3, 11.6). -/
def captureBytes (c : Option Capture) : List Byte := (List.range 4).flatMap fun j => wordBytes (captureWord c j)

/-- The second-fault count of the capture record (R191). -/
def captureCount (c : Option Capture) : Nat :=
  match c with
  | some c => c.second
  | none => 0

/-- The reply of a READ_CAPTURE (R179). -/
def captureReply (c : Option Capture) : Reply := { okReply with count := captureCount c, data := captureBytes c }

/-- The take of a READ_CAPTURE without CLEAR (R179). -/
def State.takeReadCapture (s : State) (k : SlotId) : State :=
  if s.optionWord k ≤ 1 then s.done k (captureReply s.capture) else s.refuse k .badParam

/-- READ_CAPTURE (R179). -/
def execReadCapture (s : State) : Host.Outcome State Fault Refusal := s.event (State.take .readCapture State.takeReadCapture)

/-- The take of a READ_CAPTURE with CLEAR: the record is read, then emptied (R179, R192). -/
def State.takeReadCaptureClear (s : State) (k : SlotId) : State :=
  if s.optionWord k ≤ 1 then (s.putCapture none).done k (captureReply s.capture) else s.refuse k .badParam

/-- READ_CAPTURE_CLEAR (R192). -/
def execReadCaptureClear (s : State) : Host.Outcome State Fault Refusal :=
  s.event (State.take .readCaptureClear State.takeReadCaptureClear)

end Sys2Proof.Machine
end

