-- ==== Sys2Proof/WellFormed.lean ====
section
/-! DEFINITION. Which commands spell the row they name.

The check is about the command as its sender wrote it: the bytes have the outer form of the frame the row names (R2), and a
register write touches the field the row names (R139, R140). The machine does not rely on it: it judges what arrives by the
rules, whatever the command is called. -/

namespace Sys2Proof

/-- The bytes begin with the delimiter 7Eh C3h (R2). -/
def startsWithDelimiter : List Byte → Bool
  | d0 :: d1 :: _ => d0 == 0x7E && d1 == 0xC3
  | _ => false

/-- The length field that follows the delimiter, low byte first (R2). -/
def lengthField : List Byte → Option Nat
  | _ :: _ :: l0 :: l1 :: _ => some (l0.toNat + 256 * l1.toNat)
  | _ => none

/-- The bytes are one delimited frame with an in-range length field and nothing behind it (R2). -/
def oneWholeFrame (bytes : List Byte) : Bool :=
  startsWithDelimiter bytes &&
    match lengthField bytes with
    | some n => 1 ≤ n && n ≤ 1908 && bytes.length == 6 + n
    | none => false

/-- The bytes are a delimiter and an out-of-range length field, which R4 rejects at once. -/
def outOfRangeHead (bytes : List Byte) : Bool :=
  startsWithDelimiter bytes && bytes.length == 4 &&
    match lengthField bytes with
    | some n => n == 0 || 1908 < n
    | none => false

/-- The register word that LA1 and LA0 select (R139): 0 LWID, 1 LWCTL, 2 LWSTAT, 3 LWNOTE. -/
def registerWord (la : BitVec 16) : BitVec 2 := la.setWidth 2

def Instr.wellFormed : Instr → Bool
  | .goodFrame _ bytes => oneWholeFrame bytes
  | .badFrame _ bytes => oneWholeFrame bytes || outOfRangeHead bytes
  | .huntCandidate _ bytes => startsWithDelimiter bytes
  | .run _ be => be.getLsbD 0
  | .noticeEnableMask _ be => be.getLsbD 1
  | .warmReset data be => be.getLsbD 0 && data.getLsbD 1
  | .registerWriteIgnored la _ _ => registerWord la == 0 || registerWord la == 3
  | .silenceTimerExpiry _ | .sorterTake _ | .alignmentTimerExpiry _ | .calculation | .windowAddition _ | .release
  | .tariffEvent | .pointStep _ | .foldCompletion _ | .hostWrite _ _ _ | .returnTake | .hostRead _ _
  | .quotaTimerExpiry | .badKind | .setPoint | .setBank | .setTiming | .start | .stop | .close | .readOpen
  | .readRegisters | .readRegistersNet | .rebase | .cancel | .linkControlEnable | .linkControlDisable
  | .linkControlReset | .linkControlClear | .readCapture | .readCaptureClear | .warmResetCompletion
  | .lwstatWrite _ _ | .coldReset | .ready => true

end Sys2Proof
end

