-- ==== Sys2Proof/Machine/Control.lean ====
section
/-! DEFINITION. The register port and the resets (spec 07, 10): RUN, NOTICE_ENABLE_MASK, WARM_RESET, LWSTAT_WRITE,
REGISTER_WRITE_IGNORED, WARM_RESET_COMPLETION, COLD_RESET, READY. -/

namespace Sys2Proof.Machine

/-! ### LWCTL and LWSTAT -/

/-- A host write of LWCTL: each field whose byte is enabled. Byte 0 holds RUN and WARM, byte 1 the mask. A 1 in WARM starts
a warm reset when none is in progress; a 0 does nothing (R140, R142). -/
def State.writeControl (s : State) (data : Word) (be : BitVec 4) : State :=
  { s with
    control :=
      { s.control with
        run := if be.getLsbD 0 then data.getLsbD 0 else s.control.run
        warm := s.control.warm || (be.getLsbD 0 && data.getLsbD 1) }
    notices :=
      { s.notices with mask := if be.getLsbD 1 then data.extractLsb' 8 6 else s.notices.mask } }

/-- RUN (R140): a write of LWCTL. -/
def execRun (data : Word) (be : BitVec 4) (s : State) : Host.Outcome State Fault Refusal :=
  s.event fun s => s.writeControl data be

/-- NOTICE_ENABLE_MASK (R189): a write of LWCTL. -/
def execNoticeEnableMask (data : Word) (be : BitVec 4) (s : State) : Host.Outcome State Fault Refusal :=
  s.event fun s => s.writeControl data be

/-- WARM_RESET (R142): a write of LWCTL. -/
def execWarmReset (data : Word) (be : BitVec 4) (s : State) : Host.Outcome State Fault Refusal :=
  s.event fun s => s.writeControl data be

/-- LWSTAT_WRITE (R188). -/
def execLwstatWrite (data : Word) (be : BitVec 4) (s : State) : Host.Outcome State Fault Refusal :=
  s.event fun s => s.clearStatus data be

/-- A host write to the register port, LA1 and LA0 selecting: LWID and LWNOTE ignore it (R139). -/
def State.writeRegister (s : State) (la : BitVec 16) (data : Word) (be : BitVec 4) : State :=
  match (registerWord la).toNat with
  | 1 => s.writeControl data be
  | 2 => s.clearStatus data be
  | _ => s

/-- REGISTER_WRITE_IGNORED (R139). -/
def execRegisterWriteIgnored (la : BitVec 16) (data : Word) (be : BitVec 4) (s : State) :
    Host.Outcome State Fault Refusal :=
  s.event fun s => s.writeRegister la data be

/-! ### The completion of a warm reset -/

/-- No window accounting and no fold is in progress (R143). -/
def State.quiet (s : State) : Bool := s.accounting.isNone && (List.finRange 8).all fun b => s.folds[b].isNone

/-- Every link's warm-reset effect (R18). -/
def State.warmLinks (s : State) : State := (List.finRange 6).foldl State.warmLink s

/-- Every bank's warm-reset effect (R89). -/
def State.warmBanks (s : State) : State := (List.finRange 8).foldl (fun s b => s.putBank b s.banks[b].warm) s

/-- The register store's warm-reset effect: pending REBASEs go (R112). -/
def State.warmRegisters (s : State) : State :=
  { s with
    regs := tabulate 41 fun p => { s.regs[p] with rebase := none }
    ecc := { s.ecc with registers := s.ecc.registers.filter fun m => m.1.item != .rebase } }

/-- Refuses a POSTED slot with RESET: the serial number is read and echoed (R158). -/
def State.refusePosted (s : State) (k : SlotId) : State :=
  (s.checkWord (slotWord k + 2)).finish k .refused resetReply

/-- Refuses a TAKEN slot with RESET over its deferred reply, with its closed intervals (R155, R156, R158). -/
def State.refuseTaken (s : State) (e : PendingEntry) : State :=
  s.endDeferred e.slot .refused .none .reset 0 e.work.closed.length (closedBytes e.work.closed)

/-- The request unit's warm-reset effect (R158): POSTED slots are refused in the order of the intake queue, then TAKEN slots
in the order of the pending table (assumption 29). -/
def State.warmRequests (s : State) : State :=
  let s := s.requests.intake.foldl State.refusePosted s
  let s := s.requests.table.foldl State.refuseTaken s
  { s with requests := { s.requests with intake := [], table := [] } }.refreshQuota

/-- The effects of every block, as R143 gathers them, in the order of its table (assumption 36). -/
def State.warmEffects (s : State) : State := s.warmLinks.warmSorter.warmWatches.warmBanks.warmRegisters.warmRequests

/-- WARM and WARM_BUSY become 0 (R143). -/
def State.endWarm (s : State) : State := { s with control := { s.control with warm := false } }

/-- The completion (R143): the blocks' effects, the causes cleared, WARM 0, then the held-close tests (assumption 11). -/
def State.completeWarm (s : State) : State :=
  (List.finRange 8).foldl State.heldTest s.warmEffects.clearCausesButCapture.endWarm

/-- A warm reset in progress completes once no accounting and no fold is in progress (R143). -/
def State.warmCompletion (s : State) : State := if s.control.warm && s.quiet then s.completeWarm else s

/-- WARM_RESET_COMPLETION (R143). -/
def execWarmResetCompletion (s : State) : Host.Outcome State Fault Refusal := s.event State.warmCompletion

/-! ### Cold reset -/

/-- Every block in its cold-reset state, READY 0; the commands that wait are the model's and stay (R141; assumption 24). -/
def State.coldReset (s : State) : State := { State.reset with pending := s.pending }

/-- COLD_RESET (R141). -/
def execColdReset (s : State) : Host.Outcome State Fault Refusal := .next s.coldReset

/-- The part has initialised itself: every store is as R141 writes it, READY is 1, the quota timer starts (R141, R159). -/
def State.becomeReady (s : State) : State :=
  { State.reset with
    control := { State.reset.control with ready := true }
    requests := { State.reset.requests with quotaTimer := some Config.quotaMs }
    ld := s.ld
    pending := s.pending }

/-- READY (R141): the part has initialised itself. A part that is ready already stays as it is. -/
def execReady (s : State) : Host.Outcome State Fault Refusal := .next (if s.control.ready then s else s.becomeReady)

end Sys2Proof.Machine
end

