-- ==== Sys2Proof/Machine/Watch.lean ====
section
/-! DEFINITION. The host port (spec 07): the write watch's judgement of HOST_WRITE, and HOST_READ. -/

namespace Sys2Proof.Machine

/-- The guarded words (R131, R135). -/
inductive Guarded where
  | slot (k : SlotId)
  | page (p : PageId)
  | record (i : Fin 64)
deriving DecidableEq, Repr

/-- The areas of the ownership map (R131). -/
inductive Area where
  | header
  | slot (k : SlotId)
  | exceptions
  | page (p : PageId)
deriving DecidableEq, Repr

/-- The guarded word at a word address, none for an ordinary word (R128, R135). -/
def guardedAt (la : BitVec 16) : Option Guarded :=
  let w := la.toNat
  if h : 64 ≤ w ∧ w < 122 then some (.page ⟨w - 64, by omega⟩)
  else if h : 1024 ≤ w ∧ w < 5120 ∧ (w - 1024) % 128 = 0 then some (.slot ⟨(w - 1024) / 128, by omega⟩)
  else if h : 5120 ≤ w ∧ w < 6144 ∧ (w - 5120) % 16 = 0 then some (.record ⟨(w - 5120) / 16, by omega⟩)
  else none

/-- The area in which a word address lies (R128). -/
def areaAt (la : BitVec 16) : Area :=
  if la.toNat < 1024 then .header
  else if h : la.toNat < 5120 then .slot ⟨(la.toNat - 1024) / 128, by omega⟩
  else if la.toNat < 6144 then .exceptions
  else .page ⟨(la.toNat - 6144) / 1024, by omega⟩

/-- The subject that names an area in an OWNER_VIOLATION: slot number, page 0, page 5 or record page number (R134). -/
def Area.subject : Area → Nat
  | .header => 0
  | .slot k => k.val
  | .exceptions => 5
  | .page p => p.val + 6

/-- The area's ordinary words are host-owned (R131). -/
def State.hostOwns (s : State) : Area → Bool
  | .header => false
  | .slot k => s.requests.slots[k] != .posted && s.requests.slots[k] != .taken
  | .exceptions => false
  | .page p => s.writer.pages[p] == .filled

/-- The value that the owning block holds for a guarded word (R135, R194). -/
def State.heldCode (s : State) : Guarded → Word
  | .slot k => s.requests.slots[k].code
  | .page p => s.writer.pages[p].code
  | .record i => s.exceptions.records[i].tag.code

/-- The subject that names a guarded word in a TAG_VIOLATION (R137). -/
def Guarded.subject : Guarded → Nat
  | .slot k => k.val
  | .page p => p.val + 6
  | .record _ => 5

/-- The first word of the item a guarded word guards: the slot, the record page, the exception record (R137). -/
def Guarded.item : Guarded → Nat
  | .slot k => slotWord k
  | .page p => pageWord p
  | .record i => 5120 + 16 * i.val

/-! ### Ordinary words -/

/-- A word merged byte by byte: enabled bytes from the write, the others from `old` (R133). -/
def mergeBytes (old data : Word) (be : BitVec 4) : List Byte :=
  (List.finRange 4).map fun j =>
    if be.getLsbD j.val then data.extractLsb' (8 * j.val) 8 else old.extractLsb' (8 * j.val) 8

/-- Stores a host write to a host-owned word. A partial write reads the word through ECC first; an uncorrectable word gives
zeros for the bytes not enabled (R133, R138). -/
def State.storeWord (s : State) (w : Nat) (data : Word) (be : BitVec 4) : State :=
  if be = 15 then { s with mem := s.mem.writeBytes (4 * w) (wordBytes data) }.wordsWritten w (w + 1)
  else
    let old := if s.badWord w then 0 else s.word w
    let s := s.checkWord w
    { s with mem := s.mem.writeBytes (4 * w) (mergeBytes old data be) }.wordsWritten w (w + 1)

/-- The first detail word of a violation: byte address and byte enables (spec 11.5). -/
def violationDetail (la : BitVec 16) (be : BitVec 4) : Word := BitVec.ofNat 32 (4 * la.toNat + 16777216 * be.toNat)

/-- An owner violation (R134): counted, OWNER set, and one exception with a copy of the aligned block when OWNER was
clear. -/
def State.ownerViolation (s : State) (la : BitVec 16) (data : Word) (be : BitVec 4) : State :=
  let first := !s.notices.owner
  let s := s.putWatchCounters { s.watchCounters with owner := s.watchCounters.owner + 1 }
  let s := { s with notices := { s.notices with owner := true } }
  if first then
    let c := s.copyBlock (8 * (la.toNat / 8))
    c.2.push .ownerViolation (BitVec.ofNat 32 (areaAt la).subject) (violationDetail la be) data 0 c.1
  else s

/-! ### Guarded words -/

/-- A tag violation (R137): counted, and pushed with a copy of the guarded item's first 32 bytes. -/
def State.tagViolation (s : State) (g : Guarded) (la : BitVec 16) (data : Word) (be : BitVec 4) : State :=
  let held := s.heldCode g
  let s := s.putWatchCounters { s.watchCounters with tag := s.watchCounters.tag + 1 }
  let c := s.copyBlock g.item
  c.2.push .tagViolation (BitVec.ofNat 32 g.subject) (violationDetail la be) data held c.1

/-- A post: the slot POSTED, appended to the intake queue (R147). -/
def State.postSlot (s : State) (k : SlotId) : State :=
  s.putRequests { s.requests with slots := s.requests.slots.set k .posted, intake := s.requests.intake ++ [k] }

/-- A page given back: RETURNED, its return passed to the record writer (R120, R136). -/
def State.returnPage (s : State) (p : PageId) : State :=
  s.putWriter { s.writer with pages := s.writer.pages.set p .returned, returns := s.writer.returns ++ [p] }

/-- An acknowledgement: the record ACKED, and the pops that follow (R183). -/
def ExceptionUnit.acknowledge (e : ExceptionUnit) (i : Fin 64) : ExceptionUnit :=
  ExceptionUnit.pop 64 { e with records := e.records.set i { e.records[i] with tag := .acked } }

/-- The state after a legal change of a guarded word to `v`; none when the change is not legal (R135, R136). -/
def State.legalChange (s : State) (g : Guarded) (v : Word) : Option State :=
  match g with
  | .slot k =>
    if s.requests.slots[k] = .free ∧ v = SlotState.posted.code then some (s.postSlot k)
    else if (s.requests.slots[k] = .done ∨ s.requests.slots[k] = .refused) ∧ v = SlotState.free.code then
      some (s.setSlot k .free)
    else none
  | .page p =>
    if s.writer.pages[p] = .filled ∧ v = PageState.returned.code then some (s.returnPage p) else none
  | .record i =>
    if s.exceptions.records[i].tag = .new ∧ v = RecordTag.acked.code then
      some (s.putExceptions (s.exceptions.acknowledge i))
    else none

/-- The judgement of a write to a guarded word (R135): a partial write is a violation, an equal value is filtered, a legal
change is carried out, anything else is a violation. -/
def State.guardedWrite (s : State) (g : Guarded) (la : BitVec 16) (data : Word) (be : BitVec 4) : State :=
  if be ≠ 15 then s.tagViolation g la data be
  else if data = s.heldCode g then s
  else match s.legalChange g data with
    | some t => t
    | none => s.tagViolation g la data be

/-- The judgement of a host write by the first line of R132 that applies. -/
def State.hostWrite (s : State) (la : BitVec 16) (data : Word) (be : BitVec 4) : State :=
  if be = 0 then s
  else match guardedAt la with
    | some g => s.guardedWrite g la data be
    | none => if s.hostOwns (areaAt la) then s.storeWord la.toNat data be else s.ownerViolation la data be

/-- HOST_WRITE (R132). Before READY it is dropped. -/
def execHostWrite (la : BitVec 16) (data : Word) (be : BitVec 4) (s : State) : Host.Outcome State Fault Refusal :=
  s.event fun s => s.hostWrite la data be

/-! ### Host reads -/

/-- A host read: a register with RSEL high (R139); a word of exchange memory through its ECC check (R130, R138), 0 before
READY (R141). The word read stands on LD (assumption 25). -/
def State.hostRead (s : State) (rsel : Bool) (la : BitVec 16) : State :=
  if rsel then { s with ld := s.readRegister la }
  else if s.control.ready then { s.checkWord la.toNat with ld := s.wordAsRead la.toNat }
  else { s with ld := 0 }

/-- HOST_READ (R130). -/
def execHostRead (rsel : Bool) (la : BitVec 16) (s : State) : Host.Outcome State Fault Refusal :=
  .next (s.hostRead rsel la)

end Sys2Proof.Machine
end

