-- ==== Sys2Proof/Machine/Dispatch.lean ====
section
/-! DEFINITION. The dispatch: one arm per command, each a direct call of its meaning. -/

namespace Sys2Proof.Machine

/-- A command's effect on everything but the queue. -/
def exec (i : Instr) (s : State) : Host.Outcome State Fault Refusal :=
  match i with
  | .goodFrame l bytes => Sys2Proof.Machine.execGoodFrame l bytes s
  | .badFrame l bytes => Sys2Proof.Machine.execBadFrame l bytes s
  | .huntCandidate l bytes => Sys2Proof.Machine.execHuntCandidate l bytes s
  | .silenceTimerExpiry l => Sys2Proof.Machine.execSilenceTimerExpiry l s
  | .sorterTake l => Sys2Proof.Machine.execSorterTake l s
  | .alignmentTimerExpiry q => Sys2Proof.Machine.execAlignmentTimerExpiry q s
  | .calculation => Sys2Proof.Machine.execCalculation s
  | .windowAddition b => Sys2Proof.Machine.execWindowAddition b s
  | .release => Sys2Proof.Machine.execRelease s
  | .tariffEvent => Sys2Proof.Machine.execTariffEvent s
  | .pointStep b => Sys2Proof.Machine.execPointStep b s
  | .foldCompletion b => Sys2Proof.Machine.execFoldCompletion b s
  | .hostWrite la data be => Sys2Proof.Machine.execHostWrite la data be s
  | .returnTake => Sys2Proof.Machine.execReturnTake s
  | .hostRead rsel la => Sys2Proof.Machine.execHostRead rsel la s
  | .quotaTimerExpiry => Sys2Proof.Machine.execQuotaTimerExpiry s
  | .badKind => Sys2Proof.Machine.execBadKind s
  | .setPoint => Sys2Proof.Machine.execSetPoint s
  | .setBank => Sys2Proof.Machine.execSetBank s
  | .setTiming => Sys2Proof.Machine.execSetTiming s
  | .start => Sys2Proof.Machine.execStart s
  | .stop => Sys2Proof.Machine.execStop s
  | .close => Sys2Proof.Machine.execClose s
  | .readOpen => Sys2Proof.Machine.execReadOpen s
  | .readRegisters => Sys2Proof.Machine.execReadRegisters s
  | .readRegistersNet => Sys2Proof.Machine.execReadRegistersNet s
  | .rebase => Sys2Proof.Machine.execRebase s
  | .cancel => Sys2Proof.Machine.execCancel s
  | .linkControlEnable => Sys2Proof.Machine.execLinkControlEnable s
  | .linkControlDisable => Sys2Proof.Machine.execLinkControlDisable s
  | .linkControlReset => Sys2Proof.Machine.execLinkControlReset s
  | .linkControlClear => Sys2Proof.Machine.execLinkControlClear s
  | .readCapture => Sys2Proof.Machine.execReadCapture s
  | .readCaptureClear => Sys2Proof.Machine.execReadCaptureClear s
  | .run data be => Sys2Proof.Machine.execRun data be s
  | .noticeEnableMask data be => Sys2Proof.Machine.execNoticeEnableMask data be s
  | .warmReset data be => Sys2Proof.Machine.execWarmReset data be s
  | .warmResetCompletion => Sys2Proof.Machine.execWarmResetCompletion s
  | .lwstatWrite data be => Sys2Proof.Machine.execLwstatWrite data be s
  | .registerWriteIgnored la data be => Sys2Proof.Machine.execRegisterWriteIgnored la data be s
  | .coldReset => Sys2Proof.Machine.execColdReset s
  | .ready => Sys2Proof.Machine.execReady s

end Sys2Proof.Machine
end

