-- ==== Sys2Proof/Safety.lean ====
section
/-! DEFINITION. What every step keeps, and the words in which statements speak of a take and of a memory without errors.

Each predicate is an invariant of the part by itself: it holds at reset and no command breaks it. -/

namespace Sys2Proof.Machine

/-! ### Invariants -/

/-- Exchange memory is in canonical form and lies inside the 262,144 bytes of R128. -/
def State.MemoryOk (s : State) : Prop := s.mem.wf ∧ ∀ c ∈ s.mem, c.1 < 262144

/-- A receiver within its limits: at most 4 frames (R12), fewer than 3 bad frames in a row (R7), the silence timer running
exactly in SYNC (R8, R9), nothing in progress in DOWN (R1). -/
def Receiver.Ok (r : Receiver) : Prop :=
  r.fifo.length ≤ 4 ∧ r.consecutiveBad ≤ 2 ∧ (r.silenceTimer.isSome = true ↔ r.state = .sync) ∧
    (r.state = .down → r.inProgress = [])

/-- Every receiver is within its limits. -/
def State.LinksOk (s : State) : Prop := ∀ l : LinkId, s.links[l].Ok

/-- The alignment queue: at most 4 entries in sequence order (R20), the head alone handed and exactly while accounting is
BUSY (R31), timers running in OPEN entries alone (R27, R28), entries newer than the last handed sequence while none is
handed (R22), the resync mark only with an entry handed (R35, R36), fewer than 64 LATE drops in a row (R34), a frame held
only over a full queue (R29). -/
def State.QueueOk (s : State) : Prop :=
  s.sorter.queue.length ≤ 4 ∧
  s.sorter.queue.Pairwise (fun e f => newer f.seq e.seq = true) ∧
  (∀ e ∈ s.sorter.queue.tail, e.handed = false) ∧
  s.sorter.queue.any Entry.handed = s.accounting.isSome ∧
  (∀ e ∈ s.sorter.queue, (e.timer.isSome = true ↔ e.completion = none) ∧ (e.handed = true → e.completion ≠ none)) ∧
  (s.accounting = none → ∀ e ∈ s.sorter.queue, ∀ r, s.sorter.lastHanded = some r → newer e.seq r = true) ∧
  (s.sorter.resyncMark = true → s.accounting ≠ none ∧ s.sorter.lastHanded = none) ∧
  s.sorter.consecutiveLate ≤ 63 ∧
  (s.sorter.heldFrame ≠ none → s.sorter.queue.length = 4)

/-- A bank's state agrees with its fold (R63): no fold in STOPPED and OPEN, the FOLDING set's in TURNING and STOPPING. -/
def foldAgrees (p : Phase) (f : Option Fold) : Prop :=
  match p, f with
  | .stopped, none => True
  | .opened _, none => True
  | .turning a, some f => f.set = otherSet a
  | .stopping i, some f => f.set = i
  | _, _ => False

/-- A bank and its fold: the states agree (R63), a held close only in OPEN and TURNING and with a cause (R77), the previous
set not the ACCUMULATING one (R62), the FOLDING set the previous one (R81), balance entries in bank 0 alone (R61). -/
def State.BankOk (s : State) (b : BankId) : Prop :=
  foldAgrees s.banks[b].phase s.folds[b] ∧
  (∀ h, s.banks[b].held = some h → s.banks[b].takesClose = true ∧ h.causes.isEmpty = false) ∧
  (∀ a p, s.banks[b].phase.accumulating = some a → s.banks[b].previous = some p → p ≠ a) ∧
  (∀ f, s.folds[b] = some f → s.banks[b].previous = some f.set ∧ f.position ≤ 6) ∧
  (∀ i : Fin 2, s.banks[b].sets[i].balance.isSome = (b == 0))

/-- Every bank and its fold agree. -/
def State.BanksOk (s : State) : Prop := ∀ b : BankId, s.BankOk b

/-- The request unit: the intake queue holds exactly the POSTED slots, each once (R147); the pending table holds exactly the
TAKEN slots, each once, with a part outstanding (R153); a REBASE entry and its pending REBASE go together (R94); the quota
within 1 to 32 (R149). -/
def State.RequestsOk (s : State) : Prop :=
  s.requests.intake.Nodup ∧
  (∀ k : SlotId, k ∈ s.requests.intake ↔ s.requests.slots[k] = .posted) ∧
  (s.requests.table.map PendingEntry.slot).Nodup ∧
  (∀ k : SlotId, k ∈ s.requests.table.map PendingEntry.slot ↔ s.requests.slots[k] = .taken) ∧
  (∀ e ∈ s.requests.table, e.work.finished = false) ∧
  (∀ (p : SetId) (x : PendingRebase), s.regs[p].rebase = some x → ⟨x.slot, .rebase p⟩ ∈ s.requests.table) ∧
  (∀ e ∈ s.requests.table, ∀ p : SetId, e.work = .rebase p → ∃ x, s.regs[p].rebase = some x ∧ x.slot = e.slot) ∧
  1 ≤ s.requests.quotaLimit ∧ s.requests.quotaLimit ≤ 32 ∧ s.requests.quotaCount ≤ 32

/-- The record pages: the free queue holds exactly the FREE pages, each once; the returns not yet taken are exactly the
RETURNED pages; at most one page is FILLING (R113, R114). The FILLING page holds a record at least and room for one at
least (R115, R117). -/
def State.PagesOk (s : State) : Prop :=
  s.writer.freeQueue.Nodup ∧
  (∀ p : PageId, p ∈ s.writer.freeQueue ↔ s.writer.pages[p] = .free) ∧
  s.writer.returns.Nodup ∧
  (∀ p : PageId, p ∈ s.writer.returns ↔ s.writer.pages[p] = .returned) ∧
  (∀ p : PageId, s.writer.pages[p] = .filling ↔ s.writer.filling.map Filling.page = some p) ∧
  (∀ f, s.writer.filling = some f → 1 ≤ f.count ∧ 112 * f.count ≤ f.used ∧ f.used ≤ 3920)

/-- A register set within R90: 16-digit registers, residues below 10^(3 + scale), a staged scale that differs from the
scale, a pending REBASE of 1 to 12 values of 16 digits within the quantities. -/
def RegisterSet.Ok (r : RegisterSet) : Prop :=
  (∀ q : QuantityId, r.quantities[q].register < registerLimit ∧ r.quantities[q].residue < residueLimit r.scale) ∧
  (∀ x, r.staged = some x → x.value ≠ r.scale) ∧
  (∀ x, r.rebase = some x → 1 ≤ x.values.length ∧ x.values.length ≤ 12 ∧ x.first + x.values.length ≤ 104 ∧
    ∀ v ∈ x.values, v < registerLimit)

/-- Every register set is within R90, and BP's scale stays as cold reset leaves it. -/
def State.RegistersOk (s : State) : Prop :=
  (∀ p : SetId, s.regs[p].Ok) ∧ s.regs[(40 : SetId)].scale = 0 ∧ s.regs[(40 : SetId)].staged = none

/-- The exception stack (R180): records in the stack are NEW or ACKED, those outside EMPTY or ACKED, the top is NEW. -/
def State.StackOk (s : State) : Prop :=
  s.exceptions.top ≤ 64 ∧
  (∀ i : Fin 64, s.exceptions.top ≤ i.val →
    s.exceptions.records[i].tag = .new ∨ s.exceptions.records[i].tag = .acked) ∧
  (∀ i : Fin 64, i.val < s.exceptions.top →
    s.exceptions.records[i].tag = .empty ∨ s.exceptions.records[i].tag = .acked) ∧
  (∀ i : Fin 64, i.val = s.exceptions.top → s.exceptions.records[i].tag = .new)

/-- A set's counts: present plus absent equals the span for every entry in use that is not DAMAGED (R66), balanced plus
unbalanced for a balance entry that is not DAMAGED (R68). -/
def AccSet.CountsOk (x : AccSet) : Prop :=
  (∀ e : Fin 5, x.entries[e].inUse = true → x.entries[e].damaged = false →
    x.entries[e].present.toNat + x.entries[e].absent.toNat = x.span.toNat) ∧
  (∀ y, x.balance = some y → y.damaged = false → y.balanced.toNat + y.unbalanced.toNat = x.span.toNat)

/-- Both sets of every bank have counts that agree with their span. -/
def State.CountsOk (s : State) : Prop := ∀ (b : BankId) (i : Fin 2), s.banks[b].sets[i].CountsOk

/-- All invariants together. -/
def State.Ok (s : State) : Prop :=
  s.MemoryOk ∧ s.LinksOk ∧ s.QueueOk ∧ s.BanksOk ∧ s.RequestsOk ∧ s.PagesOk ∧ s.RegistersOk ∧ s.StackOk ∧ s.CountsOk

/-! ### The words of the statements -/

/-- The head of the intake queue is slot `k`, the conditions of R148 hold, and its take is this row. -/
def State.Head (s : State) (k : SlotId) (rest : List SlotId) (row : Row) : Prop :=
  s.control.ready = true ∧ s.requests.intake = k :: rest ∧ s.mayTake = true ∧ s.isRow k row = true

/-- From `s` to `t` the head slot `k` was taken: it left the queue, the take was counted, its tag became `st`, and its reply
area reads as reply `r` with the serial number echoed (R146, R149, R150). -/
def State.Taken (s t : State) (k : SlotId) (rest : List SlotId) (st : SlotState) (r : Reply) : Prop :=
  t.requests.intake = rest ∧ t.requests.quotaCount = s.requests.quotaCount + 1 ∧ t.requests.slots[k] = st ∧
    t.mem.bytes (slotByte k + 0x80) 384 = r.bytes (s.serial k)

/-- A take that ended its slot: DONE is latched as well (R151). -/
def State.Ended (s t : State) (k : SlotId) (rest : List SlotId) (st : SlotState) (r : Reply) : Prop :=
  s.Taken t k rest st r ∧ t.latched .done = true

/-- No word of the accounting table or of the register store is in error. -/
def State.TablesClean (s : State) : Prop := s.ecc.accounting = [] ∧ s.ecc.registers = []

/-- Entry `e` is one that frame `x` of point `p` opens in `s` (R21, R24): it expects exactly the active points, with copies of
their masks and INVERT, no change mark and the frame in its point's buffer; its timer runs while it is OPEN, and it is
ALL_ARRIVED exactly when it expects `p` alone. -/
def State.Opens (s : State) (e : Entry) (p : PointId) (x : TaggedFrame) : Prop :=
  e.seq = x.frame.seq ∧
  (∀ i, i ∈ e.expected.map Expected.point ↔ s.profiles[i].active = true) ∧
  (∀ y ∈ e.expected, y.mask = s.profiles[y.point].mask ∧ y.invert = s.profiles[y.point].invert ∧
    y.changeMark = false ∧ y.frame = if y.point = p then some x else none) ∧
  (e.completion = none → e.timer = some s.sorter.timeout) ∧
  (e.completion = some .allArrived ↔ ∀ i, s.profiles[i].active = true → i = p)

/-- The last handed sequence after the release of entry `e` (R33, R36). -/
def State.releasedLast (s : State) (e : Entry) : Option Seq16 :=
  if s.sorter.resyncMark = true then s.sorter.lastHanded else some e.seq

/-- The sum of a term over the expected points of one role, each with its own frame's duration (R55, R56). -/
def State.roleTerms (s : State) (e : Entry) (r : Role) (term : Expected → WindowFrame → Int) : Int :=
  ((e.expected.filter fun x => s.profiles[x.point].role == r).map fun x =>
    match x.frame with
    | some f => term x f.frame * f.frame.duration.toNat
    | none => 0).sum

/-- A residual term: the PCC points' terms less the FEEDER points' less the SOURCE points' (R55, R56). -/
def State.residualTerm (s : State) (e : Entry) (term : Expected → WindowFrame → Int) : Int :=
  s.roleTerms e .pcc term - s.roleTerms e .feeder term - s.roleTerms e .source term

/-- Point entry `x` becomes `y` by one window with m missing windows before it and point result `r` (R66, R67, R71). `later`:
the set had a window before; `spanPasses`: the addition carries the span past its limit (assumption 18). -/
def PointEntry.Received (x y : PointEntry) (m : Nat) (later spanPasses : Bool) (r : Option PointResult) : Prop :=
  y.inUse = x.inUse ∧
  (x.inUse = false → y = { x with damaged := x.damaged || spanPasses }) ∧
  (x.inUse = true →
    (match r.map PointResult.status with
      | some (.valid es clip) =>
        y.present.toNat = min (x.present.toNat + 1) 4294967295 ∧ y.absent.toNat = min (x.absent.toNat + m) 4294967295 ∧
        y.clipped.toNat = min (x.clipped.toNat + bit clip) 4294967295 ∧
        (∀ q : QuantityId, y.acc[q].toNat = min (x.acc[q].toNat + es[q]) 18446744073709551615) ∧
        (y.damaged = true ↔ x.damaged = true ∨ spanPasses = true ∨ 4294967295 < x.present.toNat + 1 ∨
          4294967295 < x.absent.toNat + m ∨ 4294967295 < x.clipped.toNat + bit clip ∨
          ∃ q : QuantityId, 18446744073709551615 < x.acc[q].toNat + es[q])
      | _ =>
        y.present = x.present ∧ y.absent.toNat = min (x.absent.toNat + (1 + m)) 4294967295 ∧ y.clipped = x.clipped ∧
        y.acc = x.acc ∧
        (y.damaged = true ↔ x.damaged = true ∨ spanPasses = true ∨ 4294967295 < x.absent.toNat + (1 + m))) ∧
    match r with
    | some r => y.mask = r.mask ∧ y.invert = r.invert ∧
        (y.maskChanged = true ↔ x.maskChanged = true ∨ r.changeMark = true ∨
          later = true ∧ (x.mask ≠ r.mask ∨ x.invert ≠ r.invert))
    | none => y.mask = x.mask ∧ y.invert = x.invert ∧ y.maskChanged = x.maskChanged)

/-- Balance entry `x` becomes `y` by one window with m missing windows before it and balance result `r` (R68, R71). -/
def BalanceEntry.Received (x y : BalanceEntry) (m : Nat) (spanPasses : Bool) (r : Option (Vector Nat 104)) : Prop :=
  match r with
  | some es =>
    y.balanced.toNat = min (x.balanced.toNat + 1) 4294967295 ∧
    y.unbalanced.toNat = min (x.unbalanced.toNat + m) 4294967295 ∧
    (∀ q : QuantityId, y.acc[q].toNat = min (x.acc[q].toNat + es[q]) 18446744073709551615) ∧
    (y.damaged = true ↔ x.damaged = true ∨ spanPasses = true ∨ 4294967295 < x.balanced.toNat + 1 ∨
      4294967295 < x.unbalanced.toNat + m ∨ ∃ q : QuantityId, 18446744073709551615 < x.acc[q].toNat + es[q])
  | none =>
    y.balanced = x.balanced ∧ y.unbalanced.toNat = min (x.unbalanced.toNat + (1 + m)) 4294967295 ∧ y.acc = x.acc ∧
    (y.damaged = true ↔ x.damaged = true ∨ spanPasses = true ∨ 4294967295 < x.unbalanced.toNat + (1 + m))

/-- A set zeroed in every field (R61) from what it was, numbered `n`, with these in-use marks, masks and INVERT; where it has a
balance entry (bank 0), that is zero too. -/
def AccSet.ZeroedAs (x old : AccSet) (n : Word) (marks : Fin 5 → Bool × BitVec 49 × Bool) : Prop :=
  x.interval = n ∧ x.start = none ∧ x.last = none ∧ x.span = 0 ∧ x.causes = ⟨false, false, false, false, false⟩ ∧
  x.balance = old.balance.map (fun _ => ⟨Vector.replicate 104 0, 0, 0, false⟩) ∧
  ∀ e : Fin 5, x.entries[e] =
    { inUse := (marks e).1, acc := Vector.replicate 104 0, present := 0, absent := 0, clipped := 0, damaged := false
      maskChanged := false, mask := (marks e).2.1, invert := (marks e).2.2 }

/-- The in-use marks, masks and INVERT that a set of bank `b` opens with: those of the points' profiles once their staged
fields are applied (R80, R84). -/
def State.openMarks (s : State) (b : BankId) (e : Fin 5) : Bool × BitVec 49 × Bool :=
  (s.profiles[pointAt b e].applyStaged.active, s.profiles[pointAt b e].mask, s.profiles[pointAt b e].invert)

/-- From `x` to `y` one word of entry `e` was lost: the word changed as `f` says (`g` for the balance entry), DAMAGED was set
on that entry, and nothing else changed (R72). -/
def AccSet.EntryLost (x y : AccSet) (e : Fin 6) (f : PointEntry → PointEntry) (g : BalanceEntry → BalanceEntry) : Prop :=
  y = { x with entries := y.entries, balance := y.balance } ∧
  (∀ i : Fin 5, y.entries[i] = if i.val = e.val then { f x.entries[i] with damaged := true } else x.entries[i]) ∧
  y.balance = if e.val = 5 then x.balance.map fun z => { g z with damaged := true } else x.balance

/-- From `x` to `y` one word of the set as a whole was lost: it changed as `f` says, and DAMAGED was set on every entry
(R72). -/
def AccSet.SetLost (x y : AccSet) (f : AccSet → AccSet) : Prop :=
  y = { f x with entries := y.entries, balance := y.balance } ∧
  (∀ i : Fin 5, y.entries[i] = { x.entries[i] with damaged := true }) ∧
  y.balance = x.balance.map fun z => { z with damaged := true }

/-- From `s` to `t` one uncorrectable error was reported: an empty capture record freezes with the store, a location of this
form and the last handed sequence, and CAPTURE is latched; a frozen one counts it, up to 255 (R191). -/
def State.Reported (s t : State) (store : Store) (form : Word → Prop) : Prop :=
  (s.capture = none → t.latched .capture = true ∧
    ∃ location, t.capture = some ⟨store, location, s.sorter.lastHanded, 0⟩ ∧ form location) ∧
  ∀ c, s.capture = some c → t.capture = some { c with second := min (c.second + 1) 255 }

/-- The capture location of a word of entry `e` with this item number (spec 11.6). -/
def AccWord.place (w : AccWord) (e : Fin 6) (item : Nat) : Word :=
  BitVec.ofNat 32 (item + 256 * (if e.val < 5 then 5 * w.bank.val + e.val else 40) + 65536 * w.set.val +
    16777216 * w.bank.val)

/-- A close of the interval in set `i` of bank `b` was asked with a cause: the held close holds it, or the fold of that set
begun with it (R77, R81). -/
def State.Asked (t : State) (b : BankId) (i : Fin 2) (cause : Causes → Bool) : Prop :=
  (∃ h, t.banks[b].held = some h ∧ cause h.causes = true) ∨
    ∃ f, t.folds[b] = some f ∧ f.set = i ∧ cause f.causes = true

/-- An address lies in the reply area of slot `k` (spec 11.3). -/
def inReply (k : SlotId) (a : Nat) : Prop := slotByte k + 0x80 ≤ a ∧ a < slotByte k + 0x200

/-- Both states read alike at every address of slot bodies and record pages where `keep` holds. -/
def State.SameBytes (s t : State) (keep : Nat → Prop) : Prop := ∀ a, keep a → t.mem.read a = s.mem.read a

end Sys2Proof.Machine
end

