-- ==== Sys2Proof/Certificates/Slice0/Obligations.lean ====
section
/-! DEFINITION. The statements for the provers, from the rules of spec/. -/

open Sys2Proof Sys2Proof.Machine

/-! ### The step, readiness and cold reset -/

/-- A step runs the command at the front of the queue on the rest, and with an empty queue the block idles (assumption 2, the
model's choice). -/
def Obligations.StepRunsFrontCommand : Prop :=
  (∀ (c : Instr) (rest : List Instr) (s : State), s.pending = c :: rest → step s = exec c { s with pending := rest }) ∧
  (∀ s : State, s.pending = [] → step s = .next s)

/-- Every command completes from every state, and no command touches the queue. The model's choices: a row whose conditions
fail completes with no change (assumption 1), and COLD_RESET and READY keep the queue (assumption 24). -/
def Obligations.EveryCommandCompletes : Prop :=
  ∀ (c : Instr) (s : State), ∃ t, exec c s = .next t ∧ t.pending = s.pending

/-- Cold reset puts every block in its cold-reset state, from any state (R18, R39, R60, R88, R127, R140, R159, R161, R193; the
register store is ColdResetRegisterStore). -/
def Obligations.ColdResetState : Prop :=
  ∀ s : State, ∃ t, exec .coldReset s = .next t ∧ t.control = ⟨false, false, false⟩ ∧
    (∀ l : LinkId, t.links[l].state = .down ∧ t.links[l].fifo = [] ∧ t.links[l].errors = ⟨false, false, false, false⟩ ∧
      t.links[l].inProgress = [] ∧ t.links[l].consecutiveBad = 0 ∧ t.links[l].silenceTimer = none ∧
      t.links[l].good = 0 ∧ t.links[l].bad = 0 ∧ t.links[l].lost = 0) ∧
    t.sorter.queue = [] ∧ t.sorter.lastHanded = none ∧ t.sorter.heldFrame = none ∧ t.sorter.resyncMark = false ∧
    t.sorter.consecutiveLate = 0 ∧ t.sorter.timeout = 300 ∧ t.sorter.late = 0 ∧ t.sorter.duplicate = 0 ∧
    t.sorter.unmapped = 0 ∧ t.sorter.unexpected = 0 ∧ t.sorter.halted = 0 ∧ t.sorter.discarded = 0 ∧
    t.accounting = none ∧
    (∀ p : PointId, t.watches[p] = ⟨0, true, none⟩) ∧
    (∀ p : PointId, t.profiles[p].enable = false ∧ t.profiles[p].role = .feeder ∧ t.profiles[p].mapping = none ∧
      t.profiles[p].invert = false ∧ t.profiles[p].mask = BitVec.allOnes 49 ∧ t.profiles[p].stagedEnable = none ∧
      t.profiles[p].stagedRole = none ∧ t.profiles[p].stagedMapping = none) ∧
    (∀ b : BankId, t.banks[b].phase = .stopped ∧ t.banks[b].previous = none ∧ t.banks[b].interval = 0 ∧
      t.banks[b].held = none ∧ t.banks[b].timing = ⟨false, 4500, 4050⟩ ∧ t.banks[b].archive = true ∧
      t.banks[b].billing = false ∧ t.banks[b].notify = false ∧
      ∀ i : Fin 2, t.banks[b].sets[i].interval = 0 ∧ t.banks[b].sets[i].start = none ∧ t.banks[b].sets[i].last = none ∧
        t.banks[b].sets[i].span = 0 ∧ t.banks[b].sets[i].causes = ⟨false, false, false, false, false⟩ ∧
        t.banks[b].sets[i].balance = (if b = 0 then some ⟨Vector.replicate 104 0, 0, 0, false⟩ else none) ∧
        ∀ e : Fin 5, t.banks[b].sets[i].entries[e].inUse = false ∧
          t.banks[b].sets[i].entries[e].acc = Vector.replicate 104 0 ∧ t.banks[b].sets[i].entries[e].present = 0 ∧
          t.banks[b].sets[i].entries[e].absent = 0 ∧ t.banks[b].sets[i].entries[e].clipped = 0 ∧
          t.banks[b].sets[i].entries[e].damaged = false ∧ t.banks[b].sets[i].entries[e].maskChanged = false) ∧
    t.timing = ⟨false, 4500, 4050⟩ ∧ t.bankCounters = ⟨0, 0, 0, 0⟩ ∧
    (∀ p : PageId, t.writer.pages[p] = .free) ∧ t.writer.freeQueue = List.finRange 58 ∧ t.writer.filling = none ∧
    t.writer.returns = [] ∧ t.writer.pageSeq = 0 ∧ t.writer.gapLoss = 0 ∧ t.writer.lost = 0 ∧
    (∀ k : SlotId, t.requests.slots[k] = .free) ∧ t.requests.intake = [] ∧ t.requests.table = [] ∧
    t.requests.quotaLimit = 4 ∧ t.requests.quotaCount = 0 ∧ t.requests.quotaTimer = none ∧
    t.exceptions.top = 64 ∧ t.exceptions.lost = 0 ∧
    (∀ i : Fin 64, t.exceptions.records[i] = ⟨.empty, 0, 0, 0, 0, 0, 0, 0, 0, Vector.replicate 8 0⟩) ∧
    t.notices = ⟨0, 0, false⟩ ∧ t.capture = none ∧ t.watchCounters = ⟨0, 0, 0⟩ ∧ t.mem = []

/-- The register store after cold reset, which READY leaves as it is (R111). -/
def Obligations.ColdResetRegisterStore : Prop :=
  ∀ s : State, ∃ t, exec .coldReset s = .next t ∧
    (∀ p : SetId, t.regs[p].scale = 0 ∧ t.regs[p].staged = none ∧ t.regs[p].rebase = none ∧ t.regs[p].lastFolded = 0 ∧
      ∀ q : QuantityId, t.regs[p].quantities[q].register = 0 ∧ t.regs[p].quantities[q].residue = 0 ∧
        t.regs[p].quantities[q].valid = true ∧ t.regs[p].quantities[q].stored t.regs[p].scale = 0) ∧
    (∀ b : BankId, t.folds[b] = none) ∧ ∃ u, exec .ready t = .next u ∧ u.regs = t.regs

/-- While READY is 0 nothing happens but reads, a reset and READY itself; host reads of exchange memory return 0 and register
reads are answered (R139, R141). When READY becomes 1 the host reads every word of exchange memory as R141 writes it, and
LWSTAT shows READY alone. That the word read stands on LD afterwards is assumption 25. -/
def Obligations.ReadinessAndInitialMemory : Prop :=
  (∀ s : State, s.control.ready = false →
      (∀ c : Instr, c ≠ .ready → c ≠ .coldReset → (∀ r la, c ≠ .hostRead r la) → exec c s = .next s) ∧
      (∀ la, exec (.hostRead false la) s = .next { s with ld := 0 }) ∧
      (∀ la, exec (.hostRead true la) s = .next { s with ld := s.readRegister la })) ∧
  (∀ s : State, s.control.ready = false → ∃ t, exec .ready s = .next t ∧ t.lwstat = 1 ∧ t.lwctl = 0 ∧ t.lwnote = 0 ∧
      t.noteAsserted = false ∧ t.requests.quotaTimer = some 250 ∧
      ∀ w, w < 65536 → t.wordAsRead w =
        if w = 0 then 1 else if w = 1 then 40 else if w = 2 then 6 else if w = 3 then 32 else if w = 4 then 58
        else if w = 5 then 64 else if w = 48 then 58 else if w = 50 then 4096 else if w = 54 then 0xFFFFFFFF else 0)

/-- The invariants hold at reset. -/
def Obligations.ResetIsOk : Prop := State.reset.Ok

/-! ### Invariants -/

/-- Every step keeps exchange memory canonical and inside the 262,144 bytes. -/
def Obligations.StepKeepsMemory : Prop := ∀ s t : State, s.MemoryOk → step s = .next t → t.MemoryOk

/-- Every step keeps every receiver within its limits (R1, R7, R8, R12). -/
def Obligations.StepKeepsLinks : Prop := ∀ s t : State, s.LinksOk → step s = .next t → t.LinksOk

/-- Every step keeps the alignment queue in sequence order (R20, R22, R29, R31). -/
def Obligations.StepKeepsQueue : Prop := ∀ s t : State, s.QueueOk → step s = .next t → t.QueueOk

/-- Every step keeps every bank in agreement with its fold (R62, R63, R77). -/
def Obligations.StepKeepsBanks : Prop := ∀ s t : State, s.BanksOk → step s = .next t → t.BanksOk

/-- Every step keeps slots, intake queue and pending table in agreement (R94, R147, R149, R153). -/
def Obligations.StepKeepsRequests : Prop := ∀ s t : State, s.RequestsOk → step s = .next t → t.RequestsOk

/-- Every step keeps page states, free queue and FILLING page in agreement (R113, R114, R115, R117). -/
def Obligations.StepKeepsPages : Prop := ∀ s t : State, s.PagesOk → step s = .next t → t.PagesOk

/-- Every step keeps every register set within its ranges (R90). -/
def Obligations.StepKeepsRegisters : Prop := ∀ s t : State, s.RegistersOk → step s = .next t → t.RegistersOk

/-- Every step keeps the exception stack in order (R180). -/
def Obligations.StepKeepsStack : Prop := ∀ s t : State, s.StackOk → step s = .next t → t.StackOk

/-- Every step keeps present plus absent equal to the span in every undamaged entry in use (R66, R68, R72). -/
def Obligations.StepKeepsCounts : Prop := ∀ s t : State, s.CountsOk → step s = .next t → t.CountsOk

/-- A frozen capture record changes in its second-fault count alone until READ_CAPTURE with CLEAR or a cold reset (R191). -/
def Obligations.CaptureStaysFrozen : Prop :=
  ∀ (c : Instr) (s t : State) (x : Capture), s.control.ready = true → s.capture = some x → x.second ≤ 255 →
    c ≠ .readCaptureClear → c ≠ .coldReset → exec c s = .next t →
    ∃ n, x.second ≤ n ∧ n ≤ 255 ∧ t.capture = some { x with second := n }

/-! ### Links -/

/-- GOOD_FRAME: one good frame in SYNC (R6, R10, R12, R13). -/
def Obligations.GoodFrameInSync : Prop :=
  ∀ (s : State) (l : LinkId) (bytes : List Byte) (body : FrameBody), s.control.ready = true →
    s.links[l].state = .sync → s.links[l].inProgress = [] → examine bytes = .good body bytes.length →
    ∃ t, exec (.goodFrame l bytes) s = .next t ∧
      t.links[l].state = .sync ∧ t.links[l].inProgress = [] ∧ t.links[l].good = s.links[l].good + 1 ∧
      t.links[l].bad = s.links[l].bad ∧ t.links[l].consecutiveBad = 0 ∧ t.links[l].silenceTimer = some 1000 ∧
      match body with
      | .idle => t.links[l].fifo = s.links[l].fifo ∧ t.links[l].lost = s.links[l].lost ∧
          t.links[l].errors = s.links[l].errors ∧ t.sorter = s.sorter
      | .window f =>
        if s.control.run = true then
          t.sorter = s.sorter ∧
          if s.links[l].fifo.length < 4 then
            t.links[l].fifo = s.links[l].fifo ++ [⟨f, ⟨f.clip, f.unlock, f.gap, outOfRange f.duration, false⟩⟩] ∧
              t.links[l].lost = s.links[l].lost ∧ t.links[l].errors = s.links[l].errors
          else
            t.links[l].fifo = s.links[l].fifo.dropLast ++ [⟨f, ⟨f.clip, f.unlock, f.gap, outOfRange f.duration, true⟩⟩] ∧
              t.links[l].lost = s.links[l].lost + 1 ∧
              t.links[l].errors = { s.links[l].errors with overrun := true }
        else t.links[l].fifo = s.links[l].fifo ∧ t.links[l].lost = s.links[l].lost ∧
          t.links[l].errors = s.links[l].errors ∧ t.sorter = { s.sorter with halted := s.sorter.halted + 1 }

/-- BAD_FRAME: one bad frame in SYNC, and HUNT at the third in a row (R7, R9). SILENCE_TIMER_EXPIRY: SILENCE is set and the link
changes to HUNT (R8, R9); that the row changes nothing while the timer is stopped is the model's choice (assumption 1). -/
def Obligations.BadFramesAndSilenceInSync : Prop :=
  (∀ (s : State) (l : LinkId) (bytes : List Byte) (crc : Bool), s.control.ready = true →
    s.links[l].state = .sync → s.links[l].inProgress = [] →
    (crc = true ∧ examine bytes = .crcError bytes.length ∨
      crc = false ∧ (examine bytes = .formatError bytes.length ∨ examine bytes = .badLength ∧ bytes.length = 4)) →
    ∃ t, exec (.badFrame l bytes) s = .next t ∧
      t.links[l].inProgress = [] ∧ t.links[l].good = s.links[l].good ∧ t.links[l].bad = s.links[l].bad + 1 ∧
      t.links[l].fifo = s.links[l].fifo ∧ t.links[l].lost = s.links[l].lost ∧ t.sorter = s.sorter ∧
      t.links[l].errors =
        (if crc = true then { s.links[l].errors with crc := true } else { s.links[l].errors with format := true }) ∧
      if s.links[l].consecutiveBad + 1 < 3 then
        t.links[l].state = .sync ∧ t.links[l].consecutiveBad = s.links[l].consecutiveBad + 1 ∧
          t.links[l].silenceTimer = s.links[l].silenceTimer ∧ t.notices = s.notices
      else
        t.links[l].state = .hunt ∧ t.links[l].consecutiveBad = 0 ∧ t.links[l].silenceTimer = none ∧
          t.notices.latched = s.notices.latched ||| Cause.link.flag) ∧
  ∀ (s : State) (l : LinkId), s.control.ready = true →
    (s.links[l].silenceTimer ≠ none → ∃ t, exec (.silenceTimerExpiry l) s = .next t ∧
      t.links[l] = { s.links[l] with
        state := .hunt, inProgress := [], consecutiveBad := 0, silenceTimer := none
        errors := { s.links[l].errors with silence := true } } ∧
      t.notices.latched = s.notices.latched ||| Cause.link.flag) ∧
    (s.links[l].silenceTimer = none → exec (.silenceTimerExpiry l) s = .next s)

/-- HUNT_CANDIDATE: a good candidate takes the link to SYNC and is its first good frame, with all the effects of one (R6, R10,
R12, R13); a failed one is searched again from the byte after its first (R3). -/
def Obligations.HuntCandidateSearch : Prop :=
  ∀ (s : State) (l : LinkId) (bytes : List Byte), s.control.ready = true → s.links[l].state = .hunt →
    s.links[l].inProgress = [] →
    (∀ body, examine bytes = .good body bytes.length →
      ∃ t, exec (.huntCandidate l bytes) s = .next t ∧ t.links[l].state = .sync ∧ t.links[l].inProgress = [] ∧
        t.links[l].good = s.links[l].good + 1 ∧ t.links[l].bad = s.links[l].bad ∧ t.links[l].consecutiveBad = 0 ∧
        t.links[l].silenceTimer = some 1000 ∧ t.notices.latched = s.notices.latched ||| Cause.link.flag ∧
        match body with
        | .idle => t.links[l].fifo = s.links[l].fifo ∧ t.links[l].lost = s.links[l].lost ∧
            t.links[l].errors = s.links[l].errors ∧ t.sorter = s.sorter
        | .window f =>
          if s.control.run = true then
            t.sorter = s.sorter ∧
            if s.links[l].fifo.length < 4 then
              t.links[l].fifo = s.links[l].fifo ++ [⟨f, ⟨f.clip, f.unlock, f.gap, outOfRange f.duration, false⟩⟩] ∧
                t.links[l].lost = s.links[l].lost ∧ t.links[l].errors = s.links[l].errors
            else
              t.links[l].fifo =
                  s.links[l].fifo.dropLast ++ [⟨f, ⟨f.clip, f.unlock, f.gap, outOfRange f.duration, true⟩⟩] ∧
                t.links[l].lost = s.links[l].lost + 1 ∧ t.links[l].errors = { s.links[l].errors with overrun := true }
          else t.links[l].fifo = s.links[l].fifo ∧ t.links[l].lost = s.links[l].lost ∧
            t.links[l].errors = s.links[l].errors ∧
            t.sorter = { s.sorter with halted := s.sorter.halted + 1 }) ∧
    (examine bytes ≠ .incomplete → (∀ body n, examine bytes ≠ .good body n) →
      exec (.huntCandidate l bytes) s = exec (.huntCandidate l (bytes.drop 1)) s)

/-! ### The sorter -/

/-- SORTER_TAKE of a frame that is dropped: the counter of its reason rises, no entry changes (R14, R19, R22, R23, R25,
R34). -/
def Obligations.SorterTakeDropsFrame : Prop :=
  ∀ (s : State) (l : LinkId) (x : TaggedFrame) (rest : List TaggedFrame), s.control.ready = true →
    s.sorter.heldFrame = none → s.links[l].fifo = x :: rest →
    (s.accounting = none → s.control.warm = false → ∀ e, s.sorter.queue.head? = some e → e.completion = none) →
    ∃ t, exec (.sorterTake l) s = .next t ∧ t.links[l] = { s.links[l] with fifo := rest } ∧
      (s.mappedPoint l x.frame.port = none → t.sorter = { s.sorter with unmapped := s.sorter.unmapped + 1 }) ∧
      ∀ p, s.mappedPoint l x.frame.port = some p →
        (s.behindHorizon x.frame.seq = true → s.sorter.consecutiveLate + 1 ≠ 64 →
          t.sorter = { s.sorter with late := s.sorter.late + 1, consecutiveLate := s.sorter.consecutiveLate + 1 }) ∧
        (s.behindHorizon x.frame.seq = false →
          (∀ e, s.sorter.queue.find? (fun e => e.seq == x.frame.seq) = some e → e.handed = false →
            (p ∉ e.expected.map Expected.point →
              t.sorter = { s.sorter with unexpected := s.sorter.unexpected + 1 }) ∧
            (∀ y, e.expected.find? (fun y => y.point == p) = some y → y.frame ≠ none →
              t.sorter = { s.sorter with duplicate := s.sorter.duplicate + 1 })) ∧
          (x.frame.seq ∉ s.sorter.queue.map Entry.seq → s.profiles[p].active = false →
            t.sorter = { s.sorter with unexpected := s.sorter.unexpected + 1 }) ∧
          (x.frame.seq ∉ s.sorter.queue.map Entry.seq → s.profiles[p].active = true →
            (placeable s.sorter.queue x.frame.seq = false ∨
              s.sorter.queue.length = 4 ∧ ∀ e, s.sorter.queue.head? = some e → newer e.seq x.frame.seq = true) →
            s.sorter.consecutiveLate + 1 ≠ 64 →
            t.sorter = { s.sorter with late := s.sorter.late + 1, consecutiveLate := s.sorter.consecutiveLate + 1 }))

/-- SORTER_TAKE of a frame that is kept: it opens an entry with the expected points of the moment and their copies (R21), is
stored in its entry, which completes when every expected point has arrived (R24), or, of a fifth sequence newer than the
head, forces the head and is held (R29), the forced head being handed when accounting is IDLE (R31). While a frame is held no
frame is taken (R30); that the row then changes nothing is the model's choice (assumption 1). -/
def Obligations.SorterTakeKeepsFrame : Prop :=
  (∀ (s : State) (l : LinkId), s.control.ready = true → s.sorter.heldFrame ≠ none →
    exec (.sorterTake l) s = .next s) ∧
  ∀ (s : State) (l : LinkId) (x : TaggedFrame) (rest : List TaggedFrame) (p : PointId), s.control.ready = true →
    s.sorter.heldFrame = none → s.links[l].fifo = x :: rest → s.mappedPoint l x.frame.port = some p →
    s.behindHorizon x.frame.seq = false →
    (x.frame.seq ∉ s.sorter.queue.map Entry.seq → s.profiles[p].active = true →
      placeable s.sorter.queue x.frame.seq = true →
      (s.sorter.queue.length < 4 →
        ∃ t, exec (.sorterTake l) s = .next t ∧ t.links[l] = { s.links[l] with fifo := rest } ∧
          t.sorter.queue.length = s.sorter.queue.length + 1 ∧ t.sorter.consecutiveLate = 0 ∧
          ∃ e ∈ t.sorter.queue, s.Opens e p x) ∧
      ∀ e tail, s.sorter.queue = e :: tail → tail.length = 3 → newer x.frame.seq e.seq = true →
        ∃ t e', exec (.sorterTake l) s = .next t ∧ t.links[l] = { s.links[l] with fifo := rest } ∧
          t.sorter = { s.sorter with queue := e' :: tail, heldFrame := some ⟨l, x⟩ } ∧
          e'.seq = e.seq ∧ e'.expected = e.expected ∧
          (e.completion = none → e'.completion = some .forced ∧ e'.timer = none) ∧
          (e.completion ≠ none → e'.completion = e.completion ∧ e'.timer = e.timer) ∧
          if s.accounting = none ∧ s.control.warm = false then
            e'.handed = true ∧ ∃ a, t.accounting = some a ∧ a.carriedLast = s.sorter.lastHanded ∧ a.calculation = none
          else e'.handed = e.handed ∧ t.accounting = s.accounting) ∧
    (∀ e, s.sorter.queue.find? (fun e => e.seq == x.frame.seq) = some e → e.handed = false →
      (∃ y, e.expected.find? (fun y => y.point == p) = some y ∧ y.frame = none) →
      ∃ t, exec (.sorterTake l) s = .next t ∧ t.links[l] = { s.links[l] with fifo := rest } ∧
        t.sorter.queue.map Entry.seq = s.sorter.queue.map Entry.seq ∧ t.sorter.consecutiveLate = 0 ∧
        ∃ e' ∈ t.sorter.queue, e'.seq = x.frame.seq ∧
          e'.expected = (e.expected.map fun y => if y.point = p then { y with frame := some x } else y) ∧
          ((∀ y ∈ e'.expected, y.frame ≠ none) → e.completion = none →
            e'.completion = some .allArrived ∧ e'.timer = none))

/-- The 64th LATE drop in a row takes the resync, whatever made it LATE: the horizon, a place more than 32,767 away from an
entry, or a head of four entries that is newer (R22, R23, R34, R35). -/
def Obligations.ResyncDiscardsQueue : Prop :=
  ∀ (s : State) (l : LinkId) (x : TaggedFrame) (rest : List TaggedFrame) (p : PointId), s.control.ready = true →
    s.QueueOk → s.sorter.heldFrame = none → s.links[l].fifo = x :: rest → s.mappedPoint l x.frame.port = some p →
    (s.behindHorizon x.frame.seq = true ∨
      s.behindHorizon x.frame.seq = false ∧ x.frame.seq ∉ s.sorter.queue.map Entry.seq ∧ s.profiles[p].active = true ∧
        (placeable s.sorter.queue x.frame.seq = false ∨
          s.sorter.queue.length = 4 ∧ ∃ e, s.sorter.queue.head? = some e ∧ newer e.seq x.frame.seq = true)) →
    s.sorter.consecutiveLate = 63 →
    ∃ t, exec (.sorterTake l) s = .next t ∧
      t.sorter.queue = s.sorter.queue.filter Entry.handed ∧
      t.sorter.lastHanded = none ∧ t.sorter.consecutiveLate = 0 ∧ t.sorter.late = s.sorter.late + 1 ∧
      t.sorter.discarded = s.sorter.discarded + BitVec.ofNat 32 (s.sorter.queue.filter fun e => !e.handed).length ∧
      (t.sorter.resyncMark = true ↔ s.sorter.resyncMark = true ∨ s.accounting ≠ none) ∧
      t.latched .exception = true ∧
      (s.exceptions.top = 0 → t.exceptions.lost = s.exceptions.lost + 1) ∧
      (∀ n : Fin 64, s.exceptions.top = n.val + 1 → t.exceptions.top = n.val ∧
        t.exceptions.records[n].kind = 8 ∧ t.exceptions.records[n].subject = BitVec.ofNat 32 l.val ∧
        t.exceptions.records[n].d0 = BitVec.ofNat 32 (x.frame.seq.toNat + 65536 * x.frame.port.val) ∧
        t.exceptions.records[n].d1 = seqWord s.sorter.lastHanded ∧
        t.exceptions.records[n].d2 = BitVec.ofNat 32 (s.sorter.queue.filter fun e => !e.handed).length ∧
        t.exceptions.records[n].lastHanded = 0xFFFFFFFF)

/-- ALIGNMENT_TIMER_EXPIRY: an OPEN entry completes with TIMEOUT, and the head is handed when accounting is IDLE and no warm
reset is in progress (R27, R28, R31). -/
def Obligations.AlignmentExpiryCompletesEntry : Prop :=
  ∀ (s : State) (e : Entry), s.control.ready = true → s.QueueOk → e ∈ s.sorter.queue → e.timer ≠ none →
    ∃ t, exec (.alignmentTimerExpiry e.seq) s = .next t ∧
      t.sorter.queue.map Entry.seq = s.sorter.queue.map Entry.seq ∧
      ∃ e' ∈ t.sorter.queue, e'.seq = e.seq ∧ e'.expected = e.expected ∧ e'.completion = some .timeout ∧
        e'.timer = none ∧
        (s.sorter.queue.head? = some e → s.accounting = none → s.control.warm = false →
          e'.handed = true ∧ ∃ a, t.accounting = some a ∧ a.carriedLast = s.sorter.lastHanded ∧ a.calculation = none)

/-- RELEASE: the entry leaves and the last handed sequence is written unless a resync marked it (R33, R36), a held frame is
handled afresh against the new last handed sequence (R23, R30), a complete new head is handed (R31), and the quota is
refreshed (R149). -/
def Obligations.ReleaseEndsAccounting : Prop :=
  ∀ (s : State) (a : Accounting) (e : Entry) (rest : List Entry), s.control.ready = true → s.QueueOk →
    s.accounting = some a → a.finished = true → s.sorter.queue = e :: rest →
    ∃ t, exec .release s = .next t ∧ t.requests.quotaCount = 0 ∧ t.requests.quotaTimer = some 250 ∧
      t.sorter.heldFrame = none ∧ t.sorter.resyncMark = false ∧
      (t.accounting ≠ none ↔ ∃ f, t.sorter.queue.head? = some f ∧ f.completion ≠ none ∧ s.control.warm = false) ∧
      (∀ f, t.sorter.queue.head? = some f → (f.handed = true ↔ t.accounting ≠ none)) ∧
      (∀ a', t.accounting = some a' → a'.carriedLast = t.sorter.lastHanded ∧ a'.calculation = none) ∧
      (s.sorter.heldFrame = none → t.sorter.lastHanded = s.releasedLast e ∧
        t.sorter.queue.map Entry.seq = rest.map Entry.seq) ∧
      ∀ h, s.sorter.heldFrame = some h →
        (s.mappedPoint h.link h.item.frame.port = none → t.sorter.lastHanded = s.releasedLast e ∧
          t.sorter.queue.map Entry.seq = rest.map Entry.seq ∧ t.sorter.unmapped = s.sorter.unmapped + 1) ∧
        ∀ p, s.mappedPoint h.link h.item.frame.port = some p →
          (∀ r, s.releasedLast e = some r → newer h.item.frame.seq r = true) →
          h.item.frame.seq ∉ rest.map Entry.seq →
          (s.profiles[p].active = false → t.sorter.lastHanded = s.releasedLast e ∧
            t.sorter.queue.map Entry.seq = rest.map Entry.seq ∧ t.sorter.unexpected = s.sorter.unexpected + 1) ∧
          (s.profiles[p].active = true → placeable rest h.item.frame.seq = true →
            t.sorter.lastHanded = s.releasedLast e ∧ t.sorter.consecutiveLate = 0 ∧
            t.sorter.queue.length = rest.length + 1 ∧ (∀ f ∈ rest, f.seq ∈ t.sorter.queue.map Entry.seq) ∧
            ∃ f ∈ t.sorter.queue, s.Opens f p h.item)

/-- What the four link events and the sorter's three events leave unchanged. -/
def Obligations.LinkAndSorterEventsFrame : Prop :=
  (∀ (c : Instr) (l : LinkId) (s t : State),
    (∃ bytes, c = .goodFrame l bytes ∨ c = .badFrame l bytes ∨ c = .huntCandidate l bytes) ∨ c = .silenceTimerExpiry l →
    exec c s = .next t →
    (∀ l', l' ≠ l → t.links[l'] = s.links[l']) ∧
    t = { s with
      links := t.links
      sorter := { s.sorter with halted := t.sorter.halted }
      notices := { s.notices with latched := t.notices.latched }
      ecc := { s.ecc with exchange := t.ecc.exchange } } ∧
    (t.notices.latched = s.notices.latched ∨ t.notices.latched = s.notices.latched ||| Cause.link.flag)) ∧
  ∀ (c : Instr) (s t : State), (∃ l, c = .sorterTake l) ∨ (∃ q, c = .alignmentTimerExpiry q) ∨ c = .release →
    exec c s = .next t →
    t = { s with
      links := t.links
      sorter := { t.sorter with halted := s.sorter.halted, timeout := s.sorter.timeout }
      accounting := t.accounting
      requests := { s.requests with quotaCount := t.requests.quotaCount, quotaTimer := t.requests.quotaTimer }
      exceptions := t.exceptions
      notices := { s.notices with latched := t.notices.latched }
      ecc := { s.ecc with exchange := t.ecc.exchange } } ∧
    (∀ l : LinkId, t.links[l] = { s.links[l] with fifo := t.links[l].fifo } ∧ (c ≠ .sorterTake l → t.links[l] = s.links[l])) ∧
    (c ≠ .release → t.requests = s.requests)

/-! ### The window calculator -/

/-- CALCULATION: one point result for each expected point, and the polarity watch advanced or reset (R41, R42, R51, R58). -/
def Obligations.CalculationGivesResults : Prop :=
  ∀ (s : State) (a : Accounting) (e : Entry), s.control.ready = true → s.accounting = some a → a.calculation = none →
    s.handedEntry = some e → (e.expected.map Expected.point).Nodup →
    ∃ t c, exec .calculation s = .next t ∧ t.accounting = some { a with calculation := some c } ∧
      c.points.map PointResult.point = e.expected.map Expected.point ∧
      (∀ x ∈ e.expected, ∃ r ∈ c.points, r.point = x.point ∧ r.changeMark = x.changeMark ∧ r.mask = x.mask ∧
        r.invert = x.invert ∧
        match x.frame with
        | none => r.status = .absent
        | some f =>
          if f.status.unlock = true ∨ f.status.gap = true ∨ f.status.range = true then r.status = .invalid
          else r.status = .valid (pointEnergies f.frame x.mask x.invert) f.status.clip) ∧
      (∀ x ∈ e.expected, t.watches[x.point] =
        if s.suspicious x = true then
          { count := if s.watches[x.point].count < 25 then s.watches[x.point].count + 1 else s.watches[x.point].count
            armed := s.watches[x.point].armed && s.watches[x.point].count != 24
            runStart := if s.watches[x.point].count = 0 then some e.seq else s.watches[x.point].runStart }
        else { s.watches[x.point] with count := 0, armed := true }) ∧
      (∀ p : PointId, p ∉ e.expected.map Expected.point → t.watches[p] = s.watches[p]) ∧
      t.banks = s.banks

/-- The 104 energies of a VALID point: the sums and the division (R45), the active energy by the sign of SP (R46), the
reactive energy by the quadrant of SP and SQ (R47), each admitted and listed order's energy by the sign of Sh, formed from
three phase products, every other order 0 (R48). -/
def Obligations.PointEnergiesByDirection : Prop :=
  (∀ z : Int, energyOf z = z.natAbs / 386547056640000000000) ∧
  ∀ (f : WindowFrame) (mask : BitVec 49) (invert : Bool),
    (∀ p : Phasor, p.active invert = p.vMag.toNat * p.iMag.toNat *
      cosTable (p.vAng - (if invert = true then p.iAng + 32768 else p.iAng))) ∧
    f.fundamental.activeSum invert =
      f.fundamental.a.active invert + f.fundamental.b.active invert + f.fundamental.c.active invert ∧
    f.fundamental.reactiveSum invert =
      f.fundamental.a.reactive invert + f.fundamental.b.reactive invert + f.fundamental.c.reactive invert ∧
    (0 ≤ f.fundamental.activeSum invert →
      (pointEnergies f mask invert)[0] = energyOf (f.fundamental.activeSum invert * f.duration.toNat) ∧
      (pointEnergies f mask invert)[1] = 0) ∧
    (f.fundamental.activeSum invert < 0 →
      (pointEnergies f mask invert)[0] = 0 ∧
      (pointEnergies f mask invert)[1] = energyOf (f.fundamental.activeSum invert * f.duration.toNat)) ∧
    (∀ q : Fin 104, 2 ≤ q.val → q.val ≤ 5 →
      (pointEnergies f mask invert)[q] =
        if q.val =
          (if 0 ≤ f.fundamental.activeSum invert then (if 0 ≤ f.fundamental.reactiveSum invert then 2 else 5)
           else (if 0 ≤ f.fundamental.reactiveSum invert then 3 else 4))
        then energyOf (f.fundamental.reactiveSum invert * f.duration.toNat) else 0) ∧
    ∀ h : Nat, ∀ habs : 2 ≤ h ∧ h ≤ 50,
      match (if mask.getLsbD (h - 2) = true then f.harmonics.find? (fun y => y.order == h) else none) with
      | none => (pointEnergies f mask invert)[6 + 2 * (h - 2)] = 0 ∧ (pointEnergies f mask invert)[7 + 2 * (h - 2)] = 0
      | some y =>
        let sh : Int := y.phases.a.active invert + y.phases.b.active invert + y.phases.c.active invert
        (pointEnergies f mask invert)[6 + 2 * (h - 2)] = (if 0 ≤ sh then energyOf (sh * f.duration.toNat) else 0) ∧
        (pointEnergies f mask invert)[7 + 2 * (h - 2)] = (if sh < 0 then energyOf (sh * f.duration.toNat) else 0)

/-- CALCULATION gives a balance result exactly when R53's three conditions hold, the third as R54 says it; its energies are the
residual's, fundamental (R55) and order by order (R56), each residual divided once and assigned by its sign (R57). -/
def Obligations.BalanceResult : Prop :=
  ∀ (s : State) (a : Accounting) (e : Entry), s.control.ready = true → s.accounting = some a → a.calculation = none →
    s.handedEntry = some e →
    ∃ t c, exec .calculation s = .next t ∧ t.accounting = some { a with calculation := some c } ∧
      (c.balance ≠ none ↔
        (∃ x ∈ e.expected, s.profiles[x.point].role = .pcc) ∧
        (∀ x ∈ e.expected, ∃ f, x.frame = some f ∧ f.status.unlock = false ∧ f.status.gap = false ∧
          f.status.range = false) ∧
        ∀ b : BankId, (∃ i : Fin 5, s.profiles[pointAt b i].active = true) →
          ∃ i j, s.banks[b].phase.accumulating = some i ∧ s.banks[(0 : BankId)].phase.accumulating = some j ∧
            s.banks[b].sets[i].start.getD e.seq = s.banks[(0 : BankId)].sets[j].start.getD e.seq) ∧
      ∀ es rp rq, c.balance = some es → rp = s.residualTerm e (fun x f => f.fundamental.activeSum x.invert) →
        rq = s.residualTerm e (fun x f => f.fundamental.reactiveSum x.invert) →
        es[0] = (if 0 ≤ rp then energyOf rp else 0) ∧ es[1] = (if rp < 0 then energyOf rp else 0) ∧
        es[2] = (if 0 ≤ rp ∧ 0 ≤ rq then energyOf rq else 0) ∧ es[3] = (if rp < 0 ∧ 0 ≤ rq then energyOf rq else 0) ∧
        es[4] = (if rp < 0 ∧ rq < 0 then energyOf rq else 0) ∧ es[5] = (if 0 ≤ rp ∧ rq < 0 then energyOf rq else 0) ∧
        ∀ h : Nat, ∀ horder : 2 ≤ h ∧ h ≤ 50,
          let rh := s.residualTerm e (fun x f => match f.harmonics.find? (fun y => y.order == h) with
            | some y => y.phases.activeSum x.invert
            | none => 0)
          if ∀ x ∈ e.expected, x.mask.getLsbD (h - 2) = true then
            es[6 + 2 * (h - 2)] = (if 0 ≤ rh then energyOf rh else 0) ∧
            es[7 + 2 * (h - 2)] = (if rh < 0 then energyOf rh else 0)
          else es[6 + 2 * (h - 2)] = 0 ∧ es[7 + 2 * (h - 2)] = 0

/-- CALCULATION pushes one POLARITY_SUSPECT for each expected point whose count reaches 25 while its watch is armed, with the
point, the window's sequence, the run start and INVERT (R58, R59); several come in the order of the expected set (assumption
11), and those that find the stack full are counted as lost. -/
def Obligations.PolaritySuspectPushed : Prop :=
  ∀ (s : State) (a : Accounting) (e : Entry) (alarms : List Expected), s.control.ready = true → s.accounting = some a →
    a.calculation = none → s.handedEntry = some e → (e.expected.map Expected.point).Nodup → s.exceptions.top ≤ 64 →
    alarms = e.expected.filter (fun x => s.suspicious x && s.watches[x.point].count == 24 && s.watches[x.point].armed) →
    (∀ x, s.suspicious x = true ↔ s.profiles[x.point].role = .feeder ∧ ∃ f, x.frame = some f ∧
      f.status.unlock = false ∧ f.status.gap = false ∧ f.status.range = false ∧
      f.frame.fundamental.a.active x.invert < 0 ∧ f.frame.fundamental.b.active x.invert < 0 ∧
      f.frame.fundamental.c.active x.invert < 0) ∧
    ∃ t, exec .calculation s = .next t ∧
      (alarms = [] → t.exceptions = s.exceptions ∧ t.notices = s.notices) ∧
      (alarms ≠ [] → t.latched .exception = true) ∧
      t.exceptions.top = s.exceptions.top - alarms.length ∧
      t.exceptions.lost = s.exceptions.lost + BitVec.ofNat 32 (alarms.length - s.exceptions.top) ∧
      ∀ (i : Nat) (x : Expected) (n : Fin 64), alarms[i]? = some x → s.exceptions.top = n.val + i + 1 →
        t.exceptions.records[n].tag = .new ∧ t.exceptions.records[n].kind = 7 ∧
        t.exceptions.records[n].subject = BitVec.ofNat 32 x.point.val ∧
        t.exceptions.records[n].d0 = BitVec.ofNat 32 e.seq.toNat ∧
        t.exceptions.records[n].d1 = seqWord s.watches[x.point].runStart ∧
        t.exceptions.records[n].d2 = if x.invert = true then 1 else 0

/-- The tables are exact at the quarter turns and change sign over a half turn, so INVERT reverses every sum (R43, R44,
R49). -/
def Obligations.InvertReversesSums : Prop :=
  (cosTable 0 = 1073741824 ∧ cosTable 16384 = 0 ∧ cosTable 32768 = -1073741824 ∧ cosTable 49152 = 0) ∧
  (sinTable 0 = 0 ∧ sinTable 16384 = 1073741824 ∧ sinTable 32768 = 0 ∧ sinTable 49152 = -1073741824) ∧
  (∀ d : BitVec 16, cosTable (d + 32768) = -cosTable d ∧ sinTable (d + 32768) = -sinTable d) ∧
  (∀ f : WindowFrame, f.fundamental.activeSum true = -f.fundamental.activeSum false ∧
    f.fundamental.reactiveSum true = -f.fundamental.reactiveSum false ∧
    ∀ h, f.harmonicSum true h = (f.harmonicSum false h).map fun x => -x)

/-! ### Banks -/

/-- WINDOW_ADDITION at a bank that adds nothing: STOPPED or STOPPING, or opened by START during the accounting (R69, R84). -/
def Obligations.AdditionAtStoppedBank : Prop :=
  ∀ (s : State) (b : BankId) (a : Accounting) (c : Calculation) (e : Entry), s.control.ready = true →
    s.accounting = some a → a.calculation = some c → s.handedEntry = some e → a.added[b] = false →
    (s.banks[b].phase.accumulating = none ∨ a.setAside[b] = true) →
    ∃ t, exec (.windowAddition b) s = .next t ∧ t.banks = s.banks ∧
      t.accounting = some { a with added := a.added.set b true } ∧
      t.bankCounters.notAccounted = s.bankCounters.notAccounted + 1 ∧
      t.bankCounters.ignoredTariff = s.bankCounters.ignoredTariff ∧
      (b = 0 → t.bankCounters.accounted = s.bankCounters.accounted + 1 ∧
        t.bankCounters.missing = s.bankCounters.missing + BitVec.ofNat 32 (missing a.carriedLast e.seq)) ∧
      (b ≠ 0 → t.bankCounters.accounted = s.bankCounters.accounted ∧ t.bankCounters.missing = s.bankCounters.missing)

/-- WINDOW_ADDITION at an OPEN or TURNING bank: the set's span, start and last sequence (R65), every entry in use by one
window's worth (R66, R67, R71), the balance entry (R68, R71), bank 0's counters (R69), the COUNT ask (R75), the OVERLONG ask
and its push (R76). That the span stays at 4294967295 and then damages every entry is DEDUCED (assumption 18). -/
def Obligations.AdditionAtOpenBank : Prop :=
  ∀ (s : State) (b : BankId) (i : Fin 2) (a : Accounting) (c : Calculation) (e : Entry) (m : Nat) (x : AccSet),
    s.control.ready = true → s.ecc.accounting = [] → s.accounting = some a → a.calculation = some c →
    s.handedEntry = some e → a.added[b] = false → a.setAside[b] = false → s.banks[b].phase.accumulating = some i →
    missing a.carriedLast e.seq = m → s.banks[b].sets[i] = x →
    ∃ t y, exec (.windowAddition b) s = .next t ∧ t.banks[b].sets[i] = y ∧
      t.accounting = some { a with added := a.added.set b true } ∧
      (t.banks[b].phase = s.banks[b].phase ∨ ∃ f, t.folds[b] = some f ∧ f.set = i ∧ f.interval = s.banks[b].interval) ∧
      y.span.toNat = min (x.span.toNat + 1 + m) 4294967295 ∧ y.start = some (x.start.getD e.seq) ∧ y.last = some e.seq ∧
      (∀ n : Fin 5, x.entries[n].Received y.entries[n] m x.start.isSome
        (decide (4294967295 < x.span.toNat + 1 + m)) (c.resultAt b n)) ∧
      (∀ z, x.balance = some z → ∃ z', y.balance = some z' ∧
        z.Received z' m (decide (4294967295 < x.span.toNat + 1 + m)) c.balance) ∧
      (if b = 0 then t.bankCounters = { s.bankCounters with
          accounted := s.bankCounters.accounted + 1, missing := s.bankCounters.missing + BitVec.ofNat 32 m }
        else t.bankCounters = s.bankCounters) ∧
      (s.banks[b].timing.coupled = false → s.banks[b].timing.length ≤ y.span.toNat → t.Asked b i Causes.count) ∧
      (s.banks[b].timing.coupled = true → 2 * s.banks[b].timing.length ≤ y.span.toNat → t.Asked b i Causes.overlong) ∧
      (y.span.toNat < (if s.banks[b].timing.coupled = true then 2 * s.banks[b].timing.length
          else s.banks[b].timing.length) →
        t.banks[b].held = s.banks[b].held ∨
          ∃ f, t.folds[b] = some f ∧ f.set = i ∧ s.banks[b].held.map HeldClose.causes = some f.causes) ∧
      if s.banks[b].timing.coupled = true ∧ 2 * s.banks[b].timing.length ≤ y.span.toNat ∧
          s.banks[b].heldCauses.overlong = false then
        t.latched .exception = true ∧ (s.exceptions.top = 0 → t.exceptions.lost = s.exceptions.lost + 1) ∧
        ∀ n : Fin 64, s.exceptions.top = n.val + 1 → t.exceptions.top = n.val ∧ t.exceptions.records[n].kind = 3 ∧
          t.exceptions.records[n].subject = BitVec.ofNat 32 b.val ∧ t.exceptions.records[n].d0 = s.banks[b].interval ∧
          t.exceptions.records[n].d1 = y.span ∧
          t.exceptions.records[n].d2 = BitVec.ofNat 32 s.banks[b].timing.length
      else t.exceptions = s.exceptions

/-- TARIFF_EVENT: a COUPLED OPEN or TURNING bank is asked a TARIFF close, which starts or is held; every other bank counts the
event as ignored (R74, R77, R78). That the eight banks take the edge in one command, with nothing between them, is assumption
30, and that they take it in ascending order is assumption 11: R74 makes it an event of its own at every bank. -/
def Obligations.TariffEventAsksClose : Prop :=
  ∀ s : State, s.control.ready = true → ∃ t, exec .tariffEvent s = .next t ∧
    t.bankCounters.ignoredTariff = s.bankCounters.ignoredTariff +
      BitVec.ofNat 32 ((List.finRange 8).filter fun b => !(s.banks[b].timing.coupled && s.banks[b].takesClose)).length ∧
    ∀ b : BankId,
      if s.banks[b].timing.coupled = true ∧ s.banks[b].takesClose = true then
        if (s.banks[b].ask Causes.onlyTariff []).mayStart = true ∧ s.control.warm = false then
          ∃ f, t.folds[b] = some f ∧ f.causes.tariff = true ∧ f.interval = s.banks[b].interval ∧ t.banks[b].held = none
        else t.banks[b] = s.banks[b].ask Causes.onlyTariff [] ∧ t.folds[b] = s.folds[b]
      else t.banks[b] = s.banks[b] ∧ t.folds[b] = s.folds[b]

/-- The close start: settings for the new interval, the turnover, items made due, the fold begun, waiters reported (R80, R81,
R83, R95). The other set is zeroed in every field (R61) and, without STOP, opened by the profiles applied; with STOP it stays
zeroed, with interval number 0 by the model's choice (assumption 28) and order masks 0 (assumption 8). -/
def Obligations.CloseStartTurnsBankOver : Prop :=
  ∀ (s : State) (b : BankId) (a : Fin 2) (h : HeldClose), s.control.warm = false → s.banks[b].phase = .opened a →
    s.banks[b].held = some h → s.banks[b].mayStart = true →
    (s.heldTest b).folds[b] = some ⟨a, s.banks[b].interval, h.causes, 0, 0, 0⟩ ∧
    (s.heldTest b).banks[b].held = none ∧ (s.heldTest b).banks[b].timing = s.timing ∧
    (s.heldTest b).banks[b].previous = some a ∧
    (s.heldTest b).banks[b].sets[a] = { s.banks[b].sets[a] with causes := h.causes } ∧
    (if h.causes.stop = true then
      (s.heldTest b).banks[b].phase = .stopping a ∧ (s.heldTest b).banks[b].interval = s.banks[b].interval ∧
      (s.heldTest b).banks[b].sets[otherSet a].ZeroedAs s.banks[b].sets[otherSet a] 0 (fun _ => (false, 0, false))
     else
      (s.heldTest b).banks[b].phase = .turning (otherSet a) ∧
      (s.heldTest b).banks[b].interval = nextInterval s.banks[b].interval ∧
      (s.heldTest b).banks[b].sets[otherSet a].ZeroedAs s.banks[b].sets[otherSet a] (nextInterval s.banks[b].interval)
        (s.openMarks b)) ∧
    (s.heldTest b).banks[b].archive = s.banks[b].archive ∧ (s.heldTest b).banks[b].billing = s.banks[b].billing ∧
    (s.heldTest b).banks[b].notify = s.banks[b].notify ∧
    (∀ e : Fin 5, (s.heldTest b).profiles[pointAt b e] = s.profiles[pointAt b e].applyStaged) ∧
    (∀ p : SetId, (s.heldTest b).regs[p] = if bankOfSet p = b then s.regs[p].makeDue else s.regs[p]) ∧
    (∀ b', b' ≠ b → (s.heldTest b).banks[b'] = s.banks[b'] ∧ (s.heldTest b).folds[b'] = s.folds[b']) ∧
    (s.heldTest b).requests.table = s.requests.table.map fun e =>
      if e.slot ∈ h.waiters.map Prod.fst then { e with work := e.work.beginFold b s.banks[b].interval } else e

/-! ### Folding -/

/-- POINT_STEP over stores without errors: the scale part, the rebase, the addition that keeps the law of R103, the last
folded interval (R97, R99 to R103). -/
def Obligations.PointStepFoldsInterval : Prop :=
  ∀ (s : State) (b : BankId) (f : Fold) (e : Fin 6), s.control.ready = true → s.RegistersOk → s.TablesClean →
    s.nextStep b = some (f, e) →
    ∃ t, exec (.pointStep b) s = .next t ∧
      (∃ g, t.folds[b] = some g ∧ g.set = f.set ∧ g.interval = f.interval ∧ g.position = e.val + 1) ∧
      t.banks = s.banks ∧
      (∀ p, p ≠ entryPoint b e → t.regs[p] = s.regs[p]) ∧
      t.regs[entryPoint b e].lastFolded = f.interval ∧
      t.regs[entryPoint b e].scale = (if s.regs[entryPoint b e].abandons.isSome then s.regs[entryPoint b e].scale
        else s.regs[entryPoint b e].dueScale.getD s.regs[entryPoint b e].scale) ∧
      t.regs[entryPoint b e].staged =
        (if s.regs[entryPoint b e].dueScale.isSome then none else s.regs[entryPoint b e].staged) ∧
      t.regs[entryPoint b e].rebase =
        (if s.regs[entryPoint b e].dueRebase.isSome then none else s.regs[entryPoint b e].rebase) ∧
      ∀ q : QuantityId,
        match s.regs[entryPoint b e].dueRebase.bind fun x => x.valueFor q.val with
        | some v => t.regs[entryPoint b e].quantities[q] = ⟨v, 0, true⟩
        | none =>
          if s.regs[entryPoint b e].quantities[q].valid = true then
            if s.regs[entryPoint b e].quantities[q].stored s.regs[entryPoint b e].scale +
                ((s.banks[b].sets[f.set].totals e)[q]).toNat <
                registerLimit * residueLimit t.regs[entryPoint b e].scale then
              t.regs[entryPoint b e].quantities[q].valid = true ∧
              t.regs[entryPoint b e].quantities[q].stored t.regs[entryPoint b e].scale =
                s.regs[entryPoint b e].quantities[q].stored s.regs[entryPoint b e].scale +
                  ((s.banks[b].sets[f.set].totals e)[q]).toNat
            else
              t.regs[entryPoint b e].quantities[q].valid = false ∧
              t.regs[entryPoint b e].quantities[q].stored t.regs[entryPoint b e].scale =
                s.regs[entryPoint b e].quantities[q].stored s.regs[entryPoint b e].scale
          else t.regs[entryPoint b e].quantities[q].valid = false

/-- POINT_STEP over stores without errors, beside the registers: an applied REBASE ends its slot DONE with OK and the values set
(R101, R175); SCALE_ABANDONED and then REGISTER_OVERFLOW are pushed with their details (R100, R102); under ARCHIVE the record of
the step's outcome goes to the writer, else none (R98). The step's interval number is the fold's (assumption 17). -/
def Obligations.PointStepReportsAndRecords : Prop :=
  ∀ (s : State) (b : BankId) (f : Fold) (e : Fin 6) (p : SetId) (overflowing : List QuantityId)
    (pushes : List (BitVec 16 × Word × Word)), s.control.ready = true → s.MemoryOk → s.RegistersOk → s.TablesClean →
    s.exceptions.top ≤ 64 → s.nextStep b = some (f, e) → p = entryPoint b e →
    overflowing = (List.finRange 104).filter (fun q =>
      ((s.regs[p].dueRebase.bind fun x => x.valueFor q.val).isNone && s.regs[p].quantities[q].valid) &&
      decide (registerLimit * residueLimit (if s.regs[p].abandons.isSome then s.regs[p].scale
          else s.regs[p].dueScale.getD s.regs[p].scale) ≤
        s.regs[p].quantities[q].stored s.regs[p].scale + ((s.banks[b].sets[f.set].totals e)[q]).toNat)) →
    pushes =
      (match s.regs[p].dueScale with
        | some v =>
          (((List.finRange 104).find? fun q => decide (v < s.regs[p].scale) && s.regs[p].quantities[q].valid &&
            decide (10 ^ (16 - (s.regs[p].scale.val - v.val)) ≤ s.regs[p].quantities[q].register)).map fun q =>
              (5, BitVec.ofNat 32 (s.regs[p].scale.val + 256 * v.val), BitVec.ofNat 32 q.val)).toList
        | none => []) ++
      (match overflowing with
        | q :: rest => [(6, BitVec.ofNat 32 q.val, BitVec.ofNat 32 (rest.length + 1))]
        | [] => []) →
    ∃ t, exec (.pointStep b) s = .next t ∧
      (s.regs[p].dueRebase = none → t.requests = s.requests) ∧
      (∀ x, s.regs[p].dueRebase = some x →
        t.requests.slots[x.slot] = .done ∧ x.slot ∉ t.requests.table.map PendingEntry.slot ∧ t.latched .done = true ∧
        t.mem.bytes (slotByte x.slot + 0x88) 8 = leBytes 4 1 ++ leBytes 4 0 ∧
        t.mem.bytes (slotByte x.slot + 0x94) 4 = wordBytes f.interval ∧
        t.mem.bytes (slotByte x.slot + 0x9C) 4 = leBytes 4 x.values.length ∧
        t.mem.bytes (slotByte x.slot + 0xC0) (16 * x.values.length) = t.regs[p].bytes x.first x.values.length) ∧
      (pushes = [] → t.exceptions = s.exceptions) ∧ (pushes ≠ [] → t.latched .exception = true) ∧
      t.exceptions.top = s.exceptions.top - pushes.length ∧
      t.exceptions.lost = s.exceptions.lost + BitVec.ofNat 32 (pushes.length - s.exceptions.top) ∧
      (∀ (i : Nat) (x : BitVec 16 × Word × Word) (n : Fin 64), pushes[i]? = some x → s.exceptions.top = n.val + i + 1 →
        t.exceptions.records[n].tag = .new ∧ t.exceptions.records[n].kind = x.1 ∧
        t.exceptions.records[n].subject = BitVec.ofNat 32 p.val ∧ t.exceptions.records[n].d0 = f.interval ∧
        t.exceptions.records[n].d1 = x.2.1 ∧ t.exceptions.records[n].d2 = x.2.2) ∧
      if s.banks[b].archive = true then
        ∀ u, u = s.writeRecord b s.banks[b].sets[f.set].interval
            ((s.banks[b].sets[f.set].recordHead b e s.regs[p].dueRebase.isSome
              (decide (∃ q : QuantityId, t.regs[p].quantities[q].valid = false))).bytes (s.banks[b].sets[f.set].totals e)) →
          t.writer = u.writer ∧ (∀ a, 24576 ≤ a → t.mem.read a = u.mem.read a) ∧
          t.folds[b].map Fold.lost = u.folds[b].map Fold.lost ∧
          t.folds[b].map Fold.lostCounter = u.folds[b].map Fold.lostCounter
      else t.writer = s.writer ∧ (∀ a, 24576 ≤ a → t.mem.read a = s.mem.read a) ∧
        t.folds[b].map Fold.lost = some f.lost ∧ t.folds[b].map Fold.lostCounter = some f.lostCounter

/-- A scale change that is not abandoned keeps the stored value of every VALID quantity, every quantity's state and the ranges
(R99, R100). -/
def Obligations.ScaleChangeKeepsStoredValue : Prop :=
  ∀ (r : RegisterSet) (v : Fin 4), r.Ok → v ≠ r.scale → (v < r.scale → r.failing (r.scale.val - v.val) = none) →
    (r.rescale v).scale = v ∧ (r.rescale v).staged = none ∧ (r.rescale v).Ok ∧
    ∀ q : QuantityId, (r.rescale v).quantities[q].valid = r.quantities[q].valid ∧
      (r.quantities[q].valid = true → (r.rescale v).quantities[q].stored v = r.quantities[q].stored r.scale)

/-- FOLD_COMPLETION: the bank leaves TURNING or STOPPING, CLOSE is latched under NOTIFY, waiting slots are reported, a close
that may start starts, the last STOP flushes the FILLING page, lost records are pushed (R82, R83, R119, R122). A slot that so
ends has outcome OK, the interval number for a CLOSE of one bank, the count and the list of closed intervals in ascending
bank order (R154, R169, R171). -/
def Obligations.FoldCompletionEndsFold : Prop :=
  ∀ (s : State) (b : BankId) (f : Fold), s.control.ready = true → s.folds[b] = some f → s.nextStep b = none →
    ∃ t, exec (.foldCompletion b) s = .next t ∧
      (if ({ s.banks[b] with phase := s.banks[b].phase.folded } : Bank).mayStart = true ∧ s.control.warm = false then
        ∃ g, t.folds[b] = some g ∧ g.interval = s.banks[b].interval ∧ t.banks[b].held = none
       else t.folds[b] = none ∧ t.banks[b] = { s.banks[b] with phase := s.banks[b].phase.folded }) ∧
      (∀ b', b' ≠ b → t.banks[b'] = s.banks[b'] ∧ t.folds[b'] = s.folds[b']) ∧
      (s.banks[b].notify = true → t.latched .close = true) ∧
      (s.banks[b].phase.folded = .stopped → (∀ b', b' ≠ b → s.banks[b'].phase = .stopped) →
        t.writer.filling = none ∧ (s.writer.filling ≠ none → t.latched .page = true)) ∧
      ((∃ b', b' ≠ b ∧ s.banks[b'].phase ≠ .stopped) → t.writer = s.writer) ∧
      (f.lost = 0 → t.exceptions = s.exceptions) ∧
      (f.lost ≠ 0 → t.latched .exception = true ∧
        (s.exceptions.top = 0 → t.exceptions.top = 0 ∧ t.exceptions.lost = s.exceptions.lost + 1)) ∧
      (f.lost ≠ 0 → ∀ n : Fin 64, s.exceptions.top = n.val + 1 → t.exceptions.top = n.val ∧
        t.exceptions.records[n].kind = 4 ∧ t.exceptions.records[n].subject = BitVec.ofNat 32 b.val ∧
        t.exceptions.records[n].d0 = f.interval ∧ t.exceptions.records[n].d1 = f.lost ∧
        t.exceptions.records[n].d2 = f.lostCounter) ∧
      (s.RequestsOk → ∀ x ∈ s.requests.table, ∀ kind out closed n, x.work = .banks kind out closed →
        out = [(b, .folding n)] → t.requests.slots[x.slot] = .done ∧ t.latched .done = true ∧
          x.slot ∉ t.requests.table.map PendingEntry.slot ∧
          (s.MemoryOk →
            t.mem.bytes (slotByte x.slot + 0x88) 8 = leBytes 4 1 ++ leBytes 4 0 ∧
            t.mem.bytes (slotByte x.slot + 0x9C) 4 = leBytes 4 (closed.length + 1) ∧
            (kind ≠ .closeOne → t.mem.bytes (slotByte x.slot + 0x94) 4 = leBytes 4 0) ∧
            (kind = .closeOne → closed = [] → t.mem.bytes (slotByte x.slot + 0x94) 4 = wordBytes f.interval) ∧
            (((closed ++ [(b, f.interval)]).map Prod.fst).Nodup →
              ∃ list : List (BankId × Word), list.Perm (closed ++ [(b, f.interval)]) ∧
                list.Pairwise (fun y z => y.1 < z.1) ∧
                t.mem.bytes (slotByte x.slot + 0xC0) (8 * list.length) =
                  list.flatMap fun y => leBytes 4 y.1.val ++ wordBytes y.2)))

/-- What CALCULATION, WINDOW_ADDITION, TARIFF_EVENT, POINT_STEP and FOLD_COMPLETION leave unchanged, among it the other banks with
their folds, points and register sets where the event is one bank's; the bytes that the last two store lie in reply areas and in
the pages being filled. -/
def Obligations.AccountingEventsFrame : Prop :=
  ∀ (c : Instr) (s t : State),
    (c = .calculation ∨ (∃ b, c = .windowAddition b) ∨ c = .tariffEvent ∨ (∃ b, c = .pointStep b) ∨
      ∃ b, c = .foldCompletion b) → exec c s = .next t →
    t.links = s.links ∧ t.sorter = s.sorter ∧ t.timing = s.timing ∧ t.control = s.control ∧ t.ld = s.ld ∧
    t.notices.mask = s.notices.mask ∧ t.notices.owner = s.notices.owner ∧
    t.watchCounters.owner = s.watchCounters.owner ∧ t.watchCounters.tag = s.watchCounters.tag ∧
    t.requests.intake = s.requests.intake ∧ t.requests.quotaLimit = s.requests.quotaLimit ∧
    t.requests.quotaCount = s.requests.quotaCount ∧ t.requests.quotaTimer = s.requests.quotaTimer ∧
    (c ≠ .calculation → t.watches = s.watches) ∧
    (c = .calculation → t.banks = s.banks ∧ t.folds = s.folds ∧ t.profiles = s.profiles ∧ t.regs = s.regs) ∧
    (∀ b b' : BankId, c = .windowAddition b ∨ c = .pointStep b ∨ c = .foldCompletion b → b' ≠ b →
      t.banks[b'] = s.banks[b'] ∧ t.folds[b'] = s.folds[b'] ∧
      (∀ i : Fin 5, t.profiles[pointAt b' i] = s.profiles[pointAt b' i]) ∧
      ((c = .pointStep b → s.BanksOk) → ∀ p : SetId, bankOfSet p = b' → t.regs[p] = s.regs[p])) ∧
    (∀ b, c = .pointStep b → t.profiles = s.profiles) ∧
    ((c = .calculation ∨ (∃ b, c = .windowAddition b) ∨ c = .tariffEvent) →
      t.mem = s.mem ∧ t.writer = s.writer ∧ t.requests.slots = s.requests.slots) ∧
    (∀ b, c = .pointStep b ∨ c = .foldCompletion b → s.MemoryOk → s.RegistersOk → s.PagesOk →
      t.accounting = s.accounting ∧ t.bankCounters = s.bankCounters ∧
      s.SameBytes t fun a => (∀ k, ¬ inReply k a) ∧
        ∀ p : PageId, pageByte p ≤ a → a < pageByte p + 4096 →
          c = .foldCompletion b ∨ s.writer.pages[p] ≠ .filling ∧ s.writer.freeQueue.head? ≠ some p)

/-- The bytes of an interval record, field by field (R98, R124, R125, spec 11.4): its 112 bytes of head and fundamental
quantities, and one entry of 24 bytes for each order with a total other than 0, ascending. -/
def Obligations.IntervalRecordForm : Prop :=
  ∀ (x : AccSet) (b : BankId) (e : Fin 6) (rebased regInvalid : Bool) (rec : List Byte) (acc : Vector (BitVec 64) 104)
    (orders : List (Fin 49)),
    rec = (x.recordHead b e rebased regInvalid).bytes (x.totals e) → x.totals e = acc →
    orders = (List.finRange 49).filter (fun j =>
      decide (acc[(⟨6 + 2 * j.val, by omega⟩ : Fin 104)] ≠ 0 ∨ acc[(⟨7 + 2 * j.val, by omega⟩ : Fin 104)] ≠ 0)) →
    rec.length = 112 + 24 * orders.length ∧ rec.take 4 = leBytes 4 rec.length ∧
    (rec.drop 4).take 4 = leBytes 2 (if e.val < 5 then 1 else 2) ++ leBytes 2 orders.length ∧
    (rec.drop 8).take 4 = (if e.val < 5 then leBytes 2 (5 * b.val + e.val) ++ leBytes 2 b.val
      else leBytes 2 40 ++ leBytes 2 0) ∧
    (rec.drop 12).take 16 =
      wordBytes x.interval ++ wordBytes (seqWord x.start) ++ wordBytes (seqWord x.last) ++ wordBytes x.span ∧
    (x.start = none → (rec.drop 16).take 4 = [255, 255, 255, 255]) ∧
    (rec.drop 40).take 4 = leBytes 4 x.causes.code ∧
    (∀ i : Fin 5, e.val = i.val →
      acc = x.entries[i].acc ∧
      (rec.drop 28).take 12 =
        wordBytes x.entries[i].present ++ wordBytes x.entries[i].absent ++ wordBytes x.entries[i].clipped ∧
      (rec.drop 44).take 4 = leBytes 4 (bit x.entries[i].damaged + 2 * bit x.entries[i].maskChanged +
        4 * bit x.entries[i].invert + 8 * bit rebased + 16 * bit regInvalid) ∧
      (rec.drop 48).take 8 = leBytes 8 x.entries[i].mask.toNat) ∧
    (∀ y, e.val = 5 → x.balance = some y →
      acc = y.acc ∧
      (rec.drop 28).take 12 = wordBytes y.balanced ++ wordBytes y.unbalanced ++ leBytes 4 0 ∧
      (rec.drop 44).take 4 = leBytes 4 (bit y.damaged + 8 * bit rebased + 16 * bit regInvalid) ∧
      (rec.drop 48).take 8 = leBytes 8 (2 ^ 49 - 1)) ∧
    (∀ q : Fin 104, q.val < 6 → (rec.drop (56 + 8 * q.val)).take 8 = leBytes 8 acc[q].toNat) ∧
    (rec.drop 104).take 8 = List.replicate 8 0 ∧
    ∀ (i : Nat) (j : Fin 49), orders[i]? = some j →
      (rec.drop (112 + 24 * i)).take 24 = leBytes 2 (j.val + 2) ++ List.replicate 6 0 ++
        leBytes 8 acc[(⟨6 + 2 * j.val, by omega⟩ : Fin 104)].toNat ++
        leBytes 8 acc[(⟨7 + 2 * j.val, by omega⟩ : Fin 104)].toNat

/-- A record that fits is placed behind the last one and the page header is updated (R116, R117); one that does not fit fills
the page, takes the next, and stands first on it (R115, R117); one that needs a page when none is free is lost and counted
(R118). -/
def Obligations.RecordIsPlacedOrLost : Prop :=
  ∀ (s : State) (b : BankId) (n : Word) (rec : List Byte), s.MemoryOk → 112 ≤ rec.length →
    (∀ f, s.writer.filling = some f → f.used + rec.length ≤ 4032 →
      (s.writeRecord b n rec).mem.bytes (pageByte f.page + 64 + f.used) rec.length = rec ∧
      (s.writeRecord b n rec).mem.bytes (pageByte f.page + 4) 4 = leBytes 4 (f.count + 1) ∧
      (s.writeRecord b n rec).mem.bytes (pageByte f.page + 8) 4 =
        (if f.count = 0 then wordBytes n else s.mem.bytes (pageByte f.page + 8) 4) ∧
      (s.writeRecord b n rec).mem.bytes (pageByte f.page + 12) 4 = wordBytes n ∧
      (s.writeRecord b n rec).mem.bytes (pageByte f.page + 20) 4 = leBytes 4 (f.used + rec.length) ∧
      (s.writeRecord b n rec).writer.lost = s.writer.lost ∧
      (if f.used + rec.length ≤ 3920 then
        (s.writeRecord b n rec).writer.filling =
          some ⟨f.page, f.used + rec.length, f.count + 1, if f.count = 0 then n else f.first, n⟩
       else (s.writeRecord b n rec).writer.filling = none ∧ (s.writeRecord b n rec).writer.pages[f.page] = .filled ∧
        (s.writeRecord b n rec).latched .page = true)) ∧
    (∀ p rest, s.PagesOk → s.writer.freeQueue = p :: rest → rec.length ≤ 1288 →
      (∀ f, s.writer.filling = some f → 4032 < f.used + rec.length) →
      (s.writeRecord b n rec).writer.pageSeq = s.writer.pageSeq + 1 ∧ (s.writeRecord b n rec).writer.gapLoss = 0 ∧
      (s.writeRecord b n rec).writer.lost = s.writer.lost ∧ (s.writeRecord b n rec).writer.freeQueue = rest ∧
      (s.writeRecord b n rec).writer.filling = some ⟨p, rec.length, 1, n, n⟩ ∧
      (s.writeRecord b n rec).writer.pages[p] = .filling ∧
      (s.writeRecord b n rec).mem.bytes (pageByte p) 24 =
        wordBytes (s.writer.pageSeq + 1) ++ leBytes 4 1 ++ wordBytes n ++ wordBytes n ++ wordBytes s.writer.gapLoss ++
          leBytes 4 rec.length ∧
      (s.writeRecord b n rec).mem.bytes (pageByte p + 24) 40 = List.replicate 40 0 ∧
      (s.writeRecord b n rec).mem.bytes (pageByte p + 64) rec.length = rec ∧
      (∀ x, pageByte p + 64 + rec.length ≤ x → x < pageByte p + 4096 → (s.writeRecord b n rec).mem.read x = 0) ∧
      ∀ f, s.writer.filling = some f →
        (s.writeRecord b n rec).writer.pages[f.page] = .filled ∧ (s.writeRecord b n rec).latched .page = true) ∧
    (s.writer.freeQueue = [] → (∀ f, s.writer.filling = some f → 4032 < f.used + rec.length) →
      (s.writeRecord b n rec).writer.lost = s.writer.lost + 1 ∧
      (s.writeRecord b n rec).writer.gapLoss = s.writer.gapLoss + 1 ∧
      (s.writeRecord b n rec).writer.filling = none ∧ (s.writeRecord b n rec).mem = s.mem ∧
      ∀ f, s.folds[b] = some f → (s.writeRecord b n rec).folds[b] =
        some { f with lost := f.lost + 1, lostCounter := s.writer.lost + 1 })

/-! ### Memory errors of the two tables -/

/-- Memory errors of the accounting table. A read of a word corrects and counts a single-bit error; an uncorrectable one is
reported, the word rewritten as 0, and DAMAGED set on its entry, or on every entry for a word of the set (R72, R190, R191).
READ_OPEN returns what it so reads (R87), and a point step folds a lost total as 0 and records it (R97, R124). The words of
an entry are assumption 23; the item field for a word of the set is free (assumption 10). -/
def Obligations.AccountingTableErrors : Prop :=
  (∀ (s t : State) (w : AccWord), s.checkAcc w = t →
    (s.ecc.accounting.lookup w = none → t = s) ∧
    (s.ecc.accounting.lookup w ≠ none → t.ecc.accounting = s.ecc.accounting.filter (fun m => decide (m.1 ≠ w))) ∧
    (s.ecc.accounting.lookup w = some .single → t.banks = s.banks ∧ t.capture = s.capture ∧
      t.watchCounters = { s.watchCounters with corrected := s.watchCounters.corrected + 1 }) ∧
    (s.ecc.accounting.lookup w = some .uncorrectable →
      s.Reported t .accounting (fun location => match w.item with
        | .acc e q => location = w.place e q.val
        | .present e => location = w.place e 104
        | .absent e => location = w.place e 105
        | .clipped e => location = w.place e 106
        | .flag e | .mask e | .invert e => location = w.place e 107
        | .interval | .start | .last | .span | .causes =>
          location.toNat / 256 = 255 + 256 * w.set.val + 65536 * w.bank.val) ∧
      t.watchCounters = s.watchCounters ∧
      t.banks = s.banks.set w.bank { s.banks[w.bank] with
        sets := s.banks[w.bank].sets.set w.set t.banks[w.bank].sets[w.set] } ∧
      match w.item with
      | .acc e q => s.banks[w.bank].sets[w.set].EntryLost t.banks[w.bank].sets[w.set] e
          (fun z => { z with acc := z.acc.set q 0 }) (fun z => { z with acc := z.acc.set q 0 })
      | .present e => s.banks[w.bank].sets[w.set].EntryLost t.banks[w.bank].sets[w.set] e
          (fun z => { z with present := 0 }) (fun z => { z with balanced := 0 })
      | .absent e => s.banks[w.bank].sets[w.set].EntryLost t.banks[w.bank].sets[w.set] e
          (fun z => { z with absent := 0 }) (fun z => { z with unbalanced := 0 })
      | .clipped e => s.banks[w.bank].sets[w.set].EntryLost t.banks[w.bank].sets[w.set] e
          (fun z => { z with clipped := 0 }) (fun z => z)
      | .flag e => s.banks[w.bank].sets[w.set].EntryLost t.banks[w.bank].sets[w.set] e
          (fun z => { z with maskChanged := false }) (fun z => z)
      | .mask e => s.banks[w.bank].sets[w.set].EntryLost t.banks[w.bank].sets[w.set] e
          (fun z => { z with mask := 0 }) (fun z => z)
      | .invert e => s.banks[w.bank].sets[w.set].EntryLost t.banks[w.bank].sets[w.set] e
          (fun z => { z with invert := false }) (fun z => z)
      | .interval => s.banks[w.bank].sets[w.set].SetLost t.banks[w.bank].sets[w.set] (fun x => { x with interval := 0 })
      | .start => s.banks[w.bank].sets[w.set].SetLost t.banks[w.bank].sets[w.set] (fun x => { x with start := some 0 })
      | .last => s.banks[w.bank].sets[w.set].SetLost t.banks[w.bank].sets[w.set] (fun x => { x with last := some 0 })
      | .span => s.banks[w.bank].sets[w.set].SetLost t.banks[w.bank].sets[w.set] (fun x => { x with span := 0 })
      | .causes => s.banks[w.bank].sets[w.set].SetLost t.banks[w.bank].sets[w.set]
          (fun x => { x with causes := ⟨false, false, false, false, false⟩ }))) ∧
  (∀ (s : State) (k : SlotId) (rest : List SlotId) (p : SetId) (i : Fin 2) (first count : Nat) (x : AccSet)
    (lost : AccItem → Bool), s.MemoryOk → s.Head k rest .readOpen → s.param k 0x10 2 = p.val → s.param k 0x12 2 = first →
    s.param k 0x14 2 = count → 1 ≤ count → count ≤ 40 → first + count ≤ 104 → s.optionWord k ≤ 1 →
    (if s.optionWord k = 1 then s.banks[bankOfSet p].previous
      else s.banks[bankOfSet p].phase.accumulating) = some i → s.banks[bankOfSet p].sets[i] = x →
    (∀ it, lost it = decide (s.ecc.accounting.lookup ⟨bankOfSet p, i, it⟩ = some .uncorrectable)) →
    ∃ t, exec .readOpen s = .next t ∧
      s.Ended t k rest .done { okReply with
        interval := if lost .interval = true then 0 else x.interval
        windows := if lost .span = true then 0 else x.span
        count := if lost (.present (entryOf p)) = true then 0 else (x.presentOf (entryOf p)).toNat
        data := (quantityRange first count).flatMap fun q =>
          leBytes 8 (if lost (.acc (entryOf p) q) = true then 0 else (x.totals (entryOf p))[q].toNat) } ∧
      ∀ j : Fin 5, (t.banks[bankOfSet p].sets[i].entries[j].damaged = true ↔
        x.entries[j].damaged = true ∨ lost .interval = true ∨ lost .span = true ∨
        j.val = (entryOf p).val ∧ (lost (.present (entryOf p)) = true ∨
          ∃ q : QuantityId, first ≤ q.val ∧ q.val < first + count ∧ lost (.acc (entryOf p) q) = true)) ∧
      ∀ z, x.balance = some z → ∃ z', t.banks[bankOfSet p].sets[i].balance = some z' ∧ (z'.damaged = true ↔
        z.damaged = true ∨ lost .interval = true ∨ lost .span = true ∨
        (entryOf p).val = 5 ∧ (lost (.present (entryOf p)) = true ∨
          ∃ q : QuantityId, first ≤ q.val ∧ q.val < first + count ∧ lost (.acc (entryOf p) q) = true))) ∧
  ∀ (s : State) (b : BankId) (f : Fold) (e : Fin 6) (q : QuantityId) (y : AccSet), s.control.ready = true →
    s.nextStep b = some (f, e) → s.ecc.registers = [] → s.ecc.accounting = [(⟨b, f.set, .acc e q⟩, .uncorrectable)] →
    s.banks[b].sets[f.set].EntryLost y e (fun z => { z with acc := z.acc.set q 0 })
      (fun z => { z with acc := z.acc.set q 0 }) →
    ∃ t u, exec (.pointStep b) s = .next t ∧ exec (.pointStep b) { s with
        banks := s.banks.set b { s.banks[b] with sets := s.banks[b].sets.set f.set y }
        ecc := { s.ecc with accounting := [] } } = .next u ∧
      t.banks = u.banks ∧ t.regs = u.regs ∧ t.mem = u.mem ∧ t.writer = u.writer ∧ t.folds = u.folds ∧ t.capture ≠ none

/-- Memory errors of the register store. A read of a word corrects and counts a single-bit error; an uncorrectable one is
reported with its place and has the effect of R109 or R110: a quantity lost is 0, 0, INVALID, a scale lost loses every
quantity, and a pending REBASE lost is removed and its slot refused MEMORY (R108, R155, R190, R191). READ_REGISTERS returns
what it so reads (R105), and a step whose pending REBASE is lost applies none. A pending REBASE is one word (assumption 34). -/
def Obligations.RegisterStoreErrors : Prop :=
  (∀ (s t : State) (p : SetId) (it : RegItem), s.checkReg p it = t →
    (s.ecc.registers.lookup ⟨p, it⟩ = none → t = s) ∧
    (s.ecc.registers.lookup ⟨p, it⟩ ≠ none → t.ecc.registers.lookup ⟨p, it⟩ = none) ∧
    (s.ecc.registers.lookup ⟨p, it⟩ = some .single → t.regs = s.regs ∧ t.capture = s.capture ∧
      t.watchCounters = { s.watchCounters with corrected := s.watchCounters.corrected + 1 }) ∧
    (s.ecc.registers.lookup ⟨p, it⟩ = some .uncorrectable →
      s.Reported t .registers (fun location => location = BitVec.ofNat 32 (256 * p.val + match it with
        | .register q | .residue q | .state q => q.val
        | .scale | .staged | .lastFolded | .rebase => 255)) ∧
      t.watchCounters = s.watchCounters ∧
      t.regs = s.regs.set p (match it with
        | .register q | .residue q | .state q =>
          { s.regs[p] with quantities := s.regs[p].quantities.set q ⟨0, 0, false⟩ }
        | .scale => { s.regs[p] with scale := 0, staged := none, quantities := Vector.replicate 104 ⟨0, 0, false⟩ }
        | .staged => { s.regs[p] with staged := none }
        | .lastFolded => { s.regs[p] with lastFolded := 0 }
        | .rebase => { s.regs[p] with rebase := none }) ∧
      (it ≠ .rebase → t.requests = s.requests ∧ t.mem = s.mem) ∧
      ∀ x, it = .rebase → s.regs[p].rebase = some x →
        t.requests.slots[x.slot] = .refused ∧ x.slot ∉ t.requests.table.map PendingEntry.slot ∧ t.latched .done = true ∧
        (s.MemoryOk → t.mem.bytes (slotByte x.slot + 0x88) 8 = leBytes 4 0 ++ leBytes 4 10))) ∧
  (∀ (s : State) (k : SlotId) (rest : List SlotId) (p : SetId) (first count : Nat) (lost : RegItem → Bool), s.MemoryOk →
    s.Head k rest .readRegisters → s.param k 0x10 2 = p.val → s.param k 0x12 2 = first → s.param k 0x14 2 = count →
    1 ≤ count → count ≤ 20 → first + count ≤ 104 → s.optionWord k = 0 →
    (∀ it, lost it = decide (s.ecc.registers.lookup ⟨p, it⟩ = some .uncorrectable)) →
    ∃ t r, exec .readRegisters s = .next t ∧ t.regs = s.regs.set p r ∧ r.rebase = s.regs[p].rebase ∧
      r.scale = (if lost .scale = true then 0 else s.regs[p].scale) ∧
      r.staged = (if lost .scale = true then none else s.regs[p].staged) ∧
      r.lastFolded = (if lost .lastFolded = true then 0 else s.regs[p].lastFolded) ∧
      (∀ q : QuantityId, r.quantities[q] =
        if lost .scale = true ∨ first ≤ q.val ∧ q.val < first + count ∧
            (lost (.register q) = true ∨ lost (.residue q) = true ∨ lost (.state q) = true) then ⟨0, 0, false⟩
        else s.regs[p].quantities[q]) ∧
      s.Ended t k rest .done
        { okReply with interval := r.lastFolded, count := count, data := r.bytes first count }) ∧
  ∀ (s : State) (b : BankId) (f : Fold) (e : Fin 6) (p : SetId) (x : PendingRebase), s.control.ready = true →
    s.nextStep b = some (f, e) → p = entryPoint b e → s.regs[p].rebase = some x → s.ecc.accounting = [] →
    s.ecc.registers = [(⟨p, .rebase⟩, .uncorrectable)] →
    ∃ t u, exec (.pointStep b) s = .next t ∧ exec (.pointStep b) { s with
        regs := s.regs.set p { s.regs[p] with rebase := none }, ecc := { s.ecc with registers := [] } } = .next u ∧
      t.regs = u.regs ∧ t.writer = u.writer ∧ t.folds = u.folds ∧ (∀ a, 24576 ≤ a → t.mem.read a = u.mem.read a) ∧
      t.requests.slots[x.slot] = .refused ∧ x.slot ∉ t.requests.table.map PendingEntry.slot

/-! ### The host port -/

/-- HOST_WRITE of an ordinary word: stored byte by byte when the host owns it, else dropped as an owner violation, whose record
copies the aligned block of 32 bytes (R132 to R134, R138); a write with no byte enabled is ignored (R132). That a copy of the
watch counters shows the violation already counted is the model's choice (assumption 21). -/
def Obligations.HostWriteToOrdinaryWord : Prop :=
  ∀ (s : State) (la : BitVec 16) (data : Word) (be : BitVec 4), s.control.ready = true → s.MemoryOk →
    guardedAt la = none →
    (be = 0 → exec (.hostWrite la data be) s = .next s) ∧
    (be ≠ 0 → s.hostOwns (areaAt la) = true → ∃ t, exec (.hostWrite la data be) s = .next t ∧
      (∀ j : Fin 4, t.mem.read (4 * la.toNat + j.val) =
        if be.getLsbD j.val = true then data.extractLsb' (8 * j.val) 8
        else if s.badWord la.toNat = true then 0 else s.mem.read (4 * la.toNat + j.val)) ∧
      s.SameBytes t (fun a => a < 4 * la.toNat ∨ 4 * la.toNat + 4 ≤ a) ∧
      t.exceptions = s.exceptions ∧ t.requests = s.requests ∧ t.writer = s.writer ∧
      t.watchCounters.owner = s.watchCounters.owner ∧ t.watchCounters.tag = s.watchCounters.tag) ∧
    (be ≠ 0 → s.hostOwns (areaAt la) = false → ∃ t, exec (.hostWrite la data be) s = .next t ∧ t.mem = s.mem ∧
      t.requests = s.requests ∧ t.writer = s.writer ∧ t.notices.owner = true ∧
      t.watchCounters.owner = s.watchCounters.owner + 1 ∧ t.watchCounters.tag = s.watchCounters.tag ∧
      (s.notices.owner = true → t.exceptions = s.exceptions) ∧
      (s.notices.owner = false → t.latched .exception = true ∧
        (s.exceptions.top = 0 → t.exceptions.lost = s.exceptions.lost + 1) ∧
        ∀ n : Fin 64, s.exceptions.top = n.val + 1 → t.exceptions.top = n.val ∧ t.exceptions.records[n].tag = .new ∧
          t.exceptions.records[n].kind = 2 ∧
          t.exceptions.records[n].subject = BitVec.ofNat 32 (areaAt la).subject ∧
          t.exceptions.records[n].d0 = BitVec.ofNat 32 (4 * la.toNat + 16777216 * be.toNat) ∧
          t.exceptions.records[n].d1 = data ∧ t.exceptions.records[n].d2 = 0 ∧
          (168 ≤ 8 * (la.toNat / 8) → ∀ j : Fin 8,
            t.exceptions.records[n].copy[j] = s.wordAsRead (8 * (la.toNat / 8) + j.val)) ∧
          ((∀ j : Fin 8, s.ecc.exchange.lookup (8 * (la.toNat / 8) + j.val) = none) → ∀ j : Fin 8,
            t.exceptions.records[n].copy[j] =
              ({ s with watchCounters := { s.watchCounters with owner := s.watchCounters.owner + 1 } } : State).word
                (8 * (la.toNat / 8) + j.val))))

/-- HOST_WRITE of a guarded word: ignored with no byte enabled (R132), filtered, a legal change, or a tag violation for any
other value or state and for a partial write, whose record copies the first 32 bytes of the slot, page header or exception
record (R135 to R137, R147, R157, R183). -/
def Obligations.HostWriteToGuardedWord : Prop :=
  ∀ (s : State) (la : BitVec 16) (data : Word) (be : BitVec 4) (g : Guarded), s.control.ready = true →
    guardedAt la = some g →
    (be = 0 → exec (.hostWrite la data be) s = .next s) ∧
    (be = 15 → data = s.heldCode g → exec (.hostWrite la data be) s = .next s) ∧
    (be = 15 → data ≠ s.heldCode g →
      (∀ k, g = .slot k → s.requests.slots[k] = .free → data = 1 → ∃ t, exec (.hostWrite la data be) s = .next t ∧
        t.requests = { s.requests with slots := s.requests.slots.set k .posted, intake := s.requests.intake ++ [k] } ∧
        t.mem = s.mem) ∧
      (∀ k, g = .slot k → s.requests.slots[k] = .done ∨ s.requests.slots[k] = .refused → data = 0 →
        ∃ t, exec (.hostWrite la data be) s = .next t ∧
          t.requests = { s.requests with slots := s.requests.slots.set k .free } ∧ t.mem = s.mem) ∧
      (∀ p, g = .page p → s.writer.pages[p] = .filled → data = 3 → ∃ t, exec (.hostWrite la data be) s = .next t ∧
        t.writer = { s.writer with pages := s.writer.pages.set p .returned, returns := s.writer.returns ++ [p] } ∧
        t.mem = s.mem) ∧
      (∀ i, g = .record i → s.exceptions.records[i].tag = .new → data = 2 →
        ∃ t, exec (.hostWrite la data be) s = .next t ∧ t.exceptions.records[i].tag = .acked ∧
          t.exceptions.lost = s.exceptions.lost ∧ t.mem = s.mem ∧
          (s.StackOk → t.StackOk ∧ s.exceptions.top ≤ t.exceptions.top))) ∧
    (be ≠ 0 → (be ≠ 15 ∨ data ≠ s.heldCode g ∧
        ¬(∃ k, g = .slot k ∧ (s.requests.slots[k] = .free ∧ data = 1 ∨
          (s.requests.slots[k] = .done ∨ s.requests.slots[k] = .refused) ∧ data = 0)) ∧
        ¬(∃ p, g = .page p ∧ s.writer.pages[p] = .filled ∧ data = 3) ∧
        ¬∃ i, g = .record i ∧ s.exceptions.records[i].tag = .new ∧ data = 2) → ∃ t, exec (.hostWrite la data be) s = .next t ∧
      t.heldCode g = (match g with
        | .record i => if i.val + 1 = s.exceptions.top ∧ s.exceptions.top ≤ 64 then 1 else s.heldCode g
        | _ => s.heldCode g) ∧
      t.mem = s.mem ∧ t.requests = s.requests ∧ t.writer = s.writer ∧
      t.watchCounters.tag = s.watchCounters.tag + 1 ∧ t.watchCounters.owner = s.watchCounters.owner ∧
      t.notices.owner = s.notices.owner ∧ t.latched .exception = true ∧
      (s.exceptions.top = 0 → t.exceptions.lost = s.exceptions.lost + 1) ∧
      ∀ n : Fin 64, s.exceptions.top = n.val + 1 → t.exceptions.top = n.val ∧ t.exceptions.records[n].kind = 1 ∧
        t.exceptions.records[n].subject = BitVec.ofNat 32 g.subject ∧
        t.exceptions.records[n].d0 = BitVec.ofNat 32 (4 * la.toNat + 16777216 * be.toNat) ∧
        t.exceptions.records[n].d1 = data ∧ t.exceptions.records[n].d2 = s.heldCode g ∧
        ∀ j : Fin 8, t.exceptions.records[n].copy[j] = s.wordAsRead ((match g with
          | .slot k => 1024 + 128 * k.val
          | .page p => 6144 + 1024 * p.val
          | .record i => 5120 + 16 * i.val) + j.val))

/-- HOST_READ: a clean word, a corrected word, an uncorrectable word met with an empty and with a frozen capture record, a
register (R130, R138, R139, R191). The words of the header
page, slot tags and exception tags are the state of their blocks (R64, R129, spec 11.6). That the word stands on LD afterwards
is assumption 25; that the images follow their blocks at once is assumption 7. -/
def Obligations.HostReadReturnsWordAndImages : Prop :=
  ∀ (s : State) (la : BitVec 16), s.control.ready = true →
    (s.ecc.exchange.lookup la.toNat = none → exec (.hostRead false la) s = .next { s with ld := s.word la.toNat }) ∧
    (s.ecc.exchange.lookup la.toNat = some .single → ∃ t, exec (.hostRead false la) s = .next t ∧
      t.ld = s.word la.toNat ∧ t.watchCounters.corrected = s.watchCounters.corrected + 1 ∧
      t.ecc.exchange.lookup la.toNat = none ∧ t.capture = s.capture ∧ t.mem = s.mem) ∧
    (∀ v, s.ecc.exchange.lookup la.toNat = some (.uncorrectable v) → ∃ t, exec (.hostRead false la) s = .next t ∧
      t.ld = v ∧ t.watchCounters = s.watchCounters ∧ t.mem = s.mem ∧
      (s.capture = none → t.capture = some ⟨.exchange, BitVec.ofNat 32 (4 * la.toNat), s.sorter.lastHanded, 0⟩ ∧
        t.latched .capture = true) ∧
      ∀ c, s.capture = some c → t.capture = some { c with second := min (c.second + 1) 255 } ∧ t.notices = s.notices) ∧
    exec (.hostRead true la) s = .next { s with ld := s.readRegister la } ∧
    (∀ l : LinkId, s.word (8 + l.val) = BitVec.ofNat 32 (s.links[l].state.code + 256 * s.links[l].errors.code) ∧
      s.word (128 + 3 * l.val) = s.links[l].good ∧ s.word (129 + 3 * l.val) = s.links[l].bad ∧
      s.word (130 + 3 * l.val) = s.links[l].lost) ∧
    (∀ b : BankId, s.word (16 + 4 * b.val) = BitVec.ofNat 32 s.banks[b].phase.code ∧
      s.word (17 + 4 * b.val) = s.banks[b].interval ∧
      (∀ a, s.banks[b].phase.accumulating = some a → s.word (18 + 4 * b.val) = s.banks[b].sets[a].span) ∧
      (s.banks[b].phase.accumulating = none → s.word (18 + 4 * b.val) = 0) ∧
      (∀ h, s.banks[b].held = some h → s.word (19 + 4 * b.val) = BitVec.ofNat 32 h.causes.code) ∧
      (s.banks[b].held = none → s.word (19 + 4 * b.val) = 0)) ∧
    s.word 48 = BitVec.ofNat 32 s.writer.freeQueue.length ∧
    (∀ f, s.writer.filling = some f → s.word 49 = BitVec.ofNat 32 (f.page.val + 6)) ∧
    (s.writer.filling = none → s.word 49 = 0) ∧ s.word 50 = BitVec.ofNat 32 (64 * s.exceptions.top) ∧
    (∀ c, s.capture = some c → s.word 52 = c.store.code ∧ s.word 53 = c.location ∧ s.word 54 = seqWord c.lastHanded ∧
      s.word 55 = BitVec.ofNat 32 (1 + 256 * c.second)) ∧
    (s.capture = none → s.word 52 = 0 ∧ s.word 53 = 0 ∧ s.word 54 = 0xFFFFFFFF ∧ s.word 55 = 0) ∧
    (∀ p : PageId, s.word (64 + p.val) = s.writer.pages[p].code) ∧
    (List.range 15).map (fun j => s.word (146 + j)) =
      [s.sorter.late, s.sorter.duplicate, s.sorter.unmapped, s.sorter.unexpected, s.sorter.halted, s.sorter.discarded,
       s.bankCounters.accounted, s.bankCounters.missing, s.bankCounters.ignoredTariff, s.bankCounters.notAccounted,
       s.writer.lost, s.exceptions.lost, s.watchCounters.owner, s.watchCounters.tag, s.watchCounters.corrected] ∧
    (∀ k : SlotId, s.word (1024 + 128 * k.val) = s.requests.slots[k].code) ∧
    ∀ i : Fin 64, s.word (5120 + 16 * i.val) = s.exceptions.records[i].tag.code

/-- RETURN_TAKE: the oldest return joins the free queue's tail (R120). QUOTA_TIMER_EXPIRY refreshes the quota (R149). That
RETURN_TAKE with no return and QUOTA_TIMER_EXPIRY with the timer stopped change nothing is the model's choice
(assumption 1). -/
def Obligations.ReturnTakeAndQuotaExpiry : Prop :=
  ∀ s : State, s.control.ready = true →
    (∀ p rest, s.writer.returns = p :: rest → ∃ t, exec .returnTake s = .next t ∧
      t.writer = { s.writer with
        pages := s.writer.pages.set p .free, freeQueue := s.writer.freeQueue ++ [p], returns := rest } ∧
      t = { s with writer := t.writer, ecc := { s.ecc with exchange := t.ecc.exchange } }) ∧
    (s.writer.returns = [] → exec .returnTake s = .next s) ∧
    (s.requests.quotaTimer ≠ none → exec .quotaTimerExpiry s =
      .next { s with requests := { s.requests with quotaCount := 0, quotaTimer := some 250 } }) ∧
    (s.requests.quotaTimer = none → exec .quotaTimerExpiry s = .next s)

/-- A push is stored below the stack pointer, or counted in the top record of a full stack; both latch EXCEPTION (R181,
R182, R187). -/
def Obligations.PushIsStoredOrCounted : Prop :=
  ∀ (s : State) (kind : ExceptionKind) (subject d0 d1 d2 : Word) (copy : Vector Word 8),
    (s.push kind subject d0 d1 d2 copy).notices = { s.notices with latched := s.notices.latched ||| Cause.exception.flag } ∧
    (∀ n : Fin 64, s.exceptions.top = n.val + 1 →
      (s.push kind subject d0 d1 d2 copy).exceptions =
        { s.exceptions with
          top := n.val
          records := s.exceptions.records.set n
            { tag := .new, kind := kind.code, lostAfter := 0, lastHanded := seqWord s.sorter.lastHanded
              summary := s.bankSummary, subject := subject, d0 := d0, d1 := d1, d2 := d2, copy := copy } }) ∧
    (s.exceptions.top = 0 →
      (s.push kind subject d0 d1 d2 copy).exceptions.top = 0 ∧
      (s.push kind subject d0 d1 d2 copy).exceptions.lost = s.exceptions.lost + 1 ∧
      (s.push kind subject d0 d1 d2 copy).exceptions.records[(0 : Fin 64)] =
        { s.exceptions.records[(0 : Fin 64)] with
          lostAfter := if s.exceptions.records[(0 : Fin 64)].lostAfter = 65535 then 65535
            else s.exceptions.records[(0 : Fin 64)].lostAfter + 1 } ∧
      ∀ i : Fin 64, i ≠ 0 → (s.push kind subject d0 d1 d2 copy).exceptions.records[i] = s.exceptions.records[i])

/-! ### Requests -/

/-- BAD_KIND: the take of a request with an uncorrectable word is refused MEMORY, of one of unknown kind BAD_KIND (R150,
R151). The echo of a damaged serial number is DEDUCED (assumption 15); that a SET_POINT refused MEMORY has no profile echo
is DEDUCED (assumption 20). SET_BANK: BAD_PARAM, STATE, or the three attributes written (R165). -/
def Obligations.BadKindAndSetBank : Prop :=
  (∀ (s : State) (k : SlotId) (rest : List SlotId), s.MemoryOk → s.Head k rest .badKind →
      ∃ t, exec .badKind s = .next t ∧
        s.Ended t k rest .refused (refusal (if s.requestBad k then .memory else .badKind)) ∧
        (s.requestBad k = true → t.capture ≠ none)) ∧
  (∀ (s : State) (k : SlotId) (rest : List SlotId), s.MemoryOk → s.Head k rest .setBank →
      ∃ t, exec .setBank s = .next t ∧
        (7 < s.param k 0x10 4 ∨ 7 < s.optionWord k → s.Ended t k rest .refused (refusal .badParam) ∧ t.banks = s.banks) ∧
        ∀ b : BankId, s.param k 0x10 4 = b.val → s.optionWord k ≤ 7 →
          if s.banks[b].billing = true ∧ s.optionBit k 0 = false ∧ s.banks[b].phase ≠ .stopped then
            s.Ended t k rest .refused (refusal .state) ∧ t.banks = s.banks
          else
            t.banks = s.banks.set b { s.banks[b] with
              billing := s.optionBit k 0, notify := s.optionBit k 1, archive := s.optionBit k 2 } ∧
            s.Ended t k rest .done { okReply with
              interval := s.banks[b].interval
              data := leBytes 4 (s.optionWord k) ++ leBytes 4 s.banks[b].phase.code })

/-- SET_POINT over a register store without errors: its checks in order, the profile it writes, and the echo (R162 to R164,
R93). Its parameters pass BAD_PARAM exactly in the ranges that R162 gives. That the echo of a mapping of none has port byte 0 is
DEDUCED (assumption 26). -/
def Obligations.SetPointWritesProfile : Prop :=
  (∀ (s : State) (k : SlotId),
    ((s.pointRequest k).isSome = true ↔
      s.param k 0x12 1 ≤ 1 ∧ 1 ≤ s.param k 0x13 1 ∧ s.param k 0x13 1 ≤ 3 ∧
      (s.param k 0x14 1 = 255 ∨ s.param k 0x14 1 ≤ 5 ∧ s.param k 0x15 1 ≤ 7) ∧ s.param k 0x16 1 ≤ 1 ∧
      s.param k 0x17 1 ≤ 3 ∧ s.optionWord k = 0) ∧
    ∀ r, s.pointRequest k = some r →
      r.enable = decide (s.param k 0x12 1 = 1) ∧ r.role.code = s.param k 0x13 1 ∧
      (s.param k 0x14 1 = 255 → r.mapping = none) ∧
      (s.param k 0x14 1 ≠ 255 → ∃ (l : LinkId) (port : Fin 8), r.mapping = some (l, port) ∧
        l.val = s.param k 0x14 1 ∧ port.val = s.param k 0x15 1) ∧
      r.invert = decide (s.param k 0x16 1 = 1) ∧ r.scale.val = s.param k 0x17 1 ∧
      ∀ j : Fin 49, r.mask.getLsbD j.val =
        if j.val < 32 then (s.requestWord k 6).getLsbD j.val else (s.requestWord k 7).getLsbD (j.val - 32)) ∧
  ∀ (s : State) (k : SlotId) (rest : List SlotId), s.MemoryOk → s.ecc.registers = [] → s.Head k rest .setPoint →
    ∃ t, exec .setPoint s = .next t ∧
      (40 ≤ s.param k 0x10 2 → s.Ended t k rest .refused (refusal .badPoint) ∧ t.profiles = s.profiles ∧ t.regs = s.regs) ∧
      ∀ p : PointId, s.param k 0x10 2 = p.val →
        ∃ st reply, s.Ended t k rest st
            { reply with interval := s.banks[bankOf p].interval, data := t.profiles[p].echo t.regs[setOf p] } ∧
          match s.pointRequest k with
          | none => st = .refused ∧ reply = refusal .badParam ∧ t.profiles = s.profiles ∧ t.regs = s.regs
          | some r =>
            match s.mappingHolder p r.mapping with
            | some i => st = .refused ∧ reply = { refusal .conflict with count := i.val } ∧ t.profiles = s.profiles ∧
                t.regs = s.regs
            | none =>
              if s.profiles[p].refusesRole p r.role = true then
                st = .refused ∧ reply = refusal .role ∧ t.profiles = s.profiles ∧ t.regs = s.regs
              else if s.regs[setOf p].refusesScale r.scale = true then
                st = .refused ∧ reply = refusal .scale ∧ t.profiles = s.profiles ∧ t.regs = s.regs
              else
                st = .done ∧ reply = okReply ∧
                t.profiles = s.profiles.set p { s.profiles[p] with
                  invert := r.invert, mask := r.mask
                  stagedEnable := if r.enable = s.profiles[p].enable then none else some r.enable
                  stagedRole := if r.role = s.profiles[p].role then none else some r.role
                  stagedMapping := if r.mapping = s.profiles[p].mapping then none else some r.mapping } ∧
                t.regs = s.regs.set (setOf p) { s.regs[setOf p] with
                  staged := if r.scale = s.regs[setOf p].scale then none else some ⟨r.scale, false⟩ } ∧
                (s.profiles[p].mask ≠ r.mask ∨ s.profiles[p].invert ≠ r.invert →
                  ∀ e ∈ t.sorter.queue, e.handed = false → ∀ x ∈ e.expected, x.point = p → x.changeMark = true) ∧
                (s.profiles[p].mask = r.mask → s.profiles[p].invert = r.invert → t.sorter = s.sorter)

/-- SET_TIMING with action NONE or an undefined one, and START: BAD_PARAM exactly outside the ranges of R166, STATE, or the
settings written and, for START, every STOPPED bank opened on a set zeroed in every field with in-use marks, masks and INVERT
by the profiles applied (R61), its other set kept, the window in accounting set aside there once it is calculated (R84, R166
to R168). That an undefined action comes under the SET_TIMING row is the model's choice (assumption 14). -/
def Obligations.SetTimingAndStart : Prop :=
  (∀ (s : State) (k : SlotId) (r : TimingRequest), s.timingRequest k = some r ↔
    s.param k 0x10 4 ≤ 1 ∧ s.param k 0x14 4 ∈ [300, 1500, 3000, 4500, 9000, 18000] ∧
    1 ≤ s.param k 0x18 4 ∧ s.param k 0x18 4 ≤ s.param k 0x14 4 ∧ 50 ≤ s.param k 0x1C 4 ∧ s.param k 0x1C 4 ≤ 1000 ∧
    1 ≤ s.param k 0x20 4 ∧ s.param k 0x20 4 ≤ 32 ∧ s.param k 0x24 4 ≤ 2 ∧ s.optionWord k = 0 ∧
    r.timing = ⟨decide (s.param k 0x10 4 = 1), s.param k 0x14 4, s.param k 0x18 4⟩ ∧ r.timeout = s.param k 0x1C 4 ∧
    r.quota = s.param k 0x20 4) ∧
  ∀ (s : State) (k : SlotId) (rest : List SlotId), s.MemoryOk →
    (s.Head k rest .setTiming → ∃ t, exec .setTiming s = .next t ∧ t.banks = s.banks ∧
      match s.timingRequest k with
      | none => s.Ended t k rest .refused (refusal .badParam) ∧ t.timing = s.timing
      | some r => t.timing = r.timing ∧ t.sorter.timeout = r.timeout ∧ t.requests.quotaLimit = r.quota ∧
          s.Ended t k rest .done { okReply with data := t.timingEcho }) ∧
    (s.Head k rest .start → ∃ t, exec .start s = .next t ∧
      match s.timingRequest k with
      | none => s.Ended t k rest .refused (refusal .badParam) ∧ t.timing = s.timing ∧ t.banks = s.banks
      | some r =>
        if ∀ b : BankId, s.banks[b].phase ≠ .stopped then
          s.Ended t k rest .refused (refusal .state) ∧ t.timing = s.timing ∧ t.banks = s.banks
        else
          t.timing = r.timing ∧ t.sorter.timeout = r.timeout ∧ t.requests.quotaLimit = r.quota ∧
          s.Ended t k rest .done { okReply with count := s.stoppedBanks.length, data := t.timingEcho } ∧
          (s.accounting = none → t.accounting = none) ∧
          (∀ a, s.accounting = some a → ∃ aside : Vector Bool 8, t.accounting = some { a with setAside := aside } ∧
            ∀ b : BankId, aside[b] =
              if s.banks[b].phase = .stopped ∧ a.calculation ≠ none then true else a.setAside[b]) ∧
          ∀ b : BankId,
            if s.banks[b].phase = .stopped then
              t.banks[b] = { s.banks[b] with
                phase := .opened s.banks[b].startSet, interval := nextInterval s.banks[b].interval, previous := none
                timing := r.timing, sets := t.banks[b].sets } ∧
              t.banks[b].sets[s.banks[b].startSet].ZeroedAs s.banks[b].sets[s.banks[b].startSet]
                (nextInterval s.banks[b].interval) (s.openMarks b) ∧
              t.banks[b].sets[otherSet s.banks[b].startSet] = s.banks[b].sets[otherSet s.banks[b].startSet] ∧
              (∀ i, s.banks[b].startSet = i ↔ s.banks[b].previous = some (otherSet i) ∨ s.banks[b].previous = none ∧ i = 0) ∧
              ∀ e : Fin 5, t.profiles[pointAt b e] = s.profiles[pointAt b e].applyStaged
            else t.banks[b] = s.banks[b])

/-- STOP and CLOSE: BAD_PARAM (SetTimingAndStart gives STOP's ranges), STATE, or a deferred request with its pending entry and
estimate, the settings written by STOP (R167), and the close asked of each named bank, which starts in the take where R78
allows (R152, R153, R169, R170). That a
STOP names STOPPING banks follows R153 and R169 against R77 (assumption 33). -/
def Obligations.StopAndCloseDefer : Prop :=
  ∀ (s : State) (k : SlotId) (rest : List SlotId), s.MemoryOk →
    (s.Head k rest .stop → ∃ t, exec .stop s = .next t ∧
      match s.timingRequest k with
      | none => s.Ended t k rest .refused (refusal .badParam) ∧ t.banks = s.banks ∧ t.timing = s.timing
      | some r =>
        if ∀ b : BankId, s.banks[b].phase = .stopped then
          s.Ended t k rest .refused (refusal .state) ∧ t.banks = s.banks ∧ t.timing = s.timing
        else
          s.Taken t k rest .taken (deferredReply 0) ∧ t.timing = r.timing ∧ t.sorter.timeout = r.timeout ∧
          t.requests.quotaLimit = r.quota ∧
          (∃ out, ⟨k, .banks .stop out []⟩ ∈ t.requests.table ∧
            ∀ b, b ∈ out.map Prod.fst ↔ s.banks[b].phase ≠ .stopped) ∧
          ∀ b : BankId,
            (∀ a, s.banks[b].phase = .opened a → t.banks[b].phase = .stopping a ∧
              ∃ f, t.folds[b] = some f ∧ f.causes.stop = true ∧ f.interval = s.banks[b].interval) ∧
            (∀ a, s.banks[b].phase = .turning a → ∃ h, t.banks[b].held = some h ∧ h.causes.stop = true ∧
              (k, .stop) ∈ h.waiters) ∧
            (s.banks[b].phase.accumulating = none → t.banks[b] = s.banks[b])) ∧
    (s.Head k rest .close → ∃ t, exec .close s = .next t ∧
      (s.optionWord k ≠ 0 ∨ 8 ≤ s.param k 0x10 4 ∧ s.param k 0x10 4 ≠ 255 →
        s.Ended t k rest .refused (refusal .badParam) ∧ t.banks = s.banks) ∧
      (s.optionWord k = 0 → ∀ b : BankId, s.param k 0x10 4 = b.val →
        if s.banks[b].takesClose = false then s.Ended t k rest .refused (refusal .state) ∧ t.banks = s.banks
        else
          s.Taken t k rest .taken (deferredReply s.banks[b].closeEstimate) ∧
          (∀ b', b' ≠ b → t.banks[b'] = s.banks[b']) ∧
          (if (s.banks[b].ask Causes.onlyHost [(k, .host)]).mayStart = true then
            (∃ f, t.folds[b] = some f ∧ f.causes.host = true ∧ f.interval = s.banks[b].interval) ∧
            ⟨k, .banks .closeOne [(b, .folding s.banks[b].interval)] []⟩ ∈ t.requests.table
           else t.banks[b] = s.banks[b].ask Causes.onlyHost [(k, .host)] ∧
            ⟨k, .banks .closeOne [(b, .waiting)] []⟩ ∈ t.requests.table)) ∧
      (s.optionWord k = 0 → s.param k 0x10 4 = 255 →
        if ∀ b : BankId, s.banks[b].takesClose = false then
          s.Ended t k rest .refused (refusal .state) ∧ t.banks = s.banks
        else ∃ estimate out, s.Taken t k rest .taken (deferredReply estimate) ∧
          (∀ b : BankId, s.banks[b].takesClose = true → s.banks[b].closeEstimate ≤ estimate) ∧
          (∃ b : BankId, s.banks[b].takesClose = true ∧ s.banks[b].closeEstimate = estimate) ∧
          ⟨k, .banks .closeAll out []⟩ ∈ t.requests.table ∧ (out.map Prod.fst).Nodup ∧
          ∀ b : BankId,
            if s.banks[b].takesClose = false then t.banks[b] = s.banks[b] ∧ b ∉ out.map Prod.fst
            else if (s.banks[b].ask Causes.onlyHost [(k, .host)]).mayStart = true then
              (b, .folding s.banks[b].interval) ∈ out ∧ t.banks[b].held = none ∧
              ∃ f, t.folds[b] = some f ∧ f.causes.host = true ∧ f.interval = s.banks[b].interval
            else (b, .waiting) ∈ out ∧ t.banks[b] = s.banks[b].ask Causes.onlyHost [(k, .host)]) ∧
      ∀ b : Bank, b.closeEstimate =
        if b.heldCauses.count = true ∨ b.heldCauses.overlong = true ∨ b.heldCauses.stop = true then 0
        else b.timing.dwell - b.span)

/-- READ_OPEN over an accounting table without errors: its checks in order and the values returned (R172). READ_REGISTERS with
and without NET over a register store without errors: its checks in order, the values returned, and nothing changed in the
store (R105 to R107, R173). Tables with errors: AccountingTableErrors, RegisterStoreErrors. -/
def Obligations.ReadsReturnValues : Prop :=
  (∀ (s : State) (k : SlotId) (rest : List SlotId), s.MemoryOk → s.ecc.accounting = [] → s.Head k rest .readOpen →
      ∃ t, exec .readOpen s = .next t ∧ t.banks = s.banks ∧
        (41 ≤ s.param k 0x10 2 → s.Ended t k rest .refused (refusal .badPoint)) ∧
        ∀ p : SetId, s.param k 0x10 2 = p.val →
          if s.param k 0x14 2 = 0 ∨ 40 < s.param k 0x14 2 ∨ 104 < s.param k 0x12 2 + s.param k 0x14 2 ∨
              1 < s.optionWord k then s.Ended t k rest .refused (refusal .badParam)
          else
            match (if s.optionWord k = 1 then s.banks[bankOfSet p].previous
              else s.banks[bankOfSet p].phase.accumulating) with
            | none => s.Ended t k rest .refused (refusal .state)
            | some i => s.Ended t k rest .done { okReply with
                interval := s.banks[bankOfSet p].sets[i].interval
                windows := s.banks[bankOfSet p].sets[i].span
                count := (s.banks[bankOfSet p].sets[i].presentOf (entryOf p)).toNat
                data := (quantityRange (s.param k 0x12 2) (s.param k 0x14 2)).flatMap fun q =>
                  leBytes 8 ((s.banks[bankOfSet p].sets[i].totals (entryOf p))[q]).toNat }) ∧
  (∀ (s : State) (k : SlotId) (rest : List SlotId) (net : Bool), s.MemoryOk → s.ecc.registers = [] →
      s.Head k rest (if net then .readRegistersNet else .readRegisters) →
      ∃ t, exec (if net then .readRegistersNet else .readRegisters) s = .next t ∧ t.regs = s.regs ∧
        (41 ≤ s.param k 0x10 2 → s.Ended t k rest .refused (refusal .badPoint)) ∧
        ∀ p : SetId, s.param k 0x10 2 = p.val →
          if s.param k 0x14 2 = 0 ∨ 20 < s.param k 0x14 2 ∨
              (if net then 51 else 104) < s.param k 0x12 2 + s.param k 0x14 2 ∨ 1 < s.optionWord k then
            s.Ended t k rest .refused (refusal .badParam)
          else s.Ended t k rest .done { okReply with
            interval := s.regs[p].lastFolded
            count := s.param k 0x14 2
            data := if net then s.regs[p].netBytes (s.param k 0x12 2) (s.param k 0x14 2)
              else s.regs[p].bytes (s.param k 0x12 2) (s.param k 0x14 2) })

/-- A net item as NET returns it: the difference of its registers by sign and magnitude, OVERRANGE with the lowest 16 digits
where it needs a seventeenth, INVALID with sign positive and magnitude 0 where a register it uses is INVALID (R106, R107);
each item is 16 bytes (spec 11.3). -/
def Obligations.NetItemLaw : Prop :=
  ∀ r : RegisterSet,
    (∀ first count, r.netBytes first count = (List.range count).flatMap fun j => r.netBytes (first + j) 1) ∧
    ∀ (n : Nat) (plus minus : List QuantityId),
      (n = 0 ∧ plus = [0] ∧ minus = [1] ∨ n = 1 ∧ plus = [2, 3] ∧ minus = [4, 5] ∨
        ∃ j : Fin 49, n = j.val + 2 ∧ plus = [⟨6 + 2 * j.val, by omega⟩] ∧ minus = [⟨7 + 2 * j.val, by omega⟩]) →
      ∀ d : Int, d = ((plus.map fun q => r.quantities[q].register).sum : Int) -
          (minus.map fun q => r.quantities[q].register).sum →
        r.netBytes n 1 =
          (if ∀ q ∈ plus ++ minus, r.quantities[q].valid = true then
            packDecimal 8 (d.natAbs % 10 ^ 16) ++ [if d < 0 then 1 else 0, if 10 ^ 16 ≤ d.natAbs then 2 else 0]
          else packDecimal 8 0 ++ [0, 1]) ++ [BitVec.ofNat 8 r.scale.val, 0, 0, 0, 0, 0]

/-- REBASE over a register store without errors: its checks in order, and the pending REBASE it holds (R94, R152, R174). Its
parameters pass BAD_PARAM exactly in the ranges that R174 gives, and its values are the packed decimals of the request area. -/
def Obligations.RebaseIsHeld : Prop :=
  (∀ (s : State) (k : SlotId) (digits : Nat → List Byte),
    (∀ i, digits i = wordBytes (s.requestWord k (6 + 2 * i)) ++ wordBytes (s.requestWord k (7 + 2 * i))) →
    ((s.rebaseValues k).isSome = true ↔
      1 ≤ s.param k 0x14 2 ∧ s.param k 0x14 2 ≤ 12 ∧ s.param k 0x12 2 + s.param k 0x14 2 ≤ 104 ∧ s.optionWord k = 0 ∧
      ∀ i, i < s.param k 0x14 2 → ∀ x ∈ digits i, x.toNat % 16 ≤ 9 ∧ x.toNat / 16 ≤ 9) ∧
    ∀ vs, s.rebaseValues k = some vs → vs.length = s.param k 0x14 2 ∧
      ∀ i v, vs[i]? = some v → v < 10 ^ 16 ∧ packDecimal 8 v = digits i) ∧
  ∀ (s : State) (k : SlotId) (rest : List SlotId), s.MemoryOk → s.ecc.registers = [] → s.Head k rest .rebase →
    ∃ t, exec .rebase s = .next t ∧
      (41 ≤ s.param k 0x10 2 → s.Ended t k rest .refused (refusal .badPoint) ∧ t.regs = s.regs) ∧
      ∀ p : SetId, s.param k 0x10 2 = p.val →
        match s.rebaseValues k with
        | none => s.Ended t k rest .refused (refusal .badParam) ∧ t.regs = s.regs
        | some values =>
          if s.banks[bankOfSet p].billing = true then
            s.Ended t k rest .refused (refusal .protectedBank) ∧ t.regs = s.regs
          else if s.regs[p].rebase ≠ none then s.Ended t k rest .refused (refusal .busy) ∧ t.regs = s.regs
          else
            s.Taken t k rest .taken (deferredReply (if s.banks[bankOfSet p].takesClose
              then s.banks[bankOfSet p].timing.length - s.banks[bankOfSet p].span
              else s.banks[bankOfSet p].timing.length)) ∧
            t.requests.table = s.requests.table ++ [⟨k, .rebase p⟩] ∧
            t.regs = s.regs.set p { s.regs[p] with
              rebase := some { first := s.param k 0x12 2, values := values, slot := k, due := false } }

/-- CANCEL: BAD_PARAM, NOT_PENDING, or the target withdrawn from its held closes or its register set and ended CANCELLED
(R79, R176, R177; for a CLOSE of ALL with an ended bank, assumption 13). In each held close the slot goes, HOST goes with the
last HOST waiter, the other causes and waiters stay, and the hold goes with its last cause. -/
def Obligations.CancelWithdrawsTarget : Prop :=
  ∀ (s : State) (k : SlotId) (rest : List SlotId), s.MemoryOk → s.RequestsOk → s.Head k rest .cancel →
    ∃ t, exec .cancel s = .next t ∧
      (31 < s.param k 0x10 4 ∨ s.optionWord k ≠ 0 →
        s.Ended t k rest .refused (refusal .badParam) ∧ t.banks = s.banks ∧ t.regs = s.regs) ∧
      ∀ g : SlotId, s.param k 0x10 4 = g.val → s.optionWord k = 0 →
        ((∀ e ∈ s.requests.table, e.slot = g → e.work.cancellable = false) →
          t.banks = s.banks ∧ t.regs = s.regs ∧ t.requests.table = s.requests.table ∧
          s.Ended t k rest .done { okReply with
            outcome := .notPending, data := cancelBytes g (s.pendingEntry g) s.requests.slots[g] }) ∧
        (∀ e ∈ s.requests.table, e.slot = g → e.work.cancellable = true →
          s.Ended t k rest .done { okReply with data := cancelBytes g (some e) .taken } ∧
          t.requests.slots[g] = .done ∧ g ∉ t.requests.table.map PendingEntry.slot ∧
          t.mem.bytes (slotByte g + 0x88) 4 = leBytes 4 2 ∧
          (∀ kind out closed, e.work = .banks kind out closed → t.regs = s.regs ∧
            ∀ b : BankId,
              if b ∈ out.map Prod.fst then
                (s.banks[b].held = none → t.banks[b] = s.banks[b]) ∧
                ∀ h rest causes, s.banks[b].held = some h → rest = h.waiters.filter (fun w => decide (w.1 ≠ g)) →
                  causes = { h.causes with host := h.causes.host && decide (WaitCause.host ∈ rest.map Prod.snd) } →
                  t.banks[b] = { s.banks[b] with
                    held := if causes = ⟨false, false, false, false, false⟩ then none else some ⟨causes, rest⟩ }
              else t.banks[b] = s.banks[b]) ∧
          (∀ p, e.work = .rebase p → t.banks = s.banks ∧ t.regs = s.regs.set p { s.regs[p] with rebase := none }))

/-- LINK_CONTROL: BAD_PARAM, or the action's effect from each receiver state, with the reply; a change of state and RESET in HUNT
discard what is in progress, and LINK is latched by a change of state alone (R9); RESET and CLEAR rewrite the link's
mirror word, so no error stays in it (R17, R178). READ_CAPTURE with and without CLEAR: BAD_PARAM, or the record in the reply,
emptied by CLEAR alone; CAPTURE stays latched (R179, R192). -/
def Obligations.LinkControlAndReadCapture : Prop :=
  (∀ (s : State) (k : SlotId) (rest : List SlotId) (a : LinkAction), s.MemoryOk → s.Head k rest (.link a) →
      ∃ t, exec (match a with
          | .enable => .linkControlEnable
          | .disable => .linkControlDisable
          | .reset => .linkControlReset
          | .clear => .linkControlClear) s = .next t ∧
        (5 < s.param k 0x10 4 ∨ s.optionWord k ≠ 0 ∨ LinkAction.ofCode (s.param k 0x14 4) ≠ some a →
          s.Ended t k rest .refused (refusal .badParam) ∧ t.links = s.links) ∧
        ∀ l : LinkId, s.param k 0x10 4 = l.val → s.optionWord k = 0 → LinkAction.ofCode (s.param k 0x14 4) = some a →
          (∀ l', l' ≠ l → t.links[l'] = s.links[l']) ∧
          s.Ended t k rest .done { okReply with
            data := leBytes 4 s.links[l].state.code ++ leBytes 4 t.links[l].state.code ++
              leBytes 4 s.links[l].errors.code ++ wordBytes s.links[l].good ++ wordBytes s.links[l].bad ++
              wordBytes s.links[l].lost } ∧
          t.links[l].good = s.links[l].good ∧ t.links[l].bad = s.links[l].bad ∧ t.links[l].lost = s.links[l].lost ∧
          t.links[l].state = (match a, s.links[l].state with
            | .enable, .down => .hunt
            | .disable, _ => .down
            | .reset, _ => .hunt
            | _, x => x) ∧
          t.links[l].fifo = (match a, s.links[l].state with
            | .disable, .down => s.links[l].fifo
            | .disable, _ => []
            | .reset, _ => []
            | _, _ => s.links[l].fifo) ∧
          t.links[l].errors = (match a with
            | .reset => noErrors
            | .clear => noErrors
            | _ => s.links[l].errors) ∧
          (a = .reset ∨ a = .clear → t.ecc.exchange.lookup (8 + l.val) = none) ∧
          (t.links[l].state ≠ s.links[l].state → t.latched .link = true ∧ t.links[l].inProgress = [] ∧
            t.links[l].consecutiveBad = 0 ∧ t.links[l].silenceTimer = none) ∧
          (t.links[l].state = s.links[l].state → t.latched .link = s.latched .link ∧
            t.links[l].inProgress = (if a = .reset then [] else s.links[l].inProgress) ∧
            t.links[l].consecutiveBad = s.links[l].consecutiveBad ∧ t.links[l].silenceTimer = s.links[l].silenceTimer)) ∧
  (∀ (s : State) (k : SlotId) (rest : List SlotId) (clear : Bool), s.MemoryOk →
      s.Head k rest (if clear then .readCaptureClear else .readCapture) →
      ∃ t, exec (if clear then .readCaptureClear else .readCapture) s = .next t ∧
        (1 < s.optionWord k → s.Ended t k rest .refused (refusal .badParam) ∧ t.capture = s.capture) ∧
        (s.optionWord k ≤ 1 →
          s.Ended t k rest .done { okReply with
            count := captureCount s.capture
            data := (List.range 4).flatMap fun j => wordBytes (captureWord s.capture j) } ∧
          t.capture = if clear then none else s.capture) ∧
        t.latched .capture = s.latched .capture)

/-- What a take leaves unchanged: other blocks, and every byte outside the reply areas of the slot taken and of TAKEN slots. -/
def Obligations.RequestTakesFrame : Prop :=
  ∀ (c : Instr) (s t : State) (k : SlotId) (rest : List SlotId), s.MemoryOk → s.RequestsOk →
    s.requests.intake = k :: rest →
    c ∈ [Instr.badKind, .setPoint, .setBank, .setTiming, .start, .stop, .close, .readOpen, .readRegisters,
      .readRegistersNet, .rebase, .cancel, .linkControlEnable, .linkControlDisable, .linkControlReset, .linkControlClear,
      .readCapture, .readCaptureClear] → exec c s = .next t →
    t.control = s.control ∧ t.ld = s.ld ∧ t.writer = s.writer ∧ t.exceptions = s.exceptions ∧ t.watches = s.watches ∧
    t.bankCounters = s.bankCounters ∧ t.notices.mask = s.notices.mask ∧ t.notices.owner = s.notices.owner ∧
    t.watchCounters.owner = s.watchCounters.owner ∧ t.watchCounters.tag = s.watchCounters.tag ∧
    t.sorter.lastHanded = s.sorter.lastHanded ∧ t.sorter.queue.map Entry.seq = s.sorter.queue.map Entry.seq ∧
    (c ∉ [Instr.linkControlEnable, .linkControlDisable, .linkControlReset, .linkControlClear] → t.links = s.links) ∧
    (c ∉ [Instr.setPoint, .setTiming, .start, .stop] → t.sorter = s.sorter) ∧
    (c ∉ [Instr.setPoint, .start, .stop, .close] → t.profiles = s.profiles) ∧
    s.SameBytes t fun a => ∀ k' : SlotId, inReply k' a → k' ≠ k ∧ s.requests.slots[k'] ≠ .taken

/-! ### Control and warm reset -/

/-- The register port. RUN, NOTICE_ENABLE_MASK and WARM_RESET write the fields of LWCTL whose bytes are enabled (R140, R142; that
each row performs the whole write is the model's choice, assumption 5), LWSTAT_WRITE clears what it writes as 1 (R188),
REGISTER_WRITE_IGNORED does nothing at LWID and LWNOTE (R139). Reads give the registers' bits, LWNOTE the lowest code that is
latched and enabled, and NOTE# follows it (R139, R189, spec 11.7); that the register stays on LD is assumption 25. -/
def Obligations.RegisterPortAndNotices : Prop :=
  (∀ (s : State) (data : Word) (be : BitVec 4) (c : Instr), s.control.ready = true →
    (c = .run data be ∨ c = .noticeEnableMask data be ∨ c = .warmReset data be → exec c s = .next { s with
      control := { s.control with
        run := if be.getLsbD 0 = true then data.getLsbD 0 else s.control.run
        warm := if be.getLsbD 0 = true ∧ data.getLsbD 1 = true then true else s.control.warm }
      notices := { s.notices with
        mask := if be.getLsbD 1 = true then data.extractLsb' 8 6 else s.notices.mask } }) ∧
    exec (.lwstatWrite data be) s = .next { s with notices := { s.notices with
      latched := if be.getLsbD 1 = true then s.notices.latched &&& ~~~(data.extractLsb' 8 6) else s.notices.latched
      owner := if be.getLsbD 0 = true ∧ data.getLsbD 2 = true then false else s.notices.owner } } ∧
    ∀ la : BitVec 16, la.toNat % 4 = 0 ∨ la.toNat % 4 = 3 → exec (.registerWriteIgnored la data be) s = .next s) ∧
  ∀ (s : State) (la : BitVec 16), ∃ v : Word, exec (.hostRead true la) s = .next { s with ld := v } ∧
    (la.toNat % 4 = 0 → v = 0x41100286) ∧
    (la.toNat % 4 = 1 → ∀ i, i < 32 → v.getLsbD i =
      if i = 0 then s.control.run else if i = 1 then s.control.warm
      else if 8 ≤ i ∧ i ≤ 13 then s.notices.mask.getLsbD (i - 8) else false) ∧
    (la.toNat % 4 = 2 → ∀ i, i < 32 → v.getLsbD i =
      if i = 0 then s.control.ready else if i = 1 then s.control.warm else if i = 2 then s.notices.owner
      else if 8 ≤ i ∧ i ≤ 13 then s.notices.latched.getLsbD (i - 8) else false) ∧
    (la.toNat % 4 = 3 →
      (s.noteAsserted = true ↔ v ≠ 0) ∧
      (s.control.ready = false → v = 0) ∧
      ((∀ c : Fin 6, (s.notices.latched.getLsbD c.val && s.notices.mask.getLsbD c.val) = false) → v = 0) ∧
      ∀ c : Fin 6, s.control.ready = true → (s.notices.latched.getLsbD c.val && s.notices.mask.getLsbD c.val) = true →
        (∀ d : Fin 6, d < c → (s.notices.latched.getLsbD d.val && s.notices.mask.getLsbD d.val) = false) →
        v = BitVec.ofNat 32 (c.val + 1))

/-- WARM_RESET_COMPLETION: each block's effect, the causes cleared but CAPTURE, WARM 0, then the held-close tests (R18, R40,
R60, R89, R112, R143, R158). A POSTED slot gets a reply written whole, a TAKEN one its reason RESET and its closed intervals
(R146, R156), and no other byte changes. The echo of a damaged serial number is DEDUCED (assumption 15). That the row
changes nothing before its conditions hold is the model's choice (assumption 1). -/
def Obligations.WarmResetCompletes : Prop :=
  ∀ s : State, s.control.ready = true →
    (s.control.warm = true → s.quiet = true → s.RequestsOk →
      ∃ t, exec .warmResetCompletion s = .next t ∧ t.control = { s.control with warm := false } ∧
        (∀ l : LinkId, t.links[l].errors = s.links[l].errors ∧ t.links[l].good = s.links[l].good ∧
          t.links[l].bad = s.links[l].bad ∧ t.links[l].lost = s.links[l].lost ∧
          if s.links[l].state = .down then t.links[l] = s.links[l]
          else t.links[l].state = .hunt ∧ t.links[l].fifo = [] ∧ t.links[l].inProgress = [] ∧
            (s.links[l].state = .sync → t.links[l].consecutiveBad = 0 ∧ t.links[l].silenceTimer = none)) ∧
        t.sorter.queue = [] ∧ t.sorter.lastHanded = none ∧ t.sorter.heldFrame = none ∧
        t.sorter.discarded = s.sorter.discarded + BitVec.ofNat 32 s.sorter.queue.length ∧
        t.sorter.consecutiveLate = 0 ∧ t.sorter.resyncMark = false ∧ t.sorter.timeout = s.sorter.timeout ∧
        t.sorter.late = s.sorter.late ∧ t.sorter.duplicate = s.sorter.duplicate ∧
        t.sorter.unmapped = s.sorter.unmapped ∧ t.sorter.unexpected = s.sorter.unexpected ∧
        t.sorter.halted = s.sorter.halted ∧
        (∀ p : PointId, t.watches[p] = ⟨0, true, none⟩) ∧
        (∀ p : SetId, t.regs[p].rebase = none ∧ t.regs[p].quantities = s.regs[p].quantities ∧
          t.regs[p].scale = s.regs[p].scale ∧ t.regs[p].lastFolded = s.regs[p].lastFolded ∧
          t.regs[p].staged.map StagedScale.value = s.regs[p].staged.map StagedScale.value) ∧
        ((∀ k : SlotId, s.requests.slots[k] = .posted → s.ecc.exchange.lookup (1026 + 128 * k.val) = none) →
          t.capture = s.capture) ∧
        (∀ k : SlotId, t.requests.slots[k] =
          if s.requests.slots[k] = .posted ∨ s.requests.slots[k] = .taken then .refused else s.requests.slots[k]) ∧
        (s.MemoryOk →
          (∀ k : SlotId, s.requests.slots[k] = .posted → t.mem.bytes (slotByte k + 0x80) 384 =
            wordBytes (s.serial k) ++ leBytes 4 0 ++ leBytes 4 0 ++ leBytes 4 11 ++ List.replicate 368 0) ∧
          (∀ e ∈ s.requests.table, t.mem.bytes (slotByte e.slot + 0x88) 8 = leBytes 4 0 ++ leBytes 4 11 ∧
            (∀ p, e.work = .rebase p → t.mem.bytes (slotByte e.slot + 0x9C) 4 = leBytes 4 0) ∧
            ∀ kind out closed, e.work = .banks kind out closed →
              t.mem.bytes (slotByte e.slot + 0x9C) 4 = leBytes 4 closed.length ∧
              ((closed.map Prod.fst).Nodup →
                ∃ list : List (BankId × Word), list.Perm closed ∧ list.Pairwise (fun y z => y.1 < z.1) ∧
                  t.mem.bytes (slotByte e.slot + 0xC0) (8 * list.length) =
                    list.flatMap fun y => leBytes 4 y.1.val ++ wordBytes y.2)) ∧
          s.SameBytes t fun a => ∀ k : SlotId, inReply k a → s.requests.slots[k] ≠ .posted ∧ s.requests.slots[k] ≠ .taken) ∧
        t.requests.intake = [] ∧ t.requests.table = [] ∧ t.requests.quotaCount = 0 ∧
        t.requests.quotaTimer = some 250 ∧ t.requests.quotaLimit = s.requests.quotaLimit ∧
        t.writer = s.writer ∧ t.exceptions = s.exceptions ∧ t.notices.owner = s.notices.owner ∧
        t.notices.mask = s.notices.mask ∧ t.bankCounters = s.bankCounters ∧ t.timing = s.timing ∧
        t.notices.latched &&& ~~~Cause.capture.flag = 0 ∧
        ∀ (b : BankId) (left : Option HeldClose),
          left = (match s.banks[b].held with
            | some h => if h.causes.tariff = true ∨ h.causes.count = true ∨ h.causes.overlong = true then
                some ⟨{ h.causes with host := false, stop := false }, []⟩ else none
            | none => none) →
          t.banks[b].billing = s.banks[b].billing ∧ t.banks[b].notify = s.banks[b].notify ∧
          t.banks[b].archive = s.banks[b].archive ∧
          if ({ s.banks[b] with held := left } : Bank).mayStart = true then
            ∃ f h, left = some h ∧ t.folds[b] = some f ∧ f.interval = s.banks[b].interval ∧ f.causes = h.causes ∧
              t.banks[b].held = none ∧ t.banks[b].sets[f.set] = { s.banks[b].sets[f.set] with causes := h.causes }
          else t.banks[b] = { s.banks[b] with held := left } ∧ t.folds[b] = none ∧
            (∀ i : Fin 5, t.profiles[pointAt b i] = s.profiles[pointAt b i]) ∧
            ∀ p : SetId, bankOfSet p = b → t.regs[p].staged = s.regs[p].staged) ∧
    (s.control.warm = false ∨ s.quiet = false → exec .warmResetCompletion s = .next s)
end

