-- ==== Sys2Proof/Laws/Memory.lean ====
section
/-! SUPPORT. The byte memory: canonical form kept by every operation, and what a read finds after a write. -/

namespace Sys2Proof.Machine

/-! ### Reading -/

@[simp] theorem Memory.read_nil (a : Nat) : Memory.read [] a = 0 := rfl

@[simp] theorem Memory.read_cons (k : Nat) (v : Byte) (m : Memory) (a : Nat) :
    Memory.read ((k, v) :: m) a = if k = a then v else Memory.read m a := rfl

/-- An address that no cell lists reads 0. -/
theorem Memory.read_of_unlisted (m : Memory) (a : Nat) (h : ∀ c ∈ m, c.1 ≠ a) : Memory.read m a = 0 := by
  induction m <;> grind [Memory.read]

theorem Memory.wf_nil : Memory.wf [] := by simp [Memory.wf]

/-- The canonical form of a list of cells, cell by cell. -/
theorem Memory.wf_cons_iff (c : Host.Cell) (m : Memory) :
    Memory.wf (c :: m) ↔ (∀ d ∈ m, c.1 < d.1) ∧ c.2 ≠ 0 ∧ Memory.wf m := by
  simp only [Memory.wf, List.pairwise_cons, List.forall_mem_cons]
  tauto

/-! ### Writing one byte -/

/-- A cell after a write is the written one or an old one. -/
theorem Memory.mem_write {m : Memory} {a : Nat} {b : Byte} {c : Host.Cell} :
    c ∈ Memory.write m a b → c = (a, b) ∧ b ≠ 0 ∨ c ∈ m := by
  induction m <;> grind [Memory.write]

/-- A write keeps the canonical form. -/
theorem Memory.wf_write {m : Memory} (h : Memory.wf m) (a : Nat) (b : Byte) : Memory.wf (Memory.write m a b) := by
  induction m with
  | nil => grind [Memory.write, Memory.wf_cons_iff, Memory.wf_nil]
  | cons d m ih =>
    obtain ⟨below, nonzero, rest⟩ := (Memory.wf_cons_iff d m).mp h
    have cells : ∀ e ∈ Memory.write m a b, e = (a, b) ∧ b ≠ 0 ∨ e ∈ m := fun _ => Memory.mem_write
    grind [Memory.write, Memory.wf_cons_iff]

/-- A written byte reads as written. -/
theorem Memory.read_write_self {m : Memory} (h : Memory.wf m) (a : Nat) (b : Byte) :
    Memory.read (Memory.write m a b) a = b := by
  induction m with
  | nil => grind [Memory.write, Memory.read]
  | cons d m ih =>
    obtain ⟨below, -, rest⟩ := (Memory.wf_cons_iff d m).mp h
    have unlisted : a ≤ d.1 → Memory.read m a = 0 := fun ha =>
      Memory.read_of_unlisted m a fun e he => Nat.ne_of_gt (Nat.lt_of_le_of_lt ha (below e he))
    grind [Memory.write, Memory.read]

/-- Every other byte reads as before. -/
theorem Memory.read_write_of_ne (m : Memory) {a x : Nat} (b : Byte) (hx : x ≠ a) :
    Memory.read (Memory.write m a b) x = Memory.read m x := by
  induction m <;> grind [Memory.write, Memory.read]

/-! ### Writing bytes -/

@[simp] theorem Memory.writeBytes_nil (m : Memory) (a : Nat) : Memory.writeBytes m a [] = m := rfl

@[simp] theorem Memory.writeBytes_cons (m : Memory) (a : Nat) (b : Byte) (bs : List Byte) :
    Memory.writeBytes m a (b :: bs) = Memory.writeBytes (m.write a b) (a + 1) bs := rfl

theorem Memory.wf_writeBytes {m : Memory} (h : Memory.wf m) (a : Nat) (bs : List Byte) :
    Memory.wf (Memory.writeBytes m a bs) := by
  induction bs generalizing m a with
  | nil => exact h
  | cons b bs ih => exact ih (Memory.wf_write h a b) (a + 1)

/-- A cell after a write of bytes lies in the range written or is an old one. -/
theorem Memory.mem_writeBytes {a : Nat} {bs : List Byte} {c : Host.Cell} (m : Memory) :
    c ∈ Memory.writeBytes m a bs → a ≤ c.1 ∧ c.1 < a + bs.length ∨ c ∈ m := by
  induction bs generalizing m a with
  | nil => exact Or.inr
  | cons b bs ih =>
    have first : c ∈ Memory.write m a b → c = (a, b) ∧ b ≠ 0 ∨ c ∈ m := Memory.mem_write
    have others := ih (a := a + 1) (m.write a b)
    grind [Memory.writeBytes]

/-- Bytes outside the range written read as before. -/
theorem Memory.read_writeBytes_of_outside (m : Memory) {a x : Nat} (bs : List Byte) (hx : x < a ∨ a + bs.length ≤ x) :
    Memory.read (Memory.writeBytes m a bs) x = Memory.read m x := by
  induction bs generalizing m a with
  | nil => rfl
  | cons b bs ih =>
    simp only [List.length_cons] at hx
    rw [Memory.writeBytes_cons, ih _ (by omega), Memory.read_write_of_ne _ _ (by omega)]

/-- A byte of the range written reads as written. -/
theorem Memory.read_writeBytes_of_inside {m : Memory} (h : Memory.wf m) (a : Nat) (bs : List Byte) {j : Nat}
    (hj : j < bs.length) : Memory.read (Memory.writeBytes m a bs) (a + j) = bs[j] := by
  induction bs generalizing m a j with
  | nil => simp at hj
  | cons b bs ih =>
    rw [Memory.writeBytes_cons]
    cases j with
    | zero =>
      rw [Memory.read_writeBytes_of_outside _ _ (by omega)]
      exact Memory.read_write_self h a b
    | succ j =>
      have := ih (Memory.wf_write h a b) (a + 1) (j := j) (by simpa using hj)
      simpa [Nat.add_assoc, Nat.add_comm 1 j] using this

/-! ### Reading bytes -/

@[simp] theorem Memory.bytes_length (m : Memory) (a n : Nat) : (Memory.bytes m a n).length = n := by simp [Memory.bytes]

/-- The bytes written read as written. -/
theorem Memory.bytes_writeBytes_self {m : Memory} (h : Memory.wf m) (a : Nat) (bs : List Byte) :
    Memory.bytes (Memory.writeBytes m a bs) a bs.length = bs := by
  apply List.ext_getElem
  · simp
  · intro j h1 h2
    simp only [Memory.bytes, List.getElem_map, List.getElem_range]
    exact Memory.read_writeBytes_of_inside h a bs h2

/-- Bytes of a range disjoint from the one written read as before. -/
theorem Memory.bytes_writeBytes_of_disjoint (m : Memory) {a x n : Nat} (bs : List Byte)
    (h : x + n ≤ a ∨ a + bs.length ≤ x) : Memory.bytes (Memory.writeBytes m a bs) x n = Memory.bytes m x n := by
  refine List.map_congr_left fun j hj => ?_
  have := List.mem_range.mp hj
  exact Memory.read_writeBytes_of_outside m bs (by omega)

/-- Memories that read alike over a range have the same bytes there. -/
theorem Memory.bytes_congr {m m' : Memory} {a n : Nat} (h : ∀ x, a ≤ x → x < a + n → Memory.read m x = Memory.read m' x) :
    Memory.bytes m a n = Memory.bytes m' a n := by
  refine List.map_congr_left fun j hj => ?_
  have := List.mem_range.mp hj
  exact h _ (by omega) (by omega)

/-! ### Zeroing -/

theorem Memory.mem_zero {m : Memory} {lo hi : Nat} {c : Host.Cell} (h : c ∈ Memory.zero m lo hi) : c ∈ m :=
  List.mem_of_mem_filter h

theorem Memory.wf_zero {m : Memory} (h : Memory.wf m) (lo hi : Nat) : Memory.wf (Memory.zero m lo hi) :=
  ⟨h.1.filter _, fun c hc => h.2 c (Memory.mem_zero hc)⟩

/-- Inside the range zeroed every byte reads 0, outside it as before. -/
theorem Memory.read_zero (m : Memory) (lo hi x : Nat) :
    Memory.read (Memory.zero m lo hi) x = if lo ≤ x ∧ x < hi then 0 else Memory.read m x := by
  unfold Memory.zero
  induction m <;> grind [Memory.read]

/-- Reset memory is in canonical form. -/
theorem State.wf_reset_mem : Memory.wf State.reset.mem := Memory.wf_nil

end Sys2Proof.Machine
end

