-- ==== Sys2Proof/Laws/State.lean ====
section
/-! SUPPORT. One lemma per field per elementary update of the state, so that no proof unfolds a record update. -/

namespace Sys2Proof.Machine

/-! ### rewrite -/

@[simp] theorem State.rewrite_links (s t : State) : (s.rewrite t).links = t.links := rfl
@[simp] theorem State.rewrite_sorter (s t : State) : (s.rewrite t).sorter = t.sorter := rfl
@[simp] theorem State.rewrite_accounting (s t : State) : (s.rewrite t).accounting = t.accounting := rfl
@[simp] theorem State.rewrite_watches (s t : State) : (s.rewrite t).watches = t.watches := rfl
@[simp] theorem State.rewrite_profiles (s t : State) : (s.rewrite t).profiles = t.profiles := rfl
@[simp] theorem State.rewrite_banks (s t : State) : (s.rewrite t).banks = t.banks := rfl
@[simp] theorem State.rewrite_timing (s t : State) : (s.rewrite t).timing = t.timing := rfl
@[simp] theorem State.rewrite_bankCounters (s t : State) : (s.rewrite t).bankCounters = t.bankCounters := rfl
@[simp] theorem State.rewrite_folds (s t : State) : (s.rewrite t).folds = t.folds := rfl
@[simp] theorem State.rewrite_regs (s t : State) : (s.rewrite t).regs = t.regs := rfl
@[simp] theorem State.rewrite_writer (s t : State) : (s.rewrite t).writer = t.writer := rfl
@[simp] theorem State.rewrite_requests (s t : State) : (s.rewrite t).requests = t.requests := rfl
@[simp] theorem State.rewrite_exceptions (s t : State) : (s.rewrite t).exceptions = t.exceptions := rfl
@[simp] theorem State.rewrite_notices (s t : State) : (s.rewrite t).notices = t.notices := rfl
@[simp] theorem State.rewrite_capture (s t : State) : (s.rewrite t).capture = t.capture := rfl
@[simp] theorem State.rewrite_control (s t : State) : (s.rewrite t).control = t.control := rfl
@[simp] theorem State.rewrite_watchCounters (s t : State) : (s.rewrite t).watchCounters = t.watchCounters := rfl
@[simp] theorem State.rewrite_mem (s t : State) : (s.rewrite t).mem = t.mem := rfl
@[simp] theorem State.rewrite_ld (s t : State) : (s.rewrite t).ld = t.ld := rfl
@[simp] theorem State.rewrite_pending (s t : State) : (s.rewrite t).pending = t.pending := rfl

/-! ### wordsWritten -/

@[simp] theorem State.wordsWritten_links (s : State) (lo hi : Nat) : (s.wordsWritten lo hi).links = s.links := rfl
@[simp] theorem State.wordsWritten_sorter (s : State) (lo hi : Nat) : (s.wordsWritten lo hi).sorter = s.sorter := rfl
@[simp] theorem State.wordsWritten_accounting (s : State) (lo hi : Nat) :
    (s.wordsWritten lo hi).accounting = s.accounting := rfl
@[simp] theorem State.wordsWritten_watches (s : State) (lo hi : Nat) : (s.wordsWritten lo hi).watches = s.watches := rfl
@[simp] theorem State.wordsWritten_profiles (s : State) (lo hi : Nat) :
    (s.wordsWritten lo hi).profiles = s.profiles := rfl
@[simp] theorem State.wordsWritten_banks (s : State) (lo hi : Nat) : (s.wordsWritten lo hi).banks = s.banks := rfl
@[simp] theorem State.wordsWritten_timing (s : State) (lo hi : Nat) : (s.wordsWritten lo hi).timing = s.timing := rfl
@[simp] theorem State.wordsWritten_bankCounters (s : State) (lo hi : Nat) :
    (s.wordsWritten lo hi).bankCounters = s.bankCounters := rfl
@[simp] theorem State.wordsWritten_folds (s : State) (lo hi : Nat) : (s.wordsWritten lo hi).folds = s.folds := rfl
@[simp] theorem State.wordsWritten_regs (s : State) (lo hi : Nat) : (s.wordsWritten lo hi).regs = s.regs := rfl
@[simp] theorem State.wordsWritten_writer (s : State) (lo hi : Nat) : (s.wordsWritten lo hi).writer = s.writer := rfl
@[simp] theorem State.wordsWritten_requests (s : State) (lo hi : Nat) :
    (s.wordsWritten lo hi).requests = s.requests := rfl
@[simp] theorem State.wordsWritten_exceptions (s : State) (lo hi : Nat) :
    (s.wordsWritten lo hi).exceptions = s.exceptions := rfl
@[simp] theorem State.wordsWritten_notices (s : State) (lo hi : Nat) : (s.wordsWritten lo hi).notices = s.notices := rfl
@[simp] theorem State.wordsWritten_capture (s : State) (lo hi : Nat) : (s.wordsWritten lo hi).capture = s.capture := rfl
@[simp] theorem State.wordsWritten_control (s : State) (lo hi : Nat) : (s.wordsWritten lo hi).control = s.control := rfl
@[simp] theorem State.wordsWritten_watchCounters (s : State) (lo hi : Nat) :
    (s.wordsWritten lo hi).watchCounters = s.watchCounters := rfl
@[simp] theorem State.wordsWritten_mem (s : State) (lo hi : Nat) : (s.wordsWritten lo hi).mem = s.mem := rfl
@[simp] theorem State.wordsWritten_ld (s : State) (lo hi : Nat) : (s.wordsWritten lo hi).ld = s.ld := rfl
@[simp] theorem State.wordsWritten_pending (s : State) (lo hi : Nat) : (s.wordsWritten lo hi).pending = s.pending := rfl

/-! ### putLink -/

@[simp] theorem State.putLink_links (s : State) (l : LinkId) (r : Receiver) :
    (s.putLink l r).links = s.links.set l r := rfl
@[simp] theorem State.putLink_sorter (s : State) (l : LinkId) (r : Receiver) : (s.putLink l r).sorter = s.sorter := rfl
@[simp] theorem State.putLink_accounting (s : State) (l : LinkId) (r : Receiver) :
    (s.putLink l r).accounting = s.accounting := rfl
@[simp] theorem State.putLink_watches (s : State) (l : LinkId) (r : Receiver) :
    (s.putLink l r).watches = s.watches := rfl
@[simp] theorem State.putLink_profiles (s : State) (l : LinkId) (r : Receiver) :
    (s.putLink l r).profiles = s.profiles := rfl
@[simp] theorem State.putLink_banks (s : State) (l : LinkId) (r : Receiver) : (s.putLink l r).banks = s.banks := rfl
@[simp] theorem State.putLink_timing (s : State) (l : LinkId) (r : Receiver) : (s.putLink l r).timing = s.timing := rfl
@[simp] theorem State.putLink_bankCounters (s : State) (l : LinkId) (r : Receiver) :
    (s.putLink l r).bankCounters = s.bankCounters := rfl
@[simp] theorem State.putLink_folds (s : State) (l : LinkId) (r : Receiver) : (s.putLink l r).folds = s.folds := rfl
@[simp] theorem State.putLink_regs (s : State) (l : LinkId) (r : Receiver) : (s.putLink l r).regs = s.regs := rfl
@[simp] theorem State.putLink_writer (s : State) (l : LinkId) (r : Receiver) : (s.putLink l r).writer = s.writer := rfl
@[simp] theorem State.putLink_requests (s : State) (l : LinkId) (r : Receiver) :
    (s.putLink l r).requests = s.requests := rfl
@[simp] theorem State.putLink_exceptions (s : State) (l : LinkId) (r : Receiver) :
    (s.putLink l r).exceptions = s.exceptions := rfl
@[simp] theorem State.putLink_notices (s : State) (l : LinkId) (r : Receiver) :
    (s.putLink l r).notices = s.notices := rfl
@[simp] theorem State.putLink_capture (s : State) (l : LinkId) (r : Receiver) :
    (s.putLink l r).capture = s.capture := rfl
@[simp] theorem State.putLink_control (s : State) (l : LinkId) (r : Receiver) :
    (s.putLink l r).control = s.control := rfl
@[simp] theorem State.putLink_watchCounters (s : State) (l : LinkId) (r : Receiver) :
    (s.putLink l r).watchCounters = s.watchCounters := rfl
@[simp] theorem State.putLink_mem (s : State) (l : LinkId) (r : Receiver) : (s.putLink l r).mem = s.mem := rfl
@[simp] theorem State.putLink_ld (s : State) (l : LinkId) (r : Receiver) : (s.putLink l r).ld = s.ld := rfl
@[simp] theorem State.putLink_pending (s : State) (l : LinkId) (r : Receiver) :
    (s.putLink l r).pending = s.pending := rfl

/-! ### putSorter -/

@[simp] theorem State.putSorter_links (s : State) (x : Sorter) : (s.putSorter x).links = s.links := rfl
@[simp] theorem State.putSorter_sorter (s : State) (x : Sorter) : (s.putSorter x).sorter = x := rfl
@[simp] theorem State.putSorter_accounting (s : State) (x : Sorter) : (s.putSorter x).accounting = s.accounting := rfl
@[simp] theorem State.putSorter_watches (s : State) (x : Sorter) : (s.putSorter x).watches = s.watches := rfl
@[simp] theorem State.putSorter_profiles (s : State) (x : Sorter) : (s.putSorter x).profiles = s.profiles := rfl
@[simp] theorem State.putSorter_banks (s : State) (x : Sorter) : (s.putSorter x).banks = s.banks := rfl
@[simp] theorem State.putSorter_timing (s : State) (x : Sorter) : (s.putSorter x).timing = s.timing := rfl
@[simp] theorem State.putSorter_bankCounters (s : State) (x : Sorter) :
    (s.putSorter x).bankCounters = s.bankCounters := rfl
@[simp] theorem State.putSorter_folds (s : State) (x : Sorter) : (s.putSorter x).folds = s.folds := rfl
@[simp] theorem State.putSorter_regs (s : State) (x : Sorter) : (s.putSorter x).regs = s.regs := rfl
@[simp] theorem State.putSorter_writer (s : State) (x : Sorter) : (s.putSorter x).writer = s.writer := rfl
@[simp] theorem State.putSorter_requests (s : State) (x : Sorter) : (s.putSorter x).requests = s.requests := rfl
@[simp] theorem State.putSorter_exceptions (s : State) (x : Sorter) : (s.putSorter x).exceptions = s.exceptions := rfl
@[simp] theorem State.putSorter_notices (s : State) (x : Sorter) : (s.putSorter x).notices = s.notices := rfl
@[simp] theorem State.putSorter_capture (s : State) (x : Sorter) : (s.putSorter x).capture = s.capture := rfl
@[simp] theorem State.putSorter_control (s : State) (x : Sorter) : (s.putSorter x).control = s.control := rfl
@[simp] theorem State.putSorter_watchCounters (s : State) (x : Sorter) :
    (s.putSorter x).watchCounters = s.watchCounters := rfl
@[simp] theorem State.putSorter_mem (s : State) (x : Sorter) : (s.putSorter x).mem = s.mem := rfl
@[simp] theorem State.putSorter_ld (s : State) (x : Sorter) : (s.putSorter x).ld = s.ld := rfl
@[simp] theorem State.putSorter_pending (s : State) (x : Sorter) : (s.putSorter x).pending = s.pending := rfl

/-! ### putBank -/

@[simp] theorem State.putBank_links (s : State) (b : BankId) (x : Bank) : (s.putBank b x).links = s.links := rfl
@[simp] theorem State.putBank_sorter (s : State) (b : BankId) (x : Bank) : (s.putBank b x).sorter = s.sorter := rfl
@[simp] theorem State.putBank_accounting (s : State) (b : BankId) (x : Bank) :
    (s.putBank b x).accounting = s.accounting := rfl
@[simp] theorem State.putBank_watches (s : State) (b : BankId) (x : Bank) : (s.putBank b x).watches = s.watches := rfl
@[simp] theorem State.putBank_profiles (s : State) (b : BankId) (x : Bank) :
    (s.putBank b x).profiles = s.profiles := rfl
@[simp] theorem State.putBank_banks (s : State) (b : BankId) (x : Bank) : (s.putBank b x).banks = s.banks.set b x := rfl
@[simp] theorem State.putBank_timing (s : State) (b : BankId) (x : Bank) : (s.putBank b x).timing = s.timing := rfl
@[simp] theorem State.putBank_bankCounters (s : State) (b : BankId) (x : Bank) :
    (s.putBank b x).bankCounters = s.bankCounters := rfl
@[simp] theorem State.putBank_folds (s : State) (b : BankId) (x : Bank) : (s.putBank b x).folds = s.folds := rfl
@[simp] theorem State.putBank_regs (s : State) (b : BankId) (x : Bank) : (s.putBank b x).regs = s.regs := rfl
@[simp] theorem State.putBank_writer (s : State) (b : BankId) (x : Bank) : (s.putBank b x).writer = s.writer := rfl
@[simp] theorem State.putBank_requests (s : State) (b : BankId) (x : Bank) :
    (s.putBank b x).requests = s.requests := rfl
@[simp] theorem State.putBank_exceptions (s : State) (b : BankId) (x : Bank) :
    (s.putBank b x).exceptions = s.exceptions := rfl
@[simp] theorem State.putBank_notices (s : State) (b : BankId) (x : Bank) : (s.putBank b x).notices = s.notices := rfl
@[simp] theorem State.putBank_capture (s : State) (b : BankId) (x : Bank) : (s.putBank b x).capture = s.capture := rfl
@[simp] theorem State.putBank_control (s : State) (b : BankId) (x : Bank) : (s.putBank b x).control = s.control := rfl
@[simp] theorem State.putBank_watchCounters (s : State) (b : BankId) (x : Bank) :
    (s.putBank b x).watchCounters = s.watchCounters := rfl
@[simp] theorem State.putBank_mem (s : State) (b : BankId) (x : Bank) : (s.putBank b x).mem = s.mem := rfl
@[simp] theorem State.putBank_ld (s : State) (b : BankId) (x : Bank) : (s.putBank b x).ld = s.ld := rfl
@[simp] theorem State.putBank_pending (s : State) (b : BankId) (x : Bank) : (s.putBank b x).pending = s.pending := rfl

/-! ### putBankCounters -/

@[simp] theorem State.putBankCounters_links (s : State) (x : BankCounters) :
    (s.putBankCounters x).links = s.links := rfl
@[simp] theorem State.putBankCounters_sorter (s : State) (x : BankCounters) :
    (s.putBankCounters x).sorter = s.sorter := rfl
@[simp] theorem State.putBankCounters_accounting (s : State) (x : BankCounters) :
    (s.putBankCounters x).accounting = s.accounting := rfl
@[simp] theorem State.putBankCounters_watches (s : State) (x : BankCounters) :
    (s.putBankCounters x).watches = s.watches := rfl
@[simp] theorem State.putBankCounters_profiles (s : State) (x : BankCounters) :
    (s.putBankCounters x).profiles = s.profiles := rfl
@[simp] theorem State.putBankCounters_banks (s : State) (x : BankCounters) :
    (s.putBankCounters x).banks = s.banks := rfl
@[simp] theorem State.putBankCounters_timing (s : State) (x : BankCounters) :
    (s.putBankCounters x).timing = s.timing := rfl
@[simp] theorem State.putBankCounters_bankCounters (s : State) (x : BankCounters) :
    (s.putBankCounters x).bankCounters = x := rfl
@[simp] theorem State.putBankCounters_folds (s : State) (x : BankCounters) :
    (s.putBankCounters x).folds = s.folds := rfl
@[simp] theorem State.putBankCounters_regs (s : State) (x : BankCounters) : (s.putBankCounters x).regs = s.regs := rfl
@[simp] theorem State.putBankCounters_writer (s : State) (x : BankCounters) :
    (s.putBankCounters x).writer = s.writer := rfl
@[simp] theorem State.putBankCounters_requests (s : State) (x : BankCounters) :
    (s.putBankCounters x).requests = s.requests := rfl
@[simp] theorem State.putBankCounters_exceptions (s : State) (x : BankCounters) :
    (s.putBankCounters x).exceptions = s.exceptions := rfl
@[simp] theorem State.putBankCounters_notices (s : State) (x : BankCounters) :
    (s.putBankCounters x).notices = s.notices := rfl
@[simp] theorem State.putBankCounters_capture (s : State) (x : BankCounters) :
    (s.putBankCounters x).capture = s.capture := rfl
@[simp] theorem State.putBankCounters_control (s : State) (x : BankCounters) :
    (s.putBankCounters x).control = s.control := rfl
@[simp] theorem State.putBankCounters_watchCounters (s : State) (x : BankCounters) :
    (s.putBankCounters x).watchCounters = s.watchCounters := rfl
@[simp] theorem State.putBankCounters_mem (s : State) (x : BankCounters) : (s.putBankCounters x).mem = s.mem := rfl
@[simp] theorem State.putBankCounters_ld (s : State) (x : BankCounters) : (s.putBankCounters x).ld = s.ld := rfl
@[simp] theorem State.putBankCounters_pending (s : State) (x : BankCounters) :
    (s.putBankCounters x).pending = s.pending := rfl

/-! ### putWriter -/

@[simp] theorem State.putWriter_links (s : State) (x : Writer) : (s.putWriter x).links = s.links := rfl
@[simp] theorem State.putWriter_sorter (s : State) (x : Writer) : (s.putWriter x).sorter = s.sorter := rfl
@[simp] theorem State.putWriter_accounting (s : State) (x : Writer) : (s.putWriter x).accounting = s.accounting := rfl
@[simp] theorem State.putWriter_watches (s : State) (x : Writer) : (s.putWriter x).watches = s.watches := rfl
@[simp] theorem State.putWriter_profiles (s : State) (x : Writer) : (s.putWriter x).profiles = s.profiles := rfl
@[simp] theorem State.putWriter_banks (s : State) (x : Writer) : (s.putWriter x).banks = s.banks := rfl
@[simp] theorem State.putWriter_timing (s : State) (x : Writer) : (s.putWriter x).timing = s.timing := rfl
@[simp] theorem State.putWriter_bankCounters (s : State) (x : Writer) :
    (s.putWriter x).bankCounters = s.bankCounters := rfl
@[simp] theorem State.putWriter_folds (s : State) (x : Writer) : (s.putWriter x).folds = s.folds := rfl
@[simp] theorem State.putWriter_regs (s : State) (x : Writer) : (s.putWriter x).regs = s.regs := rfl
@[simp] theorem State.putWriter_writer (s : State) (x : Writer) : (s.putWriter x).writer = x := rfl
@[simp] theorem State.putWriter_requests (s : State) (x : Writer) : (s.putWriter x).requests = s.requests := rfl
@[simp] theorem State.putWriter_exceptions (s : State) (x : Writer) : (s.putWriter x).exceptions = s.exceptions := rfl
@[simp] theorem State.putWriter_notices (s : State) (x : Writer) : (s.putWriter x).notices = s.notices := rfl
@[simp] theorem State.putWriter_capture (s : State) (x : Writer) : (s.putWriter x).capture = s.capture := rfl
@[simp] theorem State.putWriter_control (s : State) (x : Writer) : (s.putWriter x).control = s.control := rfl
@[simp] theorem State.putWriter_watchCounters (s : State) (x : Writer) :
    (s.putWriter x).watchCounters = s.watchCounters := rfl
@[simp] theorem State.putWriter_mem (s : State) (x : Writer) : (s.putWriter x).mem = s.mem := rfl
@[simp] theorem State.putWriter_ld (s : State) (x : Writer) : (s.putWriter x).ld = s.ld := rfl
@[simp] theorem State.putWriter_pending (s : State) (x : Writer) : (s.putWriter x).pending = s.pending := rfl

/-! ### putExceptions -/

@[simp] theorem State.putExceptions_links (s : State) (x : ExceptionUnit) : (s.putExceptions x).links = s.links := rfl
@[simp] theorem State.putExceptions_sorter (s : State) (x : ExceptionUnit) :
    (s.putExceptions x).sorter = s.sorter := rfl
@[simp] theorem State.putExceptions_accounting (s : State) (x : ExceptionUnit) :
    (s.putExceptions x).accounting = s.accounting := rfl
@[simp] theorem State.putExceptions_watches (s : State) (x : ExceptionUnit) :
    (s.putExceptions x).watches = s.watches := rfl
@[simp] theorem State.putExceptions_profiles (s : State) (x : ExceptionUnit) :
    (s.putExceptions x).profiles = s.profiles := rfl
@[simp] theorem State.putExceptions_banks (s : State) (x : ExceptionUnit) : (s.putExceptions x).banks = s.banks := rfl
@[simp] theorem State.putExceptions_timing (s : State) (x : ExceptionUnit) :
    (s.putExceptions x).timing = s.timing := rfl
@[simp] theorem State.putExceptions_bankCounters (s : State) (x : ExceptionUnit) :
    (s.putExceptions x).bankCounters = s.bankCounters := rfl
@[simp] theorem State.putExceptions_folds (s : State) (x : ExceptionUnit) : (s.putExceptions x).folds = s.folds := rfl
@[simp] theorem State.putExceptions_regs (s : State) (x : ExceptionUnit) : (s.putExceptions x).regs = s.regs := rfl
@[simp] theorem State.putExceptions_writer (s : State) (x : ExceptionUnit) :
    (s.putExceptions x).writer = s.writer := rfl
@[simp] theorem State.putExceptions_requests (s : State) (x : ExceptionUnit) :
    (s.putExceptions x).requests = s.requests := rfl
@[simp] theorem State.putExceptions_exceptions (s : State) (x : ExceptionUnit) :
    (s.putExceptions x).exceptions = x := rfl
@[simp] theorem State.putExceptions_notices (s : State) (x : ExceptionUnit) :
    (s.putExceptions x).notices = s.notices := rfl
@[simp] theorem State.putExceptions_capture (s : State) (x : ExceptionUnit) :
    (s.putExceptions x).capture = s.capture := rfl
@[simp] theorem State.putExceptions_control (s : State) (x : ExceptionUnit) :
    (s.putExceptions x).control = s.control := rfl
@[simp] theorem State.putExceptions_watchCounters (s : State) (x : ExceptionUnit) :
    (s.putExceptions x).watchCounters = s.watchCounters := rfl
@[simp] theorem State.putExceptions_mem (s : State) (x : ExceptionUnit) : (s.putExceptions x).mem = s.mem := rfl
@[simp] theorem State.putExceptions_ld (s : State) (x : ExceptionUnit) : (s.putExceptions x).ld = s.ld := rfl
@[simp] theorem State.putExceptions_pending (s : State) (x : ExceptionUnit) :
    (s.putExceptions x).pending = s.pending := rfl

/-! ### putWatchCounters -/

@[simp] theorem State.putWatchCounters_links (s : State) (x : WatchCounters) :
    (s.putWatchCounters x).links = s.links := rfl
@[simp] theorem State.putWatchCounters_sorter (s : State) (x : WatchCounters) :
    (s.putWatchCounters x).sorter = s.sorter := rfl
@[simp] theorem State.putWatchCounters_accounting (s : State) (x : WatchCounters) :
    (s.putWatchCounters x).accounting = s.accounting := rfl
@[simp] theorem State.putWatchCounters_watches (s : State) (x : WatchCounters) :
    (s.putWatchCounters x).watches = s.watches := rfl
@[simp] theorem State.putWatchCounters_profiles (s : State) (x : WatchCounters) :
    (s.putWatchCounters x).profiles = s.profiles := rfl
@[simp] theorem State.putWatchCounters_banks (s : State) (x : WatchCounters) :
    (s.putWatchCounters x).banks = s.banks := rfl
@[simp] theorem State.putWatchCounters_timing (s : State) (x : WatchCounters) :
    (s.putWatchCounters x).timing = s.timing := rfl
@[simp] theorem State.putWatchCounters_bankCounters (s : State) (x : WatchCounters) :
    (s.putWatchCounters x).bankCounters = s.bankCounters := rfl
@[simp] theorem State.putWatchCounters_folds (s : State) (x : WatchCounters) :
    (s.putWatchCounters x).folds = s.folds := rfl
@[simp] theorem State.putWatchCounters_regs (s : State) (x : WatchCounters) :
    (s.putWatchCounters x).regs = s.regs := rfl
@[simp] theorem State.putWatchCounters_writer (s : State) (x : WatchCounters) :
    (s.putWatchCounters x).writer = s.writer := rfl
@[simp] theorem State.putWatchCounters_requests (s : State) (x : WatchCounters) :
    (s.putWatchCounters x).requests = s.requests := rfl
@[simp] theorem State.putWatchCounters_exceptions (s : State) (x : WatchCounters) :
    (s.putWatchCounters x).exceptions = s.exceptions := rfl
@[simp] theorem State.putWatchCounters_notices (s : State) (x : WatchCounters) :
    (s.putWatchCounters x).notices = s.notices := rfl
@[simp] theorem State.putWatchCounters_capture (s : State) (x : WatchCounters) :
    (s.putWatchCounters x).capture = s.capture := rfl
@[simp] theorem State.putWatchCounters_control (s : State) (x : WatchCounters) :
    (s.putWatchCounters x).control = s.control := rfl
@[simp] theorem State.putWatchCounters_watchCounters (s : State) (x : WatchCounters) :
    (s.putWatchCounters x).watchCounters = x := rfl
@[simp] theorem State.putWatchCounters_mem (s : State) (x : WatchCounters) : (s.putWatchCounters x).mem = s.mem := rfl
@[simp] theorem State.putWatchCounters_ld (s : State) (x : WatchCounters) : (s.putWatchCounters x).ld = s.ld := rfl
@[simp] theorem State.putWatchCounters_pending (s : State) (x : WatchCounters) :
    (s.putWatchCounters x).pending = s.pending := rfl

/-! ### putRequests -/

@[simp] theorem State.putRequests_links (s : State) (x : RequestUnit) : (s.putRequests x).links = s.links := rfl
@[simp] theorem State.putRequests_sorter (s : State) (x : RequestUnit) : (s.putRequests x).sorter = s.sorter := rfl
@[simp] theorem State.putRequests_accounting (s : State) (x : RequestUnit) :
    (s.putRequests x).accounting = s.accounting := rfl
@[simp] theorem State.putRequests_watches (s : State) (x : RequestUnit) : (s.putRequests x).watches = s.watches := rfl
@[simp] theorem State.putRequests_profiles (s : State) (x : RequestUnit) :
    (s.putRequests x).profiles = s.profiles := rfl
@[simp] theorem State.putRequests_banks (s : State) (x : RequestUnit) : (s.putRequests x).banks = s.banks := rfl
@[simp] theorem State.putRequests_timing (s : State) (x : RequestUnit) : (s.putRequests x).timing = s.timing := rfl
@[simp] theorem State.putRequests_bankCounters (s : State) (x : RequestUnit) :
    (s.putRequests x).bankCounters = s.bankCounters := rfl
@[simp] theorem State.putRequests_folds (s : State) (x : RequestUnit) : (s.putRequests x).folds = s.folds := rfl
@[simp] theorem State.putRequests_regs (s : State) (x : RequestUnit) : (s.putRequests x).regs = s.regs := rfl
@[simp] theorem State.putRequests_writer (s : State) (x : RequestUnit) : (s.putRequests x).writer = s.writer := rfl
@[simp] theorem State.putRequests_requests (s : State) (x : RequestUnit) : (s.putRequests x).requests = x := rfl
@[simp] theorem State.putRequests_exceptions (s : State) (x : RequestUnit) :
    (s.putRequests x).exceptions = s.exceptions := rfl
@[simp] theorem State.putRequests_notices (s : State) (x : RequestUnit) : (s.putRequests x).notices = s.notices := rfl
@[simp] theorem State.putRequests_capture (s : State) (x : RequestUnit) : (s.putRequests x).capture = s.capture := rfl
@[simp] theorem State.putRequests_control (s : State) (x : RequestUnit) : (s.putRequests x).control = s.control := rfl
@[simp] theorem State.putRequests_watchCounters (s : State) (x : RequestUnit) :
    (s.putRequests x).watchCounters = s.watchCounters := rfl
@[simp] theorem State.putRequests_mem (s : State) (x : RequestUnit) : (s.putRequests x).mem = s.mem := rfl
@[simp] theorem State.putRequests_ld (s : State) (x : RequestUnit) : (s.putRequests x).ld = s.ld := rfl
@[simp] theorem State.putRequests_pending (s : State) (x : RequestUnit) : (s.putRequests x).pending = s.pending := rfl

/-! ### putCapture -/

@[simp] theorem State.putCapture_links (s : State) (c : Option Capture) : (s.putCapture c).links = s.links := rfl
@[simp] theorem State.putCapture_sorter (s : State) (c : Option Capture) : (s.putCapture c).sorter = s.sorter := rfl
@[simp] theorem State.putCapture_accounting (s : State) (c : Option Capture) :
    (s.putCapture c).accounting = s.accounting := rfl
@[simp] theorem State.putCapture_watches (s : State) (c : Option Capture) : (s.putCapture c).watches = s.watches := rfl
@[simp] theorem State.putCapture_profiles (s : State) (c : Option Capture) :
    (s.putCapture c).profiles = s.profiles := rfl
@[simp] theorem State.putCapture_banks (s : State) (c : Option Capture) : (s.putCapture c).banks = s.banks := rfl
@[simp] theorem State.putCapture_timing (s : State) (c : Option Capture) : (s.putCapture c).timing = s.timing := rfl
@[simp] theorem State.putCapture_bankCounters (s : State) (c : Option Capture) :
    (s.putCapture c).bankCounters = s.bankCounters := rfl
@[simp] theorem State.putCapture_folds (s : State) (c : Option Capture) : (s.putCapture c).folds = s.folds := rfl
@[simp] theorem State.putCapture_regs (s : State) (c : Option Capture) : (s.putCapture c).regs = s.regs := rfl
@[simp] theorem State.putCapture_writer (s : State) (c : Option Capture) : (s.putCapture c).writer = s.writer := rfl
@[simp] theorem State.putCapture_requests (s : State) (c : Option Capture) :
    (s.putCapture c).requests = s.requests := rfl
@[simp] theorem State.putCapture_exceptions (s : State) (c : Option Capture) :
    (s.putCapture c).exceptions = s.exceptions := rfl
@[simp] theorem State.putCapture_notices (s : State) (c : Option Capture) : (s.putCapture c).notices = s.notices := rfl
@[simp] theorem State.putCapture_capture (s : State) (c : Option Capture) : (s.putCapture c).capture = c := rfl
@[simp] theorem State.putCapture_control (s : State) (c : Option Capture) : (s.putCapture c).control = s.control := rfl
@[simp] theorem State.putCapture_watchCounters (s : State) (c : Option Capture) :
    (s.putCapture c).watchCounters = s.watchCounters := rfl
@[simp] theorem State.putCapture_mem (s : State) (c : Option Capture) : (s.putCapture c).mem = s.mem := rfl
@[simp] theorem State.putCapture_ld (s : State) (c : Option Capture) : (s.putCapture c).ld = s.ld := rfl
@[simp] theorem State.putCapture_pending (s : State) (c : Option Capture) : (s.putCapture c).pending = s.pending := rfl

/-! ### putProfile -/

@[simp] theorem State.putProfile_links (s : State) (p : PointId) (x : Profile) :
    (s.putProfile p x).links = s.links := rfl
@[simp] theorem State.putProfile_sorter (s : State) (p : PointId) (x : Profile) :
    (s.putProfile p x).sorter = s.sorter := rfl
@[simp] theorem State.putProfile_accounting (s : State) (p : PointId) (x : Profile) :
    (s.putProfile p x).accounting = s.accounting := rfl
@[simp] theorem State.putProfile_watches (s : State) (p : PointId) (x : Profile) :
    (s.putProfile p x).watches = s.watches := rfl
@[simp] theorem State.putProfile_profiles (s : State) (p : PointId) (x : Profile) :
    (s.putProfile p x).profiles = s.profiles.set p x := rfl
@[simp] theorem State.putProfile_banks (s : State) (p : PointId) (x : Profile) :
    (s.putProfile p x).banks = s.banks := rfl
@[simp] theorem State.putProfile_timing (s : State) (p : PointId) (x : Profile) :
    (s.putProfile p x).timing = s.timing := rfl
@[simp] theorem State.putProfile_bankCounters (s : State) (p : PointId) (x : Profile) :
    (s.putProfile p x).bankCounters = s.bankCounters := rfl
@[simp] theorem State.putProfile_folds (s : State) (p : PointId) (x : Profile) :
    (s.putProfile p x).folds = s.folds := rfl
@[simp] theorem State.putProfile_regs (s : State) (p : PointId) (x : Profile) : (s.putProfile p x).regs = s.regs := rfl
@[simp] theorem State.putProfile_writer (s : State) (p : PointId) (x : Profile) :
    (s.putProfile p x).writer = s.writer := rfl
@[simp] theorem State.putProfile_requests (s : State) (p : PointId) (x : Profile) :
    (s.putProfile p x).requests = s.requests := rfl
@[simp] theorem State.putProfile_exceptions (s : State) (p : PointId) (x : Profile) :
    (s.putProfile p x).exceptions = s.exceptions := rfl
@[simp] theorem State.putProfile_notices (s : State) (p : PointId) (x : Profile) :
    (s.putProfile p x).notices = s.notices := rfl
@[simp] theorem State.putProfile_capture (s : State) (p : PointId) (x : Profile) :
    (s.putProfile p x).capture = s.capture := rfl
@[simp] theorem State.putProfile_control (s : State) (p : PointId) (x : Profile) :
    (s.putProfile p x).control = s.control := rfl
@[simp] theorem State.putProfile_watchCounters (s : State) (p : PointId) (x : Profile) :
    (s.putProfile p x).watchCounters = s.watchCounters := rfl
@[simp] theorem State.putProfile_mem (s : State) (p : PointId) (x : Profile) : (s.putProfile p x).mem = s.mem := rfl
@[simp] theorem State.putProfile_ecc (s : State) (p : PointId) (x : Profile) : (s.putProfile p x).ecc = s.ecc := rfl
@[simp] theorem State.putProfile_ld (s : State) (p : PointId) (x : Profile) : (s.putProfile p x).ld = s.ld := rfl
@[simp] theorem State.putProfile_pending (s : State) (p : PointId) (x : Profile) :
    (s.putProfile p x).pending = s.pending := rfl

/-! ### putFold -/

@[simp] theorem State.putFold_links (s : State) (b : BankId) (x : Option Fold) : (s.putFold b x).links = s.links := rfl
@[simp] theorem State.putFold_sorter (s : State) (b : BankId) (x : Option Fold) :
    (s.putFold b x).sorter = s.sorter := rfl
@[simp] theorem State.putFold_accounting (s : State) (b : BankId) (x : Option Fold) :
    (s.putFold b x).accounting = s.accounting := rfl
@[simp] theorem State.putFold_watches (s : State) (b : BankId) (x : Option Fold) :
    (s.putFold b x).watches = s.watches := rfl
@[simp] theorem State.putFold_profiles (s : State) (b : BankId) (x : Option Fold) :
    (s.putFold b x).profiles = s.profiles := rfl
@[simp] theorem State.putFold_banks (s : State) (b : BankId) (x : Option Fold) : (s.putFold b x).banks = s.banks := rfl
@[simp] theorem State.putFold_timing (s : State) (b : BankId) (x : Option Fold) :
    (s.putFold b x).timing = s.timing := rfl
@[simp] theorem State.putFold_bankCounters (s : State) (b : BankId) (x : Option Fold) :
    (s.putFold b x).bankCounters = s.bankCounters := rfl
@[simp] theorem State.putFold_folds (s : State) (b : BankId) (x : Option Fold) :
    (s.putFold b x).folds = s.folds.set b x := rfl
@[simp] theorem State.putFold_regs (s : State) (b : BankId) (x : Option Fold) : (s.putFold b x).regs = s.regs := rfl
@[simp] theorem State.putFold_writer (s : State) (b : BankId) (x : Option Fold) :
    (s.putFold b x).writer = s.writer := rfl
@[simp] theorem State.putFold_requests (s : State) (b : BankId) (x : Option Fold) :
    (s.putFold b x).requests = s.requests := rfl
@[simp] theorem State.putFold_exceptions (s : State) (b : BankId) (x : Option Fold) :
    (s.putFold b x).exceptions = s.exceptions := rfl
@[simp] theorem State.putFold_notices (s : State) (b : BankId) (x : Option Fold) :
    (s.putFold b x).notices = s.notices := rfl
@[simp] theorem State.putFold_capture (s : State) (b : BankId) (x : Option Fold) :
    (s.putFold b x).capture = s.capture := rfl
@[simp] theorem State.putFold_control (s : State) (b : BankId) (x : Option Fold) :
    (s.putFold b x).control = s.control := rfl
@[simp] theorem State.putFold_watchCounters (s : State) (b : BankId) (x : Option Fold) :
    (s.putFold b x).watchCounters = s.watchCounters := rfl
@[simp] theorem State.putFold_mem (s : State) (b : BankId) (x : Option Fold) : (s.putFold b x).mem = s.mem := rfl
@[simp] theorem State.putFold_ecc (s : State) (b : BankId) (x : Option Fold) : (s.putFold b x).ecc = s.ecc := rfl
@[simp] theorem State.putFold_ld (s : State) (b : BankId) (x : Option Fold) : (s.putFold b x).ld = s.ld := rfl
@[simp] theorem State.putFold_pending (s : State) (b : BankId) (x : Option Fold) :
    (s.putFold b x).pending = s.pending := rfl

/-! ### putRegs -/

@[simp] theorem State.putRegs_links (s : State) (p : SetId) (x : RegisterSet) : (s.putRegs p x).links = s.links := rfl
@[simp] theorem State.putRegs_sorter (s : State) (p : SetId) (x : RegisterSet) :
    (s.putRegs p x).sorter = s.sorter := rfl
@[simp] theorem State.putRegs_accounting (s : State) (p : SetId) (x : RegisterSet) :
    (s.putRegs p x).accounting = s.accounting := rfl
@[simp] theorem State.putRegs_watches (s : State) (p : SetId) (x : RegisterSet) :
    (s.putRegs p x).watches = s.watches := rfl
@[simp] theorem State.putRegs_profiles (s : State) (p : SetId) (x : RegisterSet) :
    (s.putRegs p x).profiles = s.profiles := rfl
@[simp] theorem State.putRegs_banks (s : State) (p : SetId) (x : RegisterSet) : (s.putRegs p x).banks = s.banks := rfl
@[simp] theorem State.putRegs_timing (s : State) (p : SetId) (x : RegisterSet) :
    (s.putRegs p x).timing = s.timing := rfl
@[simp] theorem State.putRegs_bankCounters (s : State) (p : SetId) (x : RegisterSet) :
    (s.putRegs p x).bankCounters = s.bankCounters := rfl
@[simp] theorem State.putRegs_folds (s : State) (p : SetId) (x : RegisterSet) : (s.putRegs p x).folds = s.folds := rfl
@[simp] theorem State.putRegs_regs (s : State) (p : SetId) (x : RegisterSet) :
    (s.putRegs p x).regs = s.regs.set p x := rfl
@[simp] theorem State.putRegs_writer (s : State) (p : SetId) (x : RegisterSet) :
    (s.putRegs p x).writer = s.writer := rfl
@[simp] theorem State.putRegs_requests (s : State) (p : SetId) (x : RegisterSet) :
    (s.putRegs p x).requests = s.requests := rfl
@[simp] theorem State.putRegs_exceptions (s : State) (p : SetId) (x : RegisterSet) :
    (s.putRegs p x).exceptions = s.exceptions := rfl
@[simp] theorem State.putRegs_notices (s : State) (p : SetId) (x : RegisterSet) :
    (s.putRegs p x).notices = s.notices := rfl
@[simp] theorem State.putRegs_capture (s : State) (p : SetId) (x : RegisterSet) :
    (s.putRegs p x).capture = s.capture := rfl
@[simp] theorem State.putRegs_control (s : State) (p : SetId) (x : RegisterSet) :
    (s.putRegs p x).control = s.control := rfl
@[simp] theorem State.putRegs_watchCounters (s : State) (p : SetId) (x : RegisterSet) :
    (s.putRegs p x).watchCounters = s.watchCounters := rfl
@[simp] theorem State.putRegs_mem (s : State) (p : SetId) (x : RegisterSet) : (s.putRegs p x).mem = s.mem := rfl
@[simp] theorem State.putRegs_ecc (s : State) (p : SetId) (x : RegisterSet) : (s.putRegs p x).ecc = s.ecc := rfl
@[simp] theorem State.putRegs_ld (s : State) (p : SetId) (x : RegisterSet) : (s.putRegs p x).ld = s.ld := rfl
@[simp] theorem State.putRegs_pending (s : State) (p : SetId) (x : RegisterSet) :
    (s.putRegs p x).pending = s.pending := rfl

/-! ### putWatch -/

@[simp] theorem State.putWatch_links (s : State) (p : PointId) (x : Watch) : (s.putWatch p x).links = s.links := rfl
@[simp] theorem State.putWatch_sorter (s : State) (p : PointId) (x : Watch) : (s.putWatch p x).sorter = s.sorter := rfl
@[simp] theorem State.putWatch_accounting (s : State) (p : PointId) (x : Watch) :
    (s.putWatch p x).accounting = s.accounting := rfl
@[simp] theorem State.putWatch_watches (s : State) (p : PointId) (x : Watch) :
    (s.putWatch p x).watches = s.watches.set p x := rfl
@[simp] theorem State.putWatch_profiles (s : State) (p : PointId) (x : Watch) :
    (s.putWatch p x).profiles = s.profiles := rfl
@[simp] theorem State.putWatch_banks (s : State) (p : PointId) (x : Watch) : (s.putWatch p x).banks = s.banks := rfl
@[simp] theorem State.putWatch_timing (s : State) (p : PointId) (x : Watch) : (s.putWatch p x).timing = s.timing := rfl
@[simp] theorem State.putWatch_bankCounters (s : State) (p : PointId) (x : Watch) :
    (s.putWatch p x).bankCounters = s.bankCounters := rfl
@[simp] theorem State.putWatch_folds (s : State) (p : PointId) (x : Watch) : (s.putWatch p x).folds = s.folds := rfl
@[simp] theorem State.putWatch_regs (s : State) (p : PointId) (x : Watch) : (s.putWatch p x).regs = s.regs := rfl
@[simp] theorem State.putWatch_writer (s : State) (p : PointId) (x : Watch) : (s.putWatch p x).writer = s.writer := rfl
@[simp] theorem State.putWatch_requests (s : State) (p : PointId) (x : Watch) :
    (s.putWatch p x).requests = s.requests := rfl
@[simp] theorem State.putWatch_exceptions (s : State) (p : PointId) (x : Watch) :
    (s.putWatch p x).exceptions = s.exceptions := rfl
@[simp] theorem State.putWatch_notices (s : State) (p : PointId) (x : Watch) :
    (s.putWatch p x).notices = s.notices := rfl
@[simp] theorem State.putWatch_capture (s : State) (p : PointId) (x : Watch) :
    (s.putWatch p x).capture = s.capture := rfl
@[simp] theorem State.putWatch_control (s : State) (p : PointId) (x : Watch) :
    (s.putWatch p x).control = s.control := rfl
@[simp] theorem State.putWatch_watchCounters (s : State) (p : PointId) (x : Watch) :
    (s.putWatch p x).watchCounters = s.watchCounters := rfl
@[simp] theorem State.putWatch_mem (s : State) (p : PointId) (x : Watch) : (s.putWatch p x).mem = s.mem := rfl
@[simp] theorem State.putWatch_ecc (s : State) (p : PointId) (x : Watch) : (s.putWatch p x).ecc = s.ecc := rfl
@[simp] theorem State.putWatch_ld (s : State) (p : PointId) (x : Watch) : (s.putWatch p x).ld = s.ld := rfl
@[simp] theorem State.putWatch_pending (s : State) (p : PointId) (x : Watch) :
    (s.putWatch p x).pending = s.pending := rfl

/-! ### latch -/

@[simp] theorem State.latch_links (s : State) (c : Cause) : (s.latch c).links = s.links := rfl
@[simp] theorem State.latch_sorter (s : State) (c : Cause) : (s.latch c).sorter = s.sorter := rfl
@[simp] theorem State.latch_accounting (s : State) (c : Cause) : (s.latch c).accounting = s.accounting := rfl
@[simp] theorem State.latch_watches (s : State) (c : Cause) : (s.latch c).watches = s.watches := rfl
@[simp] theorem State.latch_profiles (s : State) (c : Cause) : (s.latch c).profiles = s.profiles := rfl
@[simp] theorem State.latch_banks (s : State) (c : Cause) : (s.latch c).banks = s.banks := rfl
@[simp] theorem State.latch_timing (s : State) (c : Cause) : (s.latch c).timing = s.timing := rfl
@[simp] theorem State.latch_bankCounters (s : State) (c : Cause) : (s.latch c).bankCounters = s.bankCounters := rfl
@[simp] theorem State.latch_folds (s : State) (c : Cause) : (s.latch c).folds = s.folds := rfl
@[simp] theorem State.latch_regs (s : State) (c : Cause) : (s.latch c).regs = s.regs := rfl
@[simp] theorem State.latch_writer (s : State) (c : Cause) : (s.latch c).writer = s.writer := rfl
@[simp] theorem State.latch_requests (s : State) (c : Cause) : (s.latch c).requests = s.requests := rfl
@[simp] theorem State.latch_exceptions (s : State) (c : Cause) : (s.latch c).exceptions = s.exceptions := rfl
@[simp] theorem State.latch_notices (s : State) (c : Cause) :
    (s.latch c).notices = { s.notices with latched := s.notices.latched ||| c.flag } := rfl
@[simp] theorem State.latch_capture (s : State) (c : Cause) : (s.latch c).capture = s.capture := rfl
@[simp] theorem State.latch_control (s : State) (c : Cause) : (s.latch c).control = s.control := rfl
@[simp] theorem State.latch_watchCounters (s : State) (c : Cause) : (s.latch c).watchCounters = s.watchCounters := rfl
@[simp] theorem State.latch_mem (s : State) (c : Cause) : (s.latch c).mem = s.mem := rfl
@[simp] theorem State.latch_ecc (s : State) (c : Cause) : (s.latch c).ecc = s.ecc := rfl
@[simp] theorem State.latch_ld (s : State) (c : Cause) : (s.latch c).ld = s.ld := rfl
@[simp] theorem State.latch_pending (s : State) (c : Cause) : (s.latch c).pending = s.pending := rfl

/-! ### accWritten -/

@[simp] theorem State.accWritten_links (s : State) (w : AccWord) : (s.accWritten w).links = s.links := rfl
@[simp] theorem State.accWritten_sorter (s : State) (w : AccWord) : (s.accWritten w).sorter = s.sorter := rfl
@[simp] theorem State.accWritten_accounting (s : State) (w : AccWord) :
    (s.accWritten w).accounting = s.accounting := rfl
@[simp] theorem State.accWritten_watches (s : State) (w : AccWord) : (s.accWritten w).watches = s.watches := rfl
@[simp] theorem State.accWritten_profiles (s : State) (w : AccWord) : (s.accWritten w).profiles = s.profiles := rfl
@[simp] theorem State.accWritten_banks (s : State) (w : AccWord) : (s.accWritten w).banks = s.banks := rfl
@[simp] theorem State.accWritten_timing (s : State) (w : AccWord) : (s.accWritten w).timing = s.timing := rfl
@[simp] theorem State.accWritten_bankCounters (s : State) (w : AccWord) :
    (s.accWritten w).bankCounters = s.bankCounters := rfl
@[simp] theorem State.accWritten_folds (s : State) (w : AccWord) : (s.accWritten w).folds = s.folds := rfl
@[simp] theorem State.accWritten_regs (s : State) (w : AccWord) : (s.accWritten w).regs = s.regs := rfl
@[simp] theorem State.accWritten_writer (s : State) (w : AccWord) : (s.accWritten w).writer = s.writer := rfl
@[simp] theorem State.accWritten_requests (s : State) (w : AccWord) : (s.accWritten w).requests = s.requests := rfl
@[simp] theorem State.accWritten_exceptions (s : State) (w : AccWord) :
    (s.accWritten w).exceptions = s.exceptions := rfl
@[simp] theorem State.accWritten_notices (s : State) (w : AccWord) : (s.accWritten w).notices = s.notices := rfl
@[simp] theorem State.accWritten_capture (s : State) (w : AccWord) : (s.accWritten w).capture = s.capture := rfl
@[simp] theorem State.accWritten_control (s : State) (w : AccWord) : (s.accWritten w).control = s.control := rfl
@[simp] theorem State.accWritten_watchCounters (s : State) (w : AccWord) :
    (s.accWritten w).watchCounters = s.watchCounters := rfl
@[simp] theorem State.accWritten_mem (s : State) (w : AccWord) : (s.accWritten w).mem = s.mem := rfl
@[simp] theorem State.accWritten_ld (s : State) (w : AccWord) : (s.accWritten w).ld = s.ld := rfl
@[simp] theorem State.accWritten_pending (s : State) (w : AccWord) : (s.accWritten w).pending = s.pending := rfl

/-! ### setWritten -/

@[simp] theorem State.setWritten_links (s : State) (b : BankId) (i : Fin 2) : (s.setWritten b i).links = s.links := rfl
@[simp] theorem State.setWritten_sorter (s : State) (b : BankId) (i : Fin 2) :
    (s.setWritten b i).sorter = s.sorter := rfl
@[simp] theorem State.setWritten_accounting (s : State) (b : BankId) (i : Fin 2) :
    (s.setWritten b i).accounting = s.accounting := rfl
@[simp] theorem State.setWritten_watches (s : State) (b : BankId) (i : Fin 2) :
    (s.setWritten b i).watches = s.watches := rfl
@[simp] theorem State.setWritten_profiles (s : State) (b : BankId) (i : Fin 2) :
    (s.setWritten b i).profiles = s.profiles := rfl
@[simp] theorem State.setWritten_banks (s : State) (b : BankId) (i : Fin 2) : (s.setWritten b i).banks = s.banks := rfl
@[simp] theorem State.setWritten_timing (s : State) (b : BankId) (i : Fin 2) :
    (s.setWritten b i).timing = s.timing := rfl
@[simp] theorem State.setWritten_bankCounters (s : State) (b : BankId) (i : Fin 2) :
    (s.setWritten b i).bankCounters = s.bankCounters := rfl
@[simp] theorem State.setWritten_folds (s : State) (b : BankId) (i : Fin 2) : (s.setWritten b i).folds = s.folds := rfl
@[simp] theorem State.setWritten_regs (s : State) (b : BankId) (i : Fin 2) : (s.setWritten b i).regs = s.regs := rfl
@[simp] theorem State.setWritten_writer (s : State) (b : BankId) (i : Fin 2) :
    (s.setWritten b i).writer = s.writer := rfl
@[simp] theorem State.setWritten_requests (s : State) (b : BankId) (i : Fin 2) :
    (s.setWritten b i).requests = s.requests := rfl
@[simp] theorem State.setWritten_exceptions (s : State) (b : BankId) (i : Fin 2) :
    (s.setWritten b i).exceptions = s.exceptions := rfl
@[simp] theorem State.setWritten_notices (s : State) (b : BankId) (i : Fin 2) :
    (s.setWritten b i).notices = s.notices := rfl
@[simp] theorem State.setWritten_capture (s : State) (b : BankId) (i : Fin 2) :
    (s.setWritten b i).capture = s.capture := rfl
@[simp] theorem State.setWritten_control (s : State) (b : BankId) (i : Fin 2) :
    (s.setWritten b i).control = s.control := rfl
@[simp] theorem State.setWritten_watchCounters (s : State) (b : BankId) (i : Fin 2) :
    (s.setWritten b i).watchCounters = s.watchCounters := rfl
@[simp] theorem State.setWritten_mem (s : State) (b : BankId) (i : Fin 2) : (s.setWritten b i).mem = s.mem := rfl
@[simp] theorem State.setWritten_ld (s : State) (b : BankId) (i : Fin 2) : (s.setWritten b i).ld = s.ld := rfl
@[simp] theorem State.setWritten_pending (s : State) (b : BankId) (i : Fin 2) :
    (s.setWritten b i).pending = s.pending := rfl

/-! ### regWritten -/

@[simp] theorem State.regWritten_links (s : State) (p : SetId) (f : RegItem → Bool) :
    (s.regWritten p f).links = s.links := rfl
@[simp] theorem State.regWritten_sorter (s : State) (p : SetId) (f : RegItem → Bool) :
    (s.regWritten p f).sorter = s.sorter := rfl
@[simp] theorem State.regWritten_accounting (s : State) (p : SetId) (f : RegItem → Bool) :
    (s.regWritten p f).accounting = s.accounting := rfl
@[simp] theorem State.regWritten_watches (s : State) (p : SetId) (f : RegItem → Bool) :
    (s.regWritten p f).watches = s.watches := rfl
@[simp] theorem State.regWritten_profiles (s : State) (p : SetId) (f : RegItem → Bool) :
    (s.regWritten p f).profiles = s.profiles := rfl
@[simp] theorem State.regWritten_banks (s : State) (p : SetId) (f : RegItem → Bool) :
    (s.regWritten p f).banks = s.banks := rfl
@[simp] theorem State.regWritten_timing (s : State) (p : SetId) (f : RegItem → Bool) :
    (s.regWritten p f).timing = s.timing := rfl
@[simp] theorem State.regWritten_bankCounters (s : State) (p : SetId) (f : RegItem → Bool) :
    (s.regWritten p f).bankCounters = s.bankCounters := rfl
@[simp] theorem State.regWritten_folds (s : State) (p : SetId) (f : RegItem → Bool) :
    (s.regWritten p f).folds = s.folds := rfl
@[simp] theorem State.regWritten_regs (s : State) (p : SetId) (f : RegItem → Bool) :
    (s.regWritten p f).regs = s.regs := rfl
@[simp] theorem State.regWritten_writer (s : State) (p : SetId) (f : RegItem → Bool) :
    (s.regWritten p f).writer = s.writer := rfl
@[simp] theorem State.regWritten_requests (s : State) (p : SetId) (f : RegItem → Bool) :
    (s.regWritten p f).requests = s.requests := rfl
@[simp] theorem State.regWritten_exceptions (s : State) (p : SetId) (f : RegItem → Bool) :
    (s.regWritten p f).exceptions = s.exceptions := rfl
@[simp] theorem State.regWritten_notices (s : State) (p : SetId) (f : RegItem → Bool) :
    (s.regWritten p f).notices = s.notices := rfl
@[simp] theorem State.regWritten_capture (s : State) (p : SetId) (f : RegItem → Bool) :
    (s.regWritten p f).capture = s.capture := rfl
@[simp] theorem State.regWritten_control (s : State) (p : SetId) (f : RegItem → Bool) :
    (s.regWritten p f).control = s.control := rfl
@[simp] theorem State.regWritten_watchCounters (s : State) (p : SetId) (f : RegItem → Bool) :
    (s.regWritten p f).watchCounters = s.watchCounters := rfl
@[simp] theorem State.regWritten_mem (s : State) (p : SetId) (f : RegItem → Bool) :
    (s.regWritten p f).mem = s.mem := rfl
@[simp] theorem State.regWritten_ld (s : State) (p : SetId) (f : RegItem → Bool) : (s.regWritten p f).ld = s.ld := rfl
@[simp] theorem State.regWritten_pending (s : State) (p : SetId) (f : RegItem → Bool) :
    (s.regWritten p f).pending = s.pending := rfl

/-! ### removePending -/

@[simp] theorem State.removePending_links (s : State) (k : SlotId) : (s.removePending k).links = s.links := rfl
@[simp] theorem State.removePending_sorter (s : State) (k : SlotId) : (s.removePending k).sorter = s.sorter := rfl
@[simp] theorem State.removePending_accounting (s : State) (k : SlotId) :
    (s.removePending k).accounting = s.accounting := rfl
@[simp] theorem State.removePending_watches (s : State) (k : SlotId) : (s.removePending k).watches = s.watches := rfl
@[simp] theorem State.removePending_profiles (s : State) (k : SlotId) : (s.removePending k).profiles = s.profiles := rfl
@[simp] theorem State.removePending_banks (s : State) (k : SlotId) : (s.removePending k).banks = s.banks := rfl
@[simp] theorem State.removePending_timing (s : State) (k : SlotId) : (s.removePending k).timing = s.timing := rfl
@[simp] theorem State.removePending_bankCounters (s : State) (k : SlotId) :
    (s.removePending k).bankCounters = s.bankCounters := rfl
@[simp] theorem State.removePending_folds (s : State) (k : SlotId) : (s.removePending k).folds = s.folds := rfl
@[simp] theorem State.removePending_regs (s : State) (k : SlotId) : (s.removePending k).regs = s.regs := rfl
@[simp] theorem State.removePending_writer (s : State) (k : SlotId) : (s.removePending k).writer = s.writer := rfl
@[simp] theorem State.removePending_requests (s : State) (k : SlotId) :
    (s.removePending k).requests = { s.requests with table := s.requests.table.filter fun e => e.slot != k } := rfl
@[simp] theorem State.removePending_exceptions (s : State) (k : SlotId) :
    (s.removePending k).exceptions = s.exceptions := rfl
@[simp] theorem State.removePending_notices (s : State) (k : SlotId) : (s.removePending k).notices = s.notices := rfl
@[simp] theorem State.removePending_capture (s : State) (k : SlotId) : (s.removePending k).capture = s.capture := rfl
@[simp] theorem State.removePending_control (s : State) (k : SlotId) : (s.removePending k).control = s.control := rfl
@[simp] theorem State.removePending_watchCounters (s : State) (k : SlotId) :
    (s.removePending k).watchCounters = s.watchCounters := rfl
@[simp] theorem State.removePending_mem (s : State) (k : SlotId) : (s.removePending k).mem = s.mem := rfl
@[simp] theorem State.removePending_ecc (s : State) (k : SlotId) : (s.removePending k).ecc = s.ecc := rfl
@[simp] theorem State.removePending_ld (s : State) (k : SlotId) : (s.removePending k).ld = s.ld := rfl
@[simp] theorem State.removePending_pending (s : State) (k : SlotId) : (s.removePending k).pending = s.pending := rfl

/-! ### setSlot -/

@[simp] theorem State.setSlot_links (s : State) (k : SlotId) (st : SlotState) : (s.setSlot k st).links = s.links := rfl
@[simp] theorem State.setSlot_sorter (s : State) (k : SlotId) (st : SlotState) :
    (s.setSlot k st).sorter = s.sorter := rfl
@[simp] theorem State.setSlot_accounting (s : State) (k : SlotId) (st : SlotState) :
    (s.setSlot k st).accounting = s.accounting := rfl
@[simp] theorem State.setSlot_watches (s : State) (k : SlotId) (st : SlotState) :
    (s.setSlot k st).watches = s.watches := rfl
@[simp] theorem State.setSlot_profiles (s : State) (k : SlotId) (st : SlotState) :
    (s.setSlot k st).profiles = s.profiles := rfl
@[simp] theorem State.setSlot_banks (s : State) (k : SlotId) (st : SlotState) : (s.setSlot k st).banks = s.banks := rfl
@[simp] theorem State.setSlot_timing (s : State) (k : SlotId) (st : SlotState) :
    (s.setSlot k st).timing = s.timing := rfl
@[simp] theorem State.setSlot_bankCounters (s : State) (k : SlotId) (st : SlotState) :
    (s.setSlot k st).bankCounters = s.bankCounters := rfl
@[simp] theorem State.setSlot_folds (s : State) (k : SlotId) (st : SlotState) : (s.setSlot k st).folds = s.folds := rfl
@[simp] theorem State.setSlot_regs (s : State) (k : SlotId) (st : SlotState) : (s.setSlot k st).regs = s.regs := rfl
@[simp] theorem State.setSlot_writer (s : State) (k : SlotId) (st : SlotState) :
    (s.setSlot k st).writer = s.writer := rfl
@[simp] theorem State.setSlot_requests (s : State) (k : SlotId) (st : SlotState) :
    (s.setSlot k st).requests = { s.requests with slots := s.requests.slots.set k st } := rfl
@[simp] theorem State.setSlot_exceptions (s : State) (k : SlotId) (st : SlotState) :
    (s.setSlot k st).exceptions = s.exceptions := rfl
@[simp] theorem State.setSlot_notices (s : State) (k : SlotId) (st : SlotState) :
    (s.setSlot k st).notices = s.notices := rfl
@[simp] theorem State.setSlot_capture (s : State) (k : SlotId) (st : SlotState) :
    (s.setSlot k st).capture = s.capture := rfl
@[simp] theorem State.setSlot_control (s : State) (k : SlotId) (st : SlotState) :
    (s.setSlot k st).control = s.control := rfl
@[simp] theorem State.setSlot_watchCounters (s : State) (k : SlotId) (st : SlotState) :
    (s.setSlot k st).watchCounters = s.watchCounters := rfl
@[simp] theorem State.setSlot_mem (s : State) (k : SlotId) (st : SlotState) : (s.setSlot k st).mem = s.mem := rfl
@[simp] theorem State.setSlot_ld (s : State) (k : SlotId) (st : SlotState) : (s.setSlot k st).ld = s.ld := rfl
@[simp] theorem State.setSlot_pending (s : State) (k : SlotId) (st : SlotState) :
    (s.setSlot k st).pending = s.pending := rfl

/-! ### countCorrected -/

@[simp] theorem State.countCorrected_links (s : State) : s.countCorrected.links = s.links := rfl
@[simp] theorem State.countCorrected_sorter (s : State) : s.countCorrected.sorter = s.sorter := rfl
@[simp] theorem State.countCorrected_accounting (s : State) : s.countCorrected.accounting = s.accounting := rfl
@[simp] theorem State.countCorrected_watches (s : State) : s.countCorrected.watches = s.watches := rfl
@[simp] theorem State.countCorrected_profiles (s : State) : s.countCorrected.profiles = s.profiles := rfl
@[simp] theorem State.countCorrected_banks (s : State) : s.countCorrected.banks = s.banks := rfl
@[simp] theorem State.countCorrected_timing (s : State) : s.countCorrected.timing = s.timing := rfl
@[simp] theorem State.countCorrected_bankCounters (s : State) : s.countCorrected.bankCounters = s.bankCounters := rfl
@[simp] theorem State.countCorrected_folds (s : State) : s.countCorrected.folds = s.folds := rfl
@[simp] theorem State.countCorrected_regs (s : State) : s.countCorrected.regs = s.regs := rfl
@[simp] theorem State.countCorrected_writer (s : State) : s.countCorrected.writer = s.writer := rfl
@[simp] theorem State.countCorrected_requests (s : State) : s.countCorrected.requests = s.requests := rfl
@[simp] theorem State.countCorrected_exceptions (s : State) : s.countCorrected.exceptions = s.exceptions := rfl
@[simp] theorem State.countCorrected_notices (s : State) : s.countCorrected.notices = s.notices := rfl
@[simp] theorem State.countCorrected_capture (s : State) : s.countCorrected.capture = s.capture := rfl
@[simp] theorem State.countCorrected_control (s : State) : s.countCorrected.control = s.control := rfl
@[simp] theorem State.countCorrected_watchCounters (s : State) :
    s.countCorrected.watchCounters = { s.watchCounters with corrected := s.watchCounters.corrected + 1 } := rfl
@[simp] theorem State.countCorrected_mem (s : State) : s.countCorrected.mem = s.mem := rfl
@[simp] theorem State.countCorrected_ld (s : State) : s.countCorrected.ld = s.ld := rfl
@[simp] theorem State.countCorrected_pending (s : State) : s.countCorrected.pending = s.pending := rfl

/-! ### writeField -/

@[simp] theorem State.writeField_links (s : State) (k : SlotId) (off : Nat) (v : Word) :
    (s.writeField k off v).links = s.links := rfl
@[simp] theorem State.writeField_sorter (s : State) (k : SlotId) (off : Nat) (v : Word) :
    (s.writeField k off v).sorter = s.sorter := rfl
@[simp] theorem State.writeField_accounting (s : State) (k : SlotId) (off : Nat) (v : Word) :
    (s.writeField k off v).accounting = s.accounting := rfl
@[simp] theorem State.writeField_watches (s : State) (k : SlotId) (off : Nat) (v : Word) :
    (s.writeField k off v).watches = s.watches := rfl
@[simp] theorem State.writeField_profiles (s : State) (k : SlotId) (off : Nat) (v : Word) :
    (s.writeField k off v).profiles = s.profiles := rfl
@[simp] theorem State.writeField_banks (s : State) (k : SlotId) (off : Nat) (v : Word) :
    (s.writeField k off v).banks = s.banks := rfl
@[simp] theorem State.writeField_timing (s : State) (k : SlotId) (off : Nat) (v : Word) :
    (s.writeField k off v).timing = s.timing := rfl
@[simp] theorem State.writeField_bankCounters (s : State) (k : SlotId) (off : Nat) (v : Word) :
    (s.writeField k off v).bankCounters = s.bankCounters := rfl
@[simp] theorem State.writeField_folds (s : State) (k : SlotId) (off : Nat) (v : Word) :
    (s.writeField k off v).folds = s.folds := rfl
@[simp] theorem State.writeField_regs (s : State) (k : SlotId) (off : Nat) (v : Word) :
    (s.writeField k off v).regs = s.regs := rfl
@[simp] theorem State.writeField_writer (s : State) (k : SlotId) (off : Nat) (v : Word) :
    (s.writeField k off v).writer = s.writer := rfl
@[simp] theorem State.writeField_requests (s : State) (k : SlotId) (off : Nat) (v : Word) :
    (s.writeField k off v).requests = s.requests := rfl
@[simp] theorem State.writeField_exceptions (s : State) (k : SlotId) (off : Nat) (v : Word) :
    (s.writeField k off v).exceptions = s.exceptions := rfl
@[simp] theorem State.writeField_notices (s : State) (k : SlotId) (off : Nat) (v : Word) :
    (s.writeField k off v).notices = s.notices := rfl
@[simp] theorem State.writeField_capture (s : State) (k : SlotId) (off : Nat) (v : Word) :
    (s.writeField k off v).capture = s.capture := rfl
@[simp] theorem State.writeField_control (s : State) (k : SlotId) (off : Nat) (v : Word) :
    (s.writeField k off v).control = s.control := rfl
@[simp] theorem State.writeField_watchCounters (s : State) (k : SlotId) (off : Nat) (v : Word) :
    (s.writeField k off v).watchCounters = s.watchCounters := rfl
@[simp] theorem State.writeField_mem (s : State) (k : SlotId) (off : Nat) (v : Word) :
    (s.writeField k off v).mem = s.mem.writeBytes (slotByte k + off) (wordBytes v) := rfl
@[simp] theorem State.writeField_ld (s : State) (k : SlotId) (off : Nat) (v : Word) :
    (s.writeField k off v).ld = s.ld := rfl
@[simp] theorem State.writeField_pending (s : State) (k : SlotId) (off : Nat) (v : Word) :
    (s.writeField k off v).pending = s.pending := rfl

/-! ### writeData -/

@[simp] theorem State.writeData_links (s : State) (k : SlotId) (d : List Byte) :
    (s.writeData k d).links = s.links := rfl
@[simp] theorem State.writeData_sorter (s : State) (k : SlotId) (d : List Byte) :
    (s.writeData k d).sorter = s.sorter := rfl
@[simp] theorem State.writeData_accounting (s : State) (k : SlotId) (d : List Byte) :
    (s.writeData k d).accounting = s.accounting := rfl
@[simp] theorem State.writeData_watches (s : State) (k : SlotId) (d : List Byte) :
    (s.writeData k d).watches = s.watches := rfl
@[simp] theorem State.writeData_profiles (s : State) (k : SlotId) (d : List Byte) :
    (s.writeData k d).profiles = s.profiles := rfl
@[simp] theorem State.writeData_banks (s : State) (k : SlotId) (d : List Byte) :
    (s.writeData k d).banks = s.banks := rfl
@[simp] theorem State.writeData_timing (s : State) (k : SlotId) (d : List Byte) :
    (s.writeData k d).timing = s.timing := rfl
@[simp] theorem State.writeData_bankCounters (s : State) (k : SlotId) (d : List Byte) :
    (s.writeData k d).bankCounters = s.bankCounters := rfl
@[simp] theorem State.writeData_folds (s : State) (k : SlotId) (d : List Byte) :
    (s.writeData k d).folds = s.folds := rfl
@[simp] theorem State.writeData_regs (s : State) (k : SlotId) (d : List Byte) : (s.writeData k d).regs = s.regs := rfl
@[simp] theorem State.writeData_writer (s : State) (k : SlotId) (d : List Byte) :
    (s.writeData k d).writer = s.writer := rfl
@[simp] theorem State.writeData_requests (s : State) (k : SlotId) (d : List Byte) :
    (s.writeData k d).requests = s.requests := rfl
@[simp] theorem State.writeData_exceptions (s : State) (k : SlotId) (d : List Byte) :
    (s.writeData k d).exceptions = s.exceptions := rfl
@[simp] theorem State.writeData_notices (s : State) (k : SlotId) (d : List Byte) :
    (s.writeData k d).notices = s.notices := rfl
@[simp] theorem State.writeData_capture (s : State) (k : SlotId) (d : List Byte) :
    (s.writeData k d).capture = s.capture := rfl
@[simp] theorem State.writeData_control (s : State) (k : SlotId) (d : List Byte) :
    (s.writeData k d).control = s.control := rfl
@[simp] theorem State.writeData_watchCounters (s : State) (k : SlotId) (d : List Byte) :
    (s.writeData k d).watchCounters = s.watchCounters := rfl
@[simp] theorem State.writeData_mem (s : State) (k : SlotId) (d : List Byte) :
    (s.writeData k d).mem = s.mem.writeBytes (slotByte k + 0xC0) d := rfl
@[simp] theorem State.writeData_ld (s : State) (k : SlotId) (d : List Byte) : (s.writeData k d).ld = s.ld := rfl
@[simp] theorem State.writeData_pending (s : State) (k : SlotId) (d : List Byte) :
    (s.writeData k d).pending = s.pending := rfl

/-! ### writeReply -/

@[simp] theorem State.writeReply_links (s : State) (k : SlotId) (n : Word) (r : Reply) :
    (s.writeReply k n r).links = s.links := rfl
@[simp] theorem State.writeReply_sorter (s : State) (k : SlotId) (n : Word) (r : Reply) :
    (s.writeReply k n r).sorter = s.sorter := rfl
@[simp] theorem State.writeReply_accounting (s : State) (k : SlotId) (n : Word) (r : Reply) :
    (s.writeReply k n r).accounting = s.accounting := rfl
@[simp] theorem State.writeReply_watches (s : State) (k : SlotId) (n : Word) (r : Reply) :
    (s.writeReply k n r).watches = s.watches := rfl
@[simp] theorem State.writeReply_profiles (s : State) (k : SlotId) (n : Word) (r : Reply) :
    (s.writeReply k n r).profiles = s.profiles := rfl
@[simp] theorem State.writeReply_banks (s : State) (k : SlotId) (n : Word) (r : Reply) :
    (s.writeReply k n r).banks = s.banks := rfl
@[simp] theorem State.writeReply_timing (s : State) (k : SlotId) (n : Word) (r : Reply) :
    (s.writeReply k n r).timing = s.timing := rfl
@[simp] theorem State.writeReply_bankCounters (s : State) (k : SlotId) (n : Word) (r : Reply) :
    (s.writeReply k n r).bankCounters = s.bankCounters := rfl
@[simp] theorem State.writeReply_folds (s : State) (k : SlotId) (n : Word) (r : Reply) :
    (s.writeReply k n r).folds = s.folds := rfl
@[simp] theorem State.writeReply_regs (s : State) (k : SlotId) (n : Word) (r : Reply) :
    (s.writeReply k n r).regs = s.regs := rfl
@[simp] theorem State.writeReply_writer (s : State) (k : SlotId) (n : Word) (r : Reply) :
    (s.writeReply k n r).writer = s.writer := rfl
@[simp] theorem State.writeReply_requests (s : State) (k : SlotId) (n : Word) (r : Reply) :
    (s.writeReply k n r).requests = s.requests := rfl
@[simp] theorem State.writeReply_exceptions (s : State) (k : SlotId) (n : Word) (r : Reply) :
    (s.writeReply k n r).exceptions = s.exceptions := rfl
@[simp] theorem State.writeReply_notices (s : State) (k : SlotId) (n : Word) (r : Reply) :
    (s.writeReply k n r).notices = s.notices := rfl
@[simp] theorem State.writeReply_capture (s : State) (k : SlotId) (n : Word) (r : Reply) :
    (s.writeReply k n r).capture = s.capture := rfl
@[simp] theorem State.writeReply_control (s : State) (k : SlotId) (n : Word) (r : Reply) :
    (s.writeReply k n r).control = s.control := rfl
@[simp] theorem State.writeReply_watchCounters (s : State) (k : SlotId) (n : Word) (r : Reply) :
    (s.writeReply k n r).watchCounters = s.watchCounters := rfl
@[simp] theorem State.writeReply_mem (s : State) (k : SlotId) (n : Word) (r : Reply) :
    (s.writeReply k n r).mem = s.mem.writeBytes (slotByte k + 0x80) (r.bytes n) := by
  simp only [State.writeReply, State.wordsWritten_mem]
@[simp] theorem State.writeReply_ld (s : State) (k : SlotId) (n : Word) (r : Reply) :
    (s.writeReply k n r).ld = s.ld := rfl
@[simp] theorem State.writeReply_pending (s : State) (k : SlotId) (n : Word) (r : Reply) :
    (s.writeReply k n r).pending = s.pending := rfl

/-! ### refreshQuota -/

@[simp] theorem State.refreshQuota_links (s : State) : s.refreshQuota.links = s.links := rfl
@[simp] theorem State.refreshQuota_sorter (s : State) : s.refreshQuota.sorter = s.sorter := rfl
@[simp] theorem State.refreshQuota_accounting (s : State) : s.refreshQuota.accounting = s.accounting := rfl
@[simp] theorem State.refreshQuota_watches (s : State) : s.refreshQuota.watches = s.watches := rfl
@[simp] theorem State.refreshQuota_profiles (s : State) : s.refreshQuota.profiles = s.profiles := rfl
@[simp] theorem State.refreshQuota_banks (s : State) : s.refreshQuota.banks = s.banks := rfl
@[simp] theorem State.refreshQuota_timing (s : State) : s.refreshQuota.timing = s.timing := rfl
@[simp] theorem State.refreshQuota_bankCounters (s : State) : s.refreshQuota.bankCounters = s.bankCounters := rfl
@[simp] theorem State.refreshQuota_folds (s : State) : s.refreshQuota.folds = s.folds := rfl
@[simp] theorem State.refreshQuota_regs (s : State) : s.refreshQuota.regs = s.regs := rfl
@[simp] theorem State.refreshQuota_writer (s : State) : s.refreshQuota.writer = s.writer := rfl
@[simp] theorem State.refreshQuota_requests (s : State) :
    s.refreshQuota.requests = { s.requests with quotaCount := 0, quotaTimer := some Config.quotaMs } := rfl
@[simp] theorem State.refreshQuota_exceptions (s : State) : s.refreshQuota.exceptions = s.exceptions := rfl
@[simp] theorem State.refreshQuota_notices (s : State) : s.refreshQuota.notices = s.notices := rfl
@[simp] theorem State.refreshQuota_capture (s : State) : s.refreshQuota.capture = s.capture := rfl
@[simp] theorem State.refreshQuota_control (s : State) : s.refreshQuota.control = s.control := rfl
@[simp] theorem State.refreshQuota_watchCounters (s : State) : s.refreshQuota.watchCounters = s.watchCounters := rfl
@[simp] theorem State.refreshQuota_mem (s : State) : s.refreshQuota.mem = s.mem := rfl
@[simp] theorem State.refreshQuota_ecc (s : State) : s.refreshQuota.ecc = s.ecc := rfl
@[simp] theorem State.refreshQuota_ld (s : State) : s.refreshQuota.ld = s.ld := rfl
@[simp] theorem State.refreshQuota_pending (s : State) : s.refreshQuota.pending = s.pending := rfl

/-! ### clearCausesButCapture -/

@[simp] theorem State.clearCausesButCapture_links (s : State) : s.clearCausesButCapture.links = s.links := rfl
@[simp] theorem State.clearCausesButCapture_sorter (s : State) : s.clearCausesButCapture.sorter = s.sorter := rfl
@[simp] theorem State.clearCausesButCapture_accounting (s : State) :
    s.clearCausesButCapture.accounting = s.accounting := rfl
@[simp] theorem State.clearCausesButCapture_watches (s : State) : s.clearCausesButCapture.watches = s.watches := rfl
@[simp] theorem State.clearCausesButCapture_profiles (s : State) : s.clearCausesButCapture.profiles = s.profiles := rfl
@[simp] theorem State.clearCausesButCapture_banks (s : State) : s.clearCausesButCapture.banks = s.banks := rfl
@[simp] theorem State.clearCausesButCapture_timing (s : State) : s.clearCausesButCapture.timing = s.timing := rfl
@[simp] theorem State.clearCausesButCapture_bankCounters (s : State) :
    s.clearCausesButCapture.bankCounters = s.bankCounters := rfl
@[simp] theorem State.clearCausesButCapture_folds (s : State) : s.clearCausesButCapture.folds = s.folds := rfl
@[simp] theorem State.clearCausesButCapture_regs (s : State) : s.clearCausesButCapture.regs = s.regs := rfl
@[simp] theorem State.clearCausesButCapture_writer (s : State) : s.clearCausesButCapture.writer = s.writer := rfl
@[simp] theorem State.clearCausesButCapture_requests (s : State) : s.clearCausesButCapture.requests = s.requests := rfl
@[simp] theorem State.clearCausesButCapture_exceptions (s : State) :
    s.clearCausesButCapture.exceptions = s.exceptions := rfl
@[simp] theorem State.clearCausesButCapture_notices (s : State) :
    s.clearCausesButCapture.notices = { s.notices with latched := s.notices.latched &&& Cause.capture.flag } := rfl
@[simp] theorem State.clearCausesButCapture_capture (s : State) : s.clearCausesButCapture.capture = s.capture := rfl
@[simp] theorem State.clearCausesButCapture_control (s : State) : s.clearCausesButCapture.control = s.control := rfl
@[simp] theorem State.clearCausesButCapture_watchCounters (s : State) :
    s.clearCausesButCapture.watchCounters = s.watchCounters := rfl
@[simp] theorem State.clearCausesButCapture_mem (s : State) : s.clearCausesButCapture.mem = s.mem := rfl
@[simp] theorem State.clearCausesButCapture_ecc (s : State) : s.clearCausesButCapture.ecc = s.ecc := rfl
@[simp] theorem State.clearCausesButCapture_ld (s : State) : s.clearCausesButCapture.ld = s.ld := rfl
@[simp] theorem State.clearCausesButCapture_pending (s : State) : s.clearCausesButCapture.pending = s.pending := rfl

/-! ### writePage -/

@[simp] theorem State.writePage_links (s : State) (p : PageId) (off : Nat) (d : List Byte) :
    (s.writePage p off d).links = s.links := rfl
@[simp] theorem State.writePage_sorter (s : State) (p : PageId) (off : Nat) (d : List Byte) :
    (s.writePage p off d).sorter = s.sorter := rfl
@[simp] theorem State.writePage_accounting (s : State) (p : PageId) (off : Nat) (d : List Byte) :
    (s.writePage p off d).accounting = s.accounting := rfl
@[simp] theorem State.writePage_watches (s : State) (p : PageId) (off : Nat) (d : List Byte) :
    (s.writePage p off d).watches = s.watches := rfl
@[simp] theorem State.writePage_profiles (s : State) (p : PageId) (off : Nat) (d : List Byte) :
    (s.writePage p off d).profiles = s.profiles := rfl
@[simp] theorem State.writePage_banks (s : State) (p : PageId) (off : Nat) (d : List Byte) :
    (s.writePage p off d).banks = s.banks := rfl
@[simp] theorem State.writePage_timing (s : State) (p : PageId) (off : Nat) (d : List Byte) :
    (s.writePage p off d).timing = s.timing := rfl
@[simp] theorem State.writePage_bankCounters (s : State) (p : PageId) (off : Nat) (d : List Byte) :
    (s.writePage p off d).bankCounters = s.bankCounters := rfl
@[simp] theorem State.writePage_folds (s : State) (p : PageId) (off : Nat) (d : List Byte) :
    (s.writePage p off d).folds = s.folds := rfl
@[simp] theorem State.writePage_regs (s : State) (p : PageId) (off : Nat) (d : List Byte) :
    (s.writePage p off d).regs = s.regs := rfl
@[simp] theorem State.writePage_writer (s : State) (p : PageId) (off : Nat) (d : List Byte) :
    (s.writePage p off d).writer = s.writer := rfl
@[simp] theorem State.writePage_requests (s : State) (p : PageId) (off : Nat) (d : List Byte) :
    (s.writePage p off d).requests = s.requests := rfl
@[simp] theorem State.writePage_exceptions (s : State) (p : PageId) (off : Nat) (d : List Byte) :
    (s.writePage p off d).exceptions = s.exceptions := rfl
@[simp] theorem State.writePage_notices (s : State) (p : PageId) (off : Nat) (d : List Byte) :
    (s.writePage p off d).notices = s.notices := rfl
@[simp] theorem State.writePage_capture (s : State) (p : PageId) (off : Nat) (d : List Byte) :
    (s.writePage p off d).capture = s.capture := rfl
@[simp] theorem State.writePage_control (s : State) (p : PageId) (off : Nat) (d : List Byte) :
    (s.writePage p off d).control = s.control := rfl
@[simp] theorem State.writePage_watchCounters (s : State) (p : PageId) (off : Nat) (d : List Byte) :
    (s.writePage p off d).watchCounters = s.watchCounters := rfl
@[simp] theorem State.writePage_mem (s : State) (p : PageId) (off : Nat) (d : List Byte) :
    (s.writePage p off d).mem = s.mem.writeBytes (pageByte p + off) d := rfl
@[simp] theorem State.writePage_ld (s : State) (p : PageId) (off : Nat) (d : List Byte) :
    (s.writePage p off d).ld = s.ld := rfl
@[simp] theorem State.writePage_pending (s : State) (p : PageId) (off : Nat) (d : List Byte) :
    (s.writePage p off d).pending = s.pending := rfl

/-! ### zeroPage -/

@[simp] theorem State.zeroPage_links (s : State) (p : PageId) : (s.zeroPage p).links = s.links := rfl
@[simp] theorem State.zeroPage_sorter (s : State) (p : PageId) : (s.zeroPage p).sorter = s.sorter := rfl
@[simp] theorem State.zeroPage_accounting (s : State) (p : PageId) : (s.zeroPage p).accounting = s.accounting := rfl
@[simp] theorem State.zeroPage_watches (s : State) (p : PageId) : (s.zeroPage p).watches = s.watches := rfl
@[simp] theorem State.zeroPage_profiles (s : State) (p : PageId) : (s.zeroPage p).profiles = s.profiles := rfl
@[simp] theorem State.zeroPage_banks (s : State) (p : PageId) : (s.zeroPage p).banks = s.banks := rfl
@[simp] theorem State.zeroPage_timing (s : State) (p : PageId) : (s.zeroPage p).timing = s.timing := rfl
@[simp] theorem State.zeroPage_bankCounters (s : State) (p : PageId) :
    (s.zeroPage p).bankCounters = s.bankCounters := rfl
@[simp] theorem State.zeroPage_folds (s : State) (p : PageId) : (s.zeroPage p).folds = s.folds := rfl
@[simp] theorem State.zeroPage_regs (s : State) (p : PageId) : (s.zeroPage p).regs = s.regs := rfl
@[simp] theorem State.zeroPage_writer (s : State) (p : PageId) : (s.zeroPage p).writer = s.writer := rfl
@[simp] theorem State.zeroPage_requests (s : State) (p : PageId) : (s.zeroPage p).requests = s.requests := rfl
@[simp] theorem State.zeroPage_exceptions (s : State) (p : PageId) : (s.zeroPage p).exceptions = s.exceptions := rfl
@[simp] theorem State.zeroPage_notices (s : State) (p : PageId) : (s.zeroPage p).notices = s.notices := rfl
@[simp] theorem State.zeroPage_capture (s : State) (p : PageId) : (s.zeroPage p).capture = s.capture := rfl
@[simp] theorem State.zeroPage_control (s : State) (p : PageId) : (s.zeroPage p).control = s.control := rfl
@[simp] theorem State.zeroPage_watchCounters (s : State) (p : PageId) :
    (s.zeroPage p).watchCounters = s.watchCounters := rfl
@[simp] theorem State.zeroPage_mem (s : State) (p : PageId) :
    (s.zeroPage p).mem = s.mem.zero (pageByte p + 64) (pageByte p + 4096) := rfl
@[simp] theorem State.zeroPage_ld (s : State) (p : PageId) : (s.zeroPage p).ld = s.ld := rfl
@[simp] theorem State.zeroPage_pending (s : State) (p : PageId) : (s.zeroPage p).pending = s.pending := rfl

end Sys2Proof.Machine
end

