-- ==== Sys2Proof/Laws/Ops.lean ====
section
/-! SUPPORT. What the shared operations can do, said once: which fields each may touch, and its result. -/

namespace Sys2Proof.Machine

/-! ### Small lemmas -/

@[simp] theorem getElem_tabulate {α : Type} (n : Nat) (f : Fin n → α) (i : Nat) (h : i < n) :
    (tabulate n f)[i] = f ⟨i, h⟩ := by simp [tabulate]

@[simp] theorem getElem_fin_tabulate {α : Type} (n : Nat) (f : Fin n → α) (i : Fin n) : (tabulate n f)[i] = f i := by
  simp [tabulate]

@[simp] theorem leBytes_length (n v : Nat) : (leBytes n v).length = n := by
  induction n generalizing v with
  | zero => rfl
  | succ n ih => simp [leBytes, ih]

@[simp] theorem wordBytes_length (w : Word) : (wordBytes w).length = 4 := leBytes_length 4 _

@[simp] theorem packDecimal_length (n v : Nat) : (packDecimal n v).length = n := by
  induction n generalizing v with
  | zero => rfl
  | succ n ih => simp [packDecimal, ih]

/-- Bytes written little-endian read back as the value modulo their range. -/
theorem leValue_leBytes (n v : Nat) : leValue (leBytes n v) = v % 256 ^ n := by
  induction n generalizing v with
  | zero => simp [leBytes, leValue, Nat.mod_one]
  | succ n ih =>
    have hb : (BitVec.ofNat 8 (v % 256)).toNat = v % 256 := by simp
    simp only [leBytes, leValue, ih, hb]
    rw [Nat.pow_succ, Nat.mul_comm (256 ^ n), Nat.mod_mul]

/-- A reply fills the 384 bytes of the reply area while its data fits in the data area. -/
theorem Reply.bytes_length (n : Word) (r : Reply) (h : r.data.length ≤ 320) : (r.bytes n).length = 384 := by
  simp [Reply.bytes]; omega

@[simp] theorem bit_le_one (b : Bool) : bit b ≤ 1 := by cases b <;> decide

/-! ### Outcomes -/

/-- An event answers a next state always. -/
@[simp] theorem State.event_eq (s : State) (f : State → State) :
    s.event f = .next (if s.control.ready = true then f s else s) := by
  unfold State.event; rfl

/-- Once READY is 1 an event is its effect. -/
theorem State.event_of_ready {s : State} (h : s.control.ready = true) (f : State → State) : s.event f = .next (f s) := by
  simp [h]

/-- Before READY an event does nothing. -/
theorem State.event_of_not_ready {s : State} (h : s.control.ready = false) (f : State → State) : s.event f = .next s := by
  simp [h]

theorem step_of_pending {s : State} {c : Instr} {rest : List Instr} (h : s.pending = c :: rest) :
    step s = exec c { s with pending := rest } := by
  unfold step; rw [h]

theorem step_of_idle {s : State} (h : s.pending = []) : step s = .next s := by
  unfold step; rw [h]

/-! ### ECC checks: the fields they may touch -/

/-- From `s` to `t` nothing changed but what an ECC check of exchange memory may change: the capture record, the latched
causes, the corrected-errors counter and the error marks. -/
def State.Checked (s t : State) : Prop :=
  t = { s with
    capture := t.capture
    notices := { s.notices with latched := t.notices.latched }
    watchCounters := { s.watchCounters with corrected := t.watchCounters.corrected }
    ecc := { s.ecc with exchange := t.ecc.exchange } }

theorem State.Checked.refl (s : State) : s.Checked s := rfl

theorem State.Checked.trans {s t u : State} (h : s.Checked t) (h' : t.Checked u) : s.Checked u := by
  unfold State.Checked at *
  rw [h']
  congr 1 <;> rw [h]

theorem State.Checked.links {s t : State} (h : s.Checked t) : t.links = s.links := by rw [h]
theorem State.Checked.sorter {s t : State} (h : s.Checked t) : t.sorter = s.sorter := by rw [h]
theorem State.Checked.accounting {s t : State} (h : s.Checked t) : t.accounting = s.accounting := by rw [h]
theorem State.Checked.watches {s t : State} (h : s.Checked t) : t.watches = s.watches := by rw [h]
theorem State.Checked.profiles {s t : State} (h : s.Checked t) : t.profiles = s.profiles := by rw [h]
theorem State.Checked.banks {s t : State} (h : s.Checked t) : t.banks = s.banks := by rw [h]
theorem State.Checked.timing {s t : State} (h : s.Checked t) : t.timing = s.timing := by rw [h]
theorem State.Checked.bankCounters {s t : State} (h : s.Checked t) : t.bankCounters = s.bankCounters := by rw [h]
theorem State.Checked.folds {s t : State} (h : s.Checked t) : t.folds = s.folds := by rw [h]
theorem State.Checked.regs {s t : State} (h : s.Checked t) : t.regs = s.regs := by rw [h]
theorem State.Checked.writer {s t : State} (h : s.Checked t) : t.writer = s.writer := by rw [h]
theorem State.Checked.requests {s t : State} (h : s.Checked t) : t.requests = s.requests := by rw [h]
theorem State.Checked.exceptions {s t : State} (h : s.Checked t) : t.exceptions = s.exceptions := by rw [h]
theorem State.Checked.control {s t : State} (h : s.Checked t) : t.control = s.control := by rw [h]
theorem State.Checked.mem {s t : State} (h : s.Checked t) : t.mem = s.mem := by rw [h]
theorem State.Checked.ld {s t : State} (h : s.Checked t) : t.ld = s.ld := by rw [h]
theorem State.Checked.pending {s t : State} (h : s.Checked t) : t.pending = s.pending := by rw [h]
theorem State.Checked.mask {s t : State} (h : s.Checked t) : t.notices.mask = s.notices.mask := by rw [h]
theorem State.Checked.owner {s t : State} (h : s.Checked t) : t.notices.owner = s.notices.owner := by rw [h]

theorem State.report_checked (s : State) (st : Store) (w : Word) : s.Checked (s.report st w) := by
  unfold State.report
  split <;> rfl

theorem State.countCorrected_checked (s : State) : s.Checked s.countCorrected := rfl

theorem State.checkWord_checked (s : State) (w : Nat) : s.Checked (s.checkWord w) := by
  unfold State.checkWord
  split
  · rfl
  · rfl
  · exact s.report_checked _ _

theorem State.checkWords_checked (s : State) (ws : List Nat) : s.Checked (s.checkWords ws) := by
  unfold State.checkWords
  induction ws generalizing s with
  | nil => rfl
  | cons w ws ih => exact (s.checkWord_checked w).trans (ih _)

theorem State.copyBlock_checked (s : State) (w : Nat) : s.Checked (s.copyBlock w).2 := by
  have : ∀ (js : List Nat) (acc : List Word × State), s.Checked acc.2 →
      s.Checked ((js.foldl (fun (acc : List Word × State) j =>
        (acc.1 ++ [acc.2.wordAsRead (w + j)], acc.2.checkWord (w + j))) acc).2) := by
    intro js
    induction js with
    | nil => exact fun _ h => h
    | cons j js ih => exact fun acc h => ih _ (h.trans (acc.2.checkWord_checked _))
  exact this _ _ (State.Checked.refl s)

/-- A memory without errors: a check does nothing. -/
theorem State.checkWord_of_clean {s : State} {w : Nat} (h : s.ecc.exchange.lookup w = none) : s.checkWord w = s := by
  unfold State.checkWord; rw [h]

/-! ### A push -/

/-- From `s` to `t` nothing changed but what a push may change: the exception unit, the latched causes, the error marks. -/
def State.Pushed (s t : State) : Prop :=
  t = { s with
    exceptions := t.exceptions
    notices := { s.notices with latched := t.notices.latched }
    ecc := { s.ecc with exchange := t.ecc.exchange } }

theorem State.push_pushed (s : State) (k : ExceptionKind) (a b c d : Word) (v : Vector Word 8) :
    s.Pushed (s.push k a b c d v) := by
  unfold State.push
  dsimp only
  split <;> rfl

theorem State.Pushed.links {s t : State} (h : s.Pushed t) : t.links = s.links := by rw [h]
theorem State.Pushed.sorter {s t : State} (h : s.Pushed t) : t.sorter = s.sorter := by rw [h]
theorem State.Pushed.accounting {s t : State} (h : s.Pushed t) : t.accounting = s.accounting := by rw [h]
theorem State.Pushed.watches {s t : State} (h : s.Pushed t) : t.watches = s.watches := by rw [h]
theorem State.Pushed.profiles {s t : State} (h : s.Pushed t) : t.profiles = s.profiles := by rw [h]
theorem State.Pushed.banks {s t : State} (h : s.Pushed t) : t.banks = s.banks := by rw [h]
theorem State.Pushed.timing {s t : State} (h : s.Pushed t) : t.timing = s.timing := by rw [h]
theorem State.Pushed.bankCounters {s t : State} (h : s.Pushed t) : t.bankCounters = s.bankCounters := by rw [h]
theorem State.Pushed.folds {s t : State} (h : s.Pushed t) : t.folds = s.folds := by rw [h]
theorem State.Pushed.regs {s t : State} (h : s.Pushed t) : t.regs = s.regs := by rw [h]
theorem State.Pushed.writer {s t : State} (h : s.Pushed t) : t.writer = s.writer := by rw [h]
theorem State.Pushed.requests {s t : State} (h : s.Pushed t) : t.requests = s.requests := by rw [h]
theorem State.Pushed.capture {s t : State} (h : s.Pushed t) : t.capture = s.capture := by rw [h]
theorem State.Pushed.control {s t : State} (h : s.Pushed t) : t.control = s.control := by rw [h]
theorem State.Pushed.watchCounters {s t : State} (h : s.Pushed t) : t.watchCounters = s.watchCounters := by rw [h]
theorem State.Pushed.mem {s t : State} (h : s.Pushed t) : t.mem = s.mem := by rw [h]
theorem State.Pushed.ld {s t : State} (h : s.Pushed t) : t.ld = s.ld := by rw [h]
theorem State.Pushed.pending {s t : State} (h : s.Pushed t) : t.pending = s.pending := by rw [h]

/-- A push into a stack with room: the record stands at the new top (R181, R185). -/
theorem State.push_exceptions_of_room (s : State) (k : ExceptionKind) (a b c d : Word) (v : Vector Word 8) (n : Fin 64)
    (h : s.exceptions.top = n.val + 1) :
    (s.push k a b c d v).exceptions = { s.exceptions with
      records := s.exceptions.records.set n
        { tag := .new, kind := k.code, lostAfter := 0, lastHanded := seqWord s.sorter.lastHanded, summary := s.bankSummary,
          subject := a, d0 := b, d1 := c, d2 := d, copy := v }
      top := n.val } := by
  unfold State.push
  dsimp only
  rw [dif_pos ⟨by omega, by omega⟩]
  simp [h]

/-- A push into a full stack counts the loss in the top record (R182). -/
theorem State.push_exceptions_of_full (s : State) (k : ExceptionKind) (a b c d : Word) (v : Vector Word 8)
    (h : s.exceptions.top = 0) : (s.push k a b c d v).exceptions.lost = s.exceptions.lost + 1 ∧
      (s.push k a b c d v).exceptions.top = 0 := by
  unfold State.push
  dsimp only
  rw [dif_neg (by omega)]
  simp [h]

/-- A push latches EXCEPTION (R187). -/
theorem State.push_latched (s : State) (k : ExceptionKind) (a b c d : Word) (v : Vector Word 8) :
    (s.push k a b c d v).notices.latched = s.notices.latched ||| Cause.exception.flag := by
  unfold State.push
  dsimp only
  split <;> rfl

/-! ### Replies -/

theorem State.writeReply_bytes {s : State} (hm : s.mem.wf) (k : SlotId) (n : Word) (r : Reply) (h : r.data.length ≤ 320) :
    (s.writeReply k n r).mem.bytes (slotByte k + 0x80) 384 = r.bytes n := by
  rw [State.writeReply_mem, ← Reply.bytes_length n r h]
  exact Memory.bytes_writeBytes_self hm _ _

theorem State.writeReply_outside (s : State) (k : SlotId) (n : Word) (r : Reply) (h : r.data.length ≤ 320) {a : Nat}
    (ha : a < slotByte k + 0x80 ∨ slotByte k + 0x200 ≤ a) :
    (s.writeReply k n r).mem.read a = s.mem.read a := by
  rw [State.writeReply_mem]
  refine Memory.read_writeBytes_of_outside _ _ ?_
  rw [Reply.bytes_length n r h]
  omega

/-- From `s` to `t` nothing changed but what the end of a slot may change: memory, the request unit, the latched causes, the
error marks. -/
def State.Replied (s t : State) : Prop :=
  t = { s with
    requests := t.requests
    mem := t.mem
    notices := { s.notices with latched := t.notices.latched }
    ecc := { s.ecc with exchange := t.ecc.exchange } }

theorem State.Replied.refl (s : State) : s.Replied s := rfl

theorem State.Replied.trans {s t u : State} (h : s.Replied t) (h' : t.Replied u) : s.Replied u := by
  unfold State.Replied at *
  rw [h']
  congr 1 <;> rw [h]

theorem State.memory_replied (s : State) (m : Memory) (lo hi : Nat) :
    s.Replied ({ s with mem := m }.wordsWritten lo hi) := rfl

theorem State.writeField_replied (s : State) (k : SlotId) (off : Nat) (v : Word) : s.Replied (s.writeField k off v) := by
  unfold State.writeField; exact s.memory_replied _ _ _

theorem State.writeData_replied (s : State) (k : SlotId) (d : List Byte) : s.Replied (s.writeData k d) := by
  unfold State.writeData; exact s.memory_replied _ _ _

theorem State.writeReply_replied (s : State) (k : SlotId) (n : Word) (r : Reply) : s.Replied (s.writeReply k n r) := by
  unfold State.writeReply; exact s.memory_replied _ _ _

theorem State.setSlot_replied (s : State) (k : SlotId) (st : SlotState) : s.Replied (s.setSlot k st) := rfl

theorem State.removePending_replied (s : State) (k : SlotId) : s.Replied (s.removePending k) := rfl

theorem State.endSlot_replied (s : State) (k : SlotId) (st : SlotState) : s.Replied (s.endSlot k st) := rfl

theorem State.endDeferred_replied (s : State) (k : SlotId) (st : SlotState) (o : ReplyOutcome) (r : Reason) (i : Word)
    (c : Nat) (d : List Byte) : s.Replied (s.endDeferred k st o r i c d) := by
  unfold State.endDeferred
  refine State.Replied.trans ?_ (State.endSlot_replied _ k st)
  refine State.Replied.trans ?_ (State.removePending_replied _ k)
  refine State.Replied.trans ?_ (State.writeData_replied _ k d)
  refine State.Replied.trans ?_ (State.writeField_replied _ k _ _)
  refine State.Replied.trans ?_ (State.writeField_replied _ k _ _)
  refine State.Replied.trans ?_ (State.writeField_replied _ k _ _)
  exact State.writeField_replied _ k _ _

theorem State.finish_replied (s : State) (k : SlotId) (st : SlotState) (r : Reply) : s.Replied (s.finish k st r) := by
  unfold State.finish
  exact (s.writeReply_replied k _ r).trans (State.endSlot_replied _ k st)

theorem State.defer_replied (s : State) (k : SlotId) (w : Work) (e : Nat) : s.Replied (s.defer k w e) := by
  unfold State.defer
  refine State.Replied.trans ?_ (State.setSlot_replied _ k _)
  refine State.Replied.trans (t := { s with requests := { s.requests with table := s.requests.table ++ [⟨k, w⟩] } }) rfl ?_
  exact State.writeReply_replied _ k _ _

/-- The end of a deferred request: its slot's tag, its pending entry gone (R154, R155). -/
theorem State.endDeferred_requests (s : State) (k : SlotId) (st : SlotState) (o : ReplyOutcome) (r : Reason) (i : Word)
    (c : Nat) (d : List Byte) :
    (s.endDeferred k st o r i c d).requests = { s.requests with
      slots := s.requests.slots.set k st
      table := s.requests.table.filter fun e => e.slot != k } := by
  simp [State.endDeferred, State.endSlot]

theorem State.finish_requests (s : State) (k : SlotId) (st : SlotState) (r : Reply) :
    (s.finish k st r).requests = { s.requests with slots := s.requests.slots.set k st } := by
  simp [State.finish, State.endSlot]

theorem State.defer_requests (s : State) (k : SlotId) (w : Work) (e : Nat) :
    (s.defer k w e).requests = { s.requests with
      slots := s.requests.slots.set k .taken, table := s.requests.table ++ [⟨k, w⟩] } := by
  simp [State.defer]

/-! ### Receivers -/

theorem State.changeReceiver_links (s : State) (l : LinkId) (st : RxState) :
    (s.changeReceiver l st).links = s.links.set l { s.links[l] with
      state := st, inProgress := [], consecutiveBad := 0
      silenceTimer := if st = .sync then some Config.silenceMs else none } := rfl

/-- From `s` to `t` nothing changed but what a link's event may change. -/
def State.LinkEvent (s t : State) : Prop :=
  t = { s with
    links := t.links
    sorter := { s.sorter with halted := t.sorter.halted }
    notices := { s.notices with latched := t.notices.latched }
    ecc := { s.ecc with exchange := t.ecc.exchange } }

theorem State.LinkEvent.refl (s : State) : s.LinkEvent s := rfl

theorem State.LinkEvent.trans {s t u : State} (h : s.LinkEvent t) (h' : t.LinkEvent u) : s.LinkEvent u := by
  unfold State.LinkEvent at *
  rw [h']
  congr 1 <;> rw [h]

theorem State.changeReceiver_linkEvent (s : State) (l : LinkId) (st : RxState) : s.LinkEvent (s.changeReceiver l st) := rfl

theorem State.goodFrame_linkEvent (s : State) (l : LinkId) (b : FrameBody) : s.LinkEvent (s.goodFrame l b) := by
  unfold State.goodFrame
  dsimp only
  split
  · rfl
  · split <;> rfl

theorem State.badFrame_linkEvent (s : State) (l : LinkId) (c : Bool) : s.LinkEvent (s.badFrame l c) := by
  unfold State.badFrame
  dsimp only
  split
  · rfl
  · rfl

theorem State.resolve_linkEvent (n : Nat) (s : State) (l : LinkId) (bytes : List Byte) :
    s.LinkEvent (State.resolve n s l bytes) := by
  induction n generalizing s bytes with
  | zero => rfl
  | succ n ih =>
    unfold State.resolve
    split
    · rfl
    · split
      · rfl
      · exact ((s.changeReceiver_linkEvent l _).trans (State.goodFrame_linkEvent _ l _)).trans (ih _ _)
      · exact ih _ _
    · split
      · rfl
      · exact ih _ _
      · exact (s.badFrame_linkEvent l _).trans (ih _ _)
      · exact (s.badFrame_linkEvent l _).trans (ih _ _)
      · exact (s.badFrame_linkEvent l _).trans (ih _ _)
      · exact (s.goodFrame_linkEvent l _).trans (ih _ _)

/-! ### Takes -/

/-- A take whose conditions hold carries the request out. -/
theorem State.take_of_head {s : State} {k : SlotId} {rest : List SlotId} {row : Row} (h : s.Head k rest row)
    (carry : State → SlotId → State) : State.take row carry s = carry (s.beginTake k rest) k := by
  obtain ⟨_, h1, h2, h3⟩ := h
  unfold State.take
  rw [h1]
  simp [h2, h3]

/-- The reads of a take change the fields of a check, and its count and queue. -/
theorem State.beginTake_checked (s : State) (k : SlotId) (rest : List SlotId) :
    ({ s with requests := { s.requests with
        intake := rest, quotaCount := s.requests.quotaCount + 1 } } : State).Checked (s.beginTake k rest) :=
  State.checkWords_checked _ _

end Sys2Proof.Machine
end

