-- ==== Sys2Proof/Laws/Blocks.lean ====
section
/-! SUPPORT. What the operations of the banks, the register store and the record writer may touch. -/

namespace Sys2Proof.Machine

/-! ### Closes -/

/-- From `s` to `t` nothing changed but what asking and starting closes may change. -/
def State.CloseEffect (s t : State) : Prop :=
  t = { s with
    profiles := t.profiles
    banks := t.banks
    folds := t.folds
    regs := t.regs
    requests := { s.requests with table := t.requests.table }
    ecc := t.ecc }

theorem State.CloseEffect.refl (s : State) : s.CloseEffect s := rfl

theorem State.CloseEffect.trans {s t u : State} (h : s.CloseEffect t) (h' : t.CloseEffect u) : s.CloseEffect u := by
  unfold State.CloseEffect at *
  rw [h']
  congr 1 <;> rw [h]

theorem State.putProfile_closeEffect (s : State) (p : PointId) (x : Profile) : s.CloseEffect (s.putProfile p x) := rfl

theorem State.putBank_closeEffect (s : State) (b : BankId) (x : Bank) : s.CloseEffect (s.putBank b x) := rfl

/-- A fold of effects is an effect. -/
theorem State.CloseEffect.foldl {α : Type} (f : State → α → State) (h : ∀ (s : State) (x : α), s.CloseEffect (f s x)) (xs : List α)
    (s : State) : s.CloseEffect (xs.foldl f s) := by
  induction xs generalizing s with
  | nil => rfl
  | cons x xs ih => exact (h s x).trans (ih _)

theorem State.applyStaged_closeEffect (s : State) (b : BankId) : s.CloseEffect (s.applyStaged b) :=
  State.CloseEffect.foldl _ (fun s e => s.putProfile_closeEffect (pointAt b e) _) _ s

theorem State.closeStart_closeEffect (s : State) (b : BankId) (a : Fin 2) (h : HeldClose) :
    s.CloseEffect (s.closeStart b a h) := by
  unfold State.closeStart
  dsimp only
  refine (s.applyStaged_closeEffect b).trans ?_
  generalize s.applyStaged b = t
  rfl

theorem State.heldTest_closeEffect (s : State) (b : BankId) : s.CloseEffect (s.heldTest b) := by
  unfold State.heldTest
  split
  · rfl
  · split
    · split
      · exact s.closeStart_closeEffect b _ _
      · rfl
    · rfl

theorem State.askClose_closeEffect (s : State) (b : BankId) (c : Causes) (w : List (SlotId × WaitCause)) :
    s.CloseEffect (s.askClose b c w) := by
  unfold State.askClose
  exact (s.putBank_closeEffect b _).trans (State.heldTest_closeEffect _ b)

theorem State.askBanks_closeEffect (s : State) (bs : List BankId) (c : Causes) (w : SlotId × WaitCause) :
    s.CloseEffect (s.askBanks bs c w) :=
  State.CloseEffect.foldl _ (fun s b => s.askClose_closeEffect b c [w]) bs s

theorem State.CloseEffect.links {s t : State} (h : s.CloseEffect t) : t.links = s.links := by rw [h]
theorem State.CloseEffect.sorter {s t : State} (h : s.CloseEffect t) : t.sorter = s.sorter := by rw [h]
theorem State.CloseEffect.accounting {s t : State} (h : s.CloseEffect t) : t.accounting = s.accounting := by rw [h]
theorem State.CloseEffect.writer {s t : State} (h : s.CloseEffect t) : t.writer = s.writer := by rw [h]
theorem State.CloseEffect.exceptions {s t : State} (h : s.CloseEffect t) : t.exceptions = s.exceptions := by rw [h]
theorem State.CloseEffect.notices {s t : State} (h : s.CloseEffect t) : t.notices = s.notices := by rw [h]
theorem State.CloseEffect.slots {s t : State} (h : s.CloseEffect t) : t.requests.slots = s.requests.slots := by rw [h]
theorem State.CloseEffect.mem {s t : State} (h : s.CloseEffect t) : t.mem = s.mem := by rw [h]

/-- A test during a warm reset does nothing (R78). -/
theorem State.heldTest_of_warm {s : State} (h : s.control.warm = true) (b : BankId) : s.heldTest b = s := by
  unfold State.heldTest; simp [h]

/-- A test of a bank whose held close may not start does nothing. -/
theorem State.heldTest_of_not_mayStart {s : State} {b : BankId} (h : s.banks[b].mayStart = false) : s.heldTest b = s := by
  unfold State.heldTest
  split
  · rfl
  · rw [if_neg (by simpa using h)]

/-- The test of a held close that may start is its close start (R78, R80). -/
theorem State.heldTest_of_mayStart {s : State} {b : BankId} {a : Fin 2} {h : HeldClose} (hw : s.control.warm = false)
    (hp : s.banks[b].phase = .opened a) (hh : s.banks[b].held = some h) (hm : s.banks[b].mayStart = true) :
    s.heldTest b = s.closeStart b a h := by
  unfold State.heldTest
  rw [if_neg (by simp [hw]), if_pos hm, hp, hh]

/-! ### The accounting table's checks -/

/-- From `s` to `t` nothing changed but what a check of the accounting table may change. -/
def State.AccChecked (s t : State) : Prop :=
  t = { s with
    banks := t.banks
    capture := t.capture
    notices := { s.notices with latched := t.notices.latched }
    watchCounters := { s.watchCounters with corrected := t.watchCounters.corrected }
    ecc := t.ecc }

theorem State.AccChecked.trans {s t u : State} (h : s.AccChecked t) (h' : t.AccChecked u) : s.AccChecked u := by
  unfold State.AccChecked at *
  rw [h']
  congr 1 <;> rw [h]

theorem State.checkAcc_accChecked (s : State) (w : AccWord) : s.AccChecked (s.checkAcc w) := by
  unfold State.checkAcc
  split
  · rfl
  · rfl
  · unfold State.report
    split <;> rfl

theorem State.checkAccs_accChecked (s : State) (b : BankId) (i : Fin 2) (items : List AccItem) :
    s.AccChecked (s.checkAccs b i items) := by
  unfold State.checkAccs
  induction items generalizing s with
  | nil => rfl
  | cons it items ih => exact (s.checkAcc_accChecked _).trans (ih _)

/-- Without errors in the table a check does nothing. -/
theorem State.checkAccs_of_clean {s : State} (h : s.ecc.accounting = []) (b : BankId) (i : Fin 2) (items : List AccItem) :
    s.checkAccs b i items = s := by
  unfold State.checkAccs
  induction items with
  | nil => rfl
  | cons it items ih =>
    have : s.checkAcc ⟨b, i, it⟩ = s := by unfold State.checkAcc; rw [h]; rfl
    rw [List.foldl_cons, this, ih]

/-! ### The register store's checks -/

/-- Without errors in the store a check does nothing. -/
theorem State.checkRegs_of_clean {s : State} (h : s.ecc.registers = []) (p : SetId) (items : List RegItem) :
    s.checkRegs p items = s := by
  unfold State.checkRegs
  induction items with
  | nil => rfl
  | cons it items ih =>
    have : s.checkReg p it = s := by unfold State.checkReg; rw [h]; rfl
    rw [List.foldl_cons, this, ih]

/-- From `s` to `t` nothing changed but what a check of the register store may change: a lost pending REBASE ends its slot
(R110). -/
def State.RegChecked (s t : State) : Prop :=
  t = { s with
    regs := t.regs
    requests := { s.requests with slots := t.requests.slots, table := t.requests.table }
    mem := t.mem
    capture := t.capture
    notices := { s.notices with latched := t.notices.latched }
    watchCounters := { s.watchCounters with corrected := t.watchCounters.corrected }
    ecc := t.ecc }

theorem State.RegChecked.refl (s : State) : s.RegChecked s := rfl

theorem State.RegChecked.trans {s t u : State} (h : s.RegChecked t) (h' : t.RegChecked u) : s.RegChecked u := by
  unfold State.RegChecked at *
  rw [h']
  congr 1 <;> rw [h]

theorem State.report_regChecked (s : State) (st : Store) (w : Word) : s.RegChecked (s.report st w) := by
  unfold State.report
  split <;> rfl

theorem State.regWritten_regChecked (s : State) (p : SetId) (f : RegItem → Bool) : s.RegChecked (s.regWritten p f) := rfl

theorem State.putRegs_regChecked (s : State) (p : SetId) (x : RegisterSet) : s.RegChecked (s.putRegs p x) := rfl

theorem State.endDeferred_regChecked (s : State) (k : SlotId) (st : SlotState) (o : ReplyOutcome) (r : Reason) (i : Word)
    (c : Nat) (d : List Byte) : s.RegChecked (s.endDeferred k st o r i c d) := by
  have h := s.endDeferred_replied k st o r i c d
  have hr := s.endDeferred_requests k st o r i c d
  unfold State.Replied at h
  unfold State.RegChecked
  rw [h, hr]

theorem State.loseRebase_regChecked (s : State) (p : SetId) : s.RegChecked (s.loseRebase p) := by
  unfold State.loseRebase
  split
  · exact (s.putRegs_regChecked p _).trans (State.endDeferred_regChecked _ _ _ _ _ _ _ _)
  · rfl

theorem State.loseReg_regChecked (s : State) (p : SetId) (it : RegItem) : s.RegChecked (s.loseReg p it) := by
  cases it
  case rebase =>
    unfold State.loseReg
    exact (s.loseRebase_regChecked p).trans (State.regWritten_regChecked _ p _)
  all_goals
    unfold State.loseReg
    exact (s.putRegs_regChecked p _).trans (State.regWritten_regChecked _ p _)

theorem State.checkReg_regChecked (s : State) (p : SetId) (it : RegItem) : s.RegChecked (s.checkReg p it) := by
  unfold State.checkReg
  split
  · rfl
  · rfl
  · exact (s.report_regChecked _ _).trans (State.loseReg_regChecked _ p it)

theorem State.checkRegs_regChecked (s : State) (p : SetId) (items : List RegItem) : s.RegChecked (s.checkRegs p items) := by
  unfold State.checkRegs
  induction items generalizing s with
  | nil => rfl
  | cons it items ih => exact (s.checkReg_regChecked p it).trans (ih _)

/-! ### The record writer -/

/-- From `s` to `t` nothing changed but what the record writer may change while it writes. -/
def State.RecordEffect (s t : State) : Prop :=
  t = { s with
    writer := t.writer
    folds := t.folds
    mem := t.mem
    notices := { s.notices with latched := t.notices.latched }
    ecc := { s.ecc with exchange := t.ecc.exchange } }

theorem State.RecordEffect.refl (s : State) : s.RecordEffect s := rfl

theorem State.RecordEffect.trans {s t u : State} (h : s.RecordEffect t) (h' : t.RecordEffect u) : s.RecordEffect u := by
  unfold State.RecordEffect at *
  rw [h']
  congr 1 <;> rw [h]

theorem State.fillPage_recordEffect (s : State) : s.RecordEffect s.fillPage := by
  unfold State.fillPage
  split <;> rfl

theorem State.writePage_recordEffect (s : State) (p : PageId) (off : Nat) (d : List Byte) :
    s.RecordEffect (s.writePage p off d) := by
  unfold State.writePage
  generalize Memory.writeBytes _ _ _ = m
  rfl

theorem State.zeroPage_recordEffect (s : State) (p : PageId) : s.RecordEffect (s.zeroPage p) := by
  unfold State.zeroPage
  generalize Memory.zero _ _ _ = m
  rfl

theorem State.putWriter_recordEffect (s : State) (w : Writer) : s.RecordEffect (s.putWriter w) := rfl

theorem State.takePage_recordEffect (s : State) : s.RecordEffect s.takePage := by
  unfold State.takePage
  split
  · exact ((s.zeroPage_recordEffect _).trans (State.writePage_recordEffect _ _ _ _)).trans
      (State.putWriter_recordEffect _ _)
  · rfl

theorem State.loseRecord_recordEffect (s : State) (b : BankId) : s.RecordEffect (s.loseRecord b) := rfl

theorem State.updateHeader_recordEffect (s : State) (f : Filling) (n : Word) (u : Nat) :
    s.RecordEffect (s.updateHeader f n u) := by
  unfold State.updateHeader
  have tail : ∀ t : State, t.RecordEffect ((t.writePage f.page 12 (wordBytes n)).writePage f.page 20 (leBytes 4 u)) :=
    fun t => (t.writePage_recordEffect _ _ _).trans (State.writePage_recordEffect _ _ _ _)
  refine (s.writePage_recordEffect f.page 4 (leBytes 4 (f.count + 1))).trans ?_
  by_cases h : f.count = 0
  · simp only [if_pos h]
    exact (State.writePage_recordEffect _ f.page 8 (wordBytes n)).trans (tail _)
  · simp only [if_neg h]
    exact tail _

theorem State.placeRecord_recordEffect (s : State) (f : Filling) (n : Word) (r : List Byte) :
    s.RecordEffect (s.placeRecord f n r) := by
  unfold State.placeRecord
  dsimp only
  have placed : ∀ w : Writer, s.RecordEffect
      (((s.writePage f.page (64 + f.used) r).updateHeader f n (f.used + r.length)).putWriter w) := fun w =>
    ((s.writePage_recordEffect _ _ _).trans (State.updateHeader_recordEffect _ _ _ _)).trans
      (State.putWriter_recordEffect _ w)
  split
  · exact (placed _).trans (State.fillPage_recordEffect _)
  · exact placed _

theorem State.makeRoom_recordEffect (s : State) (n : Nat) : s.RecordEffect (s.makeRoom n) := by
  unfold State.makeRoom
  split
  · split
    · rfl
    · exact s.fillPage_recordEffect
  · rfl

theorem State.ensurePage_recordEffect (s : State) : s.RecordEffect s.ensurePage := by
  unfold State.ensurePage
  split
  · rfl
  · exact s.takePage_recordEffect

theorem State.writeRecord_recordEffect (s : State) (b : BankId) (n : Word) (r : List Byte) :
    s.RecordEffect (s.writeRecord b n r) := by
  unfold State.writeRecord
  dsimp only
  refine ((s.makeRoom_recordEffect r.length).trans (State.ensurePage_recordEffect _)).trans ?_
  split
  · exact State.placeRecord_recordEffect _ _ _ _
  · exact State.loseRecord_recordEffect _ _

end Sys2Proof.Machine
end

