-- ==== Sys2Proof/Tests/Slice0.lean ====
section
/-! SUPPORT. The model's own tests: the well-formedness check, values from the spec's examples, and for each statement with
hypotheses a state and operands that meet them. -/

namespace Sys2Proof.Tests

open Sys2Proof Sys2Proof.Machine

set_option Elab.async false

/-! ### Frames as bytes -/

/-- An IDLE frame (spec 11.2), its CRC computed outside the model. -/
def idleFrame : List Byte := [0x7E, 0xC3, 0x01, 0x00, 0x01, 0x8D, 0xEB]

/-- The IDLE frame with a wrong CRC. -/
def crcBadFrame : List Byte := [0x7E, 0xC3, 0x01, 0x00, 0x01, 0x8D, 0xEA]

/-- A frame with a good CRC and an undefined type byte. -/
def formatBadFrame : List Byte := [0x7E, 0xC3, 0x01, 0x00, 0x03, 0xCF, 0xCB]

/-- A delimiter with a length field of 2000. -/
def longHead : List Byte := [0x7E, 0xC3, 0xD0, 0x07]

/-- A WINDOW frame of port 2, sequence 900, 200,000 µs, 2300 V and 5 A in phase on every phase, no harmonics. -/
def windowFrame : List Byte :=
  [0x7E, 0xC3, 0x2E, 0x00, 0x02, 0x02, 0x84, 0x03, 0x00, 0x40, 0x0D, 0x03, 0x00, 0x70, 0x82, 0x03, 0x00, 0x00, 0x00, 0x88,
   0x13, 0x00, 0x00, 0x00, 0x00] ++
  [0x70, 0x82, 0x03, 0x00, 0x00, 0x00, 0x88, 0x13, 0x00, 0x00, 0x00, 0x00, 0x70, 0x82, 0x03, 0x00, 0x00, 0x00, 0x88, 0x13,
   0x00, 0x00, 0x00, 0x00, 0x00, 0x70, 0xC8]

def phasor : Phasor := ⟨230000, 0, 5000, 0⟩

def window (port : Fin 8) (seq : Seq16) : WindowFrame :=
  { port := port, seq := seq, clip := false, unlock := false, gap := false, duration := 200000
    fundamental := ⟨phasor, phasor, phasor⟩, harmonics := [] }

def tagged (port : Fin 8) (seq : Seq16) : TaggedFrame := ⟨window port seq, ⟨false, false, false, false, false⟩⟩

/-! ### Well-formedness: one ill-formed command for each check -/

theorem test_wf_accepts : (Instr.goodFrame 0 idleFrame).wellFormed = true ∧ (Instr.badFrame 0 longHead).wellFormed = true ∧
    (Instr.huntCandidate 0 idleFrame).wellFormed = true ∧ (Instr.run 1 1).wellFormed = true ∧
    (Instr.noticeEnableMask 0x3F00 2).wellFormed = true ∧ (Instr.warmReset 2 1).wellFormed = true ∧
    (Instr.registerWriteIgnored 3 0 15).wellFormed = true := by decide +kernel

theorem test_wf_goodFrame_needs_delimiter : (Instr.goodFrame 0 [0x00, 0xC3, 0x01, 0x00, 0x01, 0, 0]).wellFormed = false := by
  decide +kernel

theorem test_wf_goodFrame_needs_length : (Instr.goodFrame 0 (idleFrame ++ [0])).wellFormed = false := by decide +kernel

theorem test_wf_goodFrame_needs_range : (Instr.goodFrame 0 longHead).wellFormed = false := by decide +kernel

theorem test_wf_badFrame_needs_range : (Instr.badFrame 0 [0x7E, 0xC3, 0x01, 0x00]).wellFormed = false := by decide +kernel

theorem test_wf_huntCandidate_needs_delimiter : (Instr.huntCandidate 0 [0x7E, 0x7E]).wellFormed = false := by decide +kernel

theorem test_wf_run_needs_byte_0 : (Instr.run 1 14).wellFormed = false := by decide +kernel

theorem test_wf_mask_needs_byte_1 : (Instr.noticeEnableMask 0x3F00 13).wellFormed = false := by decide +kernel

theorem test_wf_warmReset_needs_byte_0 : (Instr.warmReset 2 14).wellFormed = false := by decide +kernel

theorem test_wf_warmReset_needs_warm : (Instr.warmReset 1 15).wellFormed = false := by decide +kernel

theorem test_wf_ignored_needs_lwid_or_lwnote : (Instr.registerWriteIgnored 1 0 15).wellFormed = false := by decide +kernel

/-! ### Values from the spec -/

/-- The check value of the CRC that R2 describes, over the bytes "123456789". -/
theorem test_crc_check_value : crc16 [0x31, 0x32, 0x33, 0x34, 0x35, 0x36, 0x37, 0x38, 0x39] = 0x29B1 := by decide +kernel

theorem test_examine_idle : examine idleFrame = .good .idle 7 := by decide +kernel

theorem test_examine_window : examine windowFrame = .good (.window (window 2 900)) 52 := by decide +kernel

theorem test_examine_bad : examine crcBadFrame = .crcError 7 ∧ examine formatBadFrame = .formatError 7 ∧
    examine longHead = .badLength := by decide +kernel

/-- A frame body of 1908 bytes is the longest (R2): 1909 is out of range, 1908 waits for its bytes. -/
theorem test_examine_length_limits : examine [0x7E, 0xC3, 0x74, 0x07] = .incomplete ∧
    examine [0x7E, 0xC3, 0x75, 0x07] = .badLength ∧ examine [0x7E, 0xC3, 0, 0] = .badLength := by decide +kernel

/-- 2300 V × 5 A on three phases over 200 ms: 34.5 kW × 0.2 s is 1916 mWh and a fraction (R45). -/
theorem test_window_energy : energyOf ((window 2 900).fundamental.activeSum false * 200000) = 1916 := by decide +kernel

/-- The durations at which RANGE is set (R11). -/
theorem test_range_limits : outOfRange 179999 = true ∧ outOfRange 180000 = false ∧ outOfRange 230000 = false ∧
    outOfRange 230001 = true := by decide +kernel

/-- Spec 12.2: quantity 0 of P14, an increase from scale 0 by 3 digits, then the total. -/
theorem test_scale_increase : (Quantity.mk 12345678 457 true).raise 0 3 = ⟨12345, 678457, true⟩ ∧
    (Quantity.mk 12345 678457 true).addTotal 3 2345678 = ⟨12348, 24135, true⟩ ∧
    (Quantity.mk 999 999999 true).addTotal 3 1 = ⟨1000, 0, true⟩ ∧
    (Quantity.mk 0 41200 false).addTotal 3 900 = ⟨0, 41200, false⟩ := by decide +kernel

/-- A decrease takes digits back from the residue (R100). -/
theorem test_scale_decrease : (Quantity.mk 12345 678457 true).lower 0 3 = ⟨12345678, 457, true⟩ := by decide +kernel

/-- Sequence comparison wraps (spec 00): 2 is newer than 65535, and half the circle away neither is newer. -/
theorem test_newer : newer 2 65535 = true ∧ newer 65535 2 = false ∧ newer 5 5 = false ∧ newer 32768 0 = false ∧
    newer 0 32768 = false ∧ newer 32767 0 = true := by decide +kernel

/-- Missing windows between 10 and 14 (R65), and none on the first hand-off. -/
theorem test_missing : missing (some 10) 14 = 3 ∧ missing (some 65535) 0 = 0 ∧ missing none 14 = 0 := by decide +kernel

/-- Interval numbers skip 0 (R81). -/
theorem test_nextInterval : nextInterval 0xFFFFFFFF = 1 ∧ nextInterval 0 = 1 ∧ nextInterval 52 = 53 := by decide +kernel

/-- Net items: sign and magnitude, and a seventeenth digit (R106, R107). -/
theorem test_net : netDifference 5 7 = ⟨true, 2, .valid⟩ ∧ netDifference 7 5 = ⟨false, 2, .valid⟩ ∧
    netDifference (2 * 9999999999999999) 0 = ⟨false, 9999999999999998, .overrange⟩ := by decide +kernel

/-- Packed decimal, units first (R195). -/
theorem test_packDecimal : packDecimal 3 123456 = [0x56, 0x34, 0x12] ∧ unpackDecimal [0x56, 0x34, 0x12] = some 123456 ∧
    unpackDecimal [0x0A] = none := by decide +kernel

/-! ### States -/

/-- A ready part with RUN set. -/
def live : State :=
  { State.reset with
    control := ⟨true, false, true⟩
    requests := { State.reset.requests with quotaTimer := some 250 } }

/-- The same with a warm reset in progress. -/
def liveWarm : State := { live with control := ⟨true, true, true⟩ }

/-- Link 0 with a receiver of this state, silence timer and FIFO. -/
def linked (s : State) (st : RxState) (bad : Nat) (fifo : List TaggedFrame) : State :=
  { s with links := s.links.set 0 { State.resetReceiver with
      state := st, consecutiveBad := bad, silenceTimer := if st = .sync then some 1000 else none, fifo := fifo } }

/-- Point 0 active as PCC on link 0, port 2; point 1 mapped to port 3 and not active. -/
def pointed (s : State) : State :=
  { s with
    profiles := (s.profiles.set 0 { State.resetProfile with enable := true, role := .pcc, mapping := some (0, 2) }).set 1
      { State.resetProfile with mapping := some (0, 3) } }

/-- An entry that expects point 0. -/
def entry (seq : Seq16) (frame : Option TaggedFrame) (c : Option Completion) (handed : Bool) : Entry :=
  { seq := seq, expected := [⟨0, BitVec.allOnes 49, false, false, frame⟩], completion := c, handed := handed
    timer := if c.isSome then none else some 300 }

def queued (s : State) (q : List Entry) (last : Option Seq16) (late : Nat) : State :=
  { s with sorter := { s.sorter with queue := q, lastHanded := last, consecutiveLate := late } }

def busyWith (added : Bool) (c : Option Calculation) : Accounting :=
  { carriedLast := some 898, calculation := c, added := Vector.replicate 8 added, setAside := Vector.replicate 8 false }

def result900 : Calculation :=
  { points := [(Expected.mk 0 (BitVec.allOnes 49) false false (some (tagged 2 900))).result], balance := none }

/-- Window 900 handed to accounting. -/
def busy (s : State) (added : Bool) (c : Option Calculation) : State :=
  { queued s [entry 900 (some (tagged 2 900)) (some .allArrived) true] (some 898) 0 with accounting := some (busyWith added c) }

/-- Bank 0 in a phase with a held close and a span of 5000 in set 0. -/
def banked (s : State) (ph : Phase) (held : Option HeldClose) (prev : Option (Fin 2)) : State :=
  let x := State.zeroSet true
  { s with
    banks := s.banks.set 0 { State.resetBank true with
      phase := ph, held := held, previous := prev, interval := 52
      sets := (Vector.replicate 2 x).set 0 { x with interval := 52, span := 5000, start := some 1, last := some 899 } } }

def fold0 : Fold := { set := 0, interval := 52, causes := Causes.onlyHost, position := 0, lost := 2, lostCounter := 9 }

def folded (s : State) (f : Fold) : State := { s with folds := s.folds.set 0 (some f) }

/-- Slot 3 POSTED at the head of the intake queue with these request words behind its tag word. -/
def posted (s : State) (words : List Word) : State :=
  { s with
    mem := Memory.writeBytes s.mem (slotByte 3 + 4) (words.flatMap wordBytes)
    requests := { s.requests with slots := s.requests.slots.set 3 .posted, intake := [3] } }

def marked (s : State) (w : Nat) (m : ExchangeMark) : State := { s with ecc := { s.ecc with exchange := [(w, m)] } }

/-- Page 6 is FILLING with one record of 112 bytes, page 7 RETURNED. -/
def paged (s : State) (used : Nat) : State :=
  { s with writer :=
      { s.writer with
        pages := (s.writer.pages.set 0 .filling).set 1 .returned
        freeQueue := (List.finRange 58).drop 2
        filling := some ⟨0, used, 1, 51, 51⟩
        returns := [1] } }

/-- Bank 0 with another set 0 and timing. -/
def adjusted (s : State) (f : AccSet → AccSet) (timing : Timing) : State :=
  { s with banks := s.banks.set 0 { s.banks[(0 : BankId)] with
      timing := timing, sets := s.banks[(0 : BankId)].sets.set 0 (f s.banks[(0 : BankId)].sets[(0 : Fin 2)]) } }

/-- Point 0's entry of a set in use. -/
def usedBy0 (x : AccSet) : AccSet := { x with entries := x.entries.set 0 { x.entries[(0 : Fin 5)] with inUse := true } }

/-- A full stack of NEW records. -/
def full (s : State) : State :=
  { s with exceptions := { records := Vector.replicate 64 { State.resetRecord with tag := .new }, top := 0, lost := 0 } }

/-! ### One step each, from the worked sequences -/

/-- The state after one command. -/
def after (s : State) (c : Instr) : State :=
  match exec c s with
  | .next t => t
  | _ => s

/-- Spec 12.1: with D = 4050 and a span of 3100 a held TARIFF close may not start, and a CLOSE may wait 950 windows. -/
theorem test_close_estimate :
    let b : Bank := { State.resetBank true with
      phase := .opened 0, held := some ⟨Causes.onlyTariff, []⟩
      sets := Vector.replicate 2 { State.zeroSet true with span := 3100 } }
    b.closeEstimate = 950 ∧ b.mayStart = false := by decide +kernel

/-- Spec 12.3: 208 bytes behind 3800 leave 24 bytes of room, so the page is FILLED and PAGE latched in the same event. -/
theorem test_record_fills_page : ((paged live 3800).writeRecord 5 60 (List.replicate 208 1)).writer.filling = none ∧
    ((paged live 3800).writeRecord 5 60 (List.replicate 208 1)).writer.pages[(0 : PageId)] = .filled ∧
    ((paged live 3800).writeRecord 5 60 (List.replicate 208 1)).latched .page = true := by decide +kernel

/-- Spec 12.4: a push finds the stack full; an acknowledgement of the top pops one record, and one above an acknowledged
record pops both. -/
theorem test_full_stack : ((full live).push .recordsLost 0 0 0 0 noCopy).exceptions.lost = 1 ∧
    ((full live).push .recordsLost 0 0 0 0 noCopy).exceptions.records[(0 : Fin 64)].lostAfter = 1 ∧
    ((full live).exceptions.acknowledge 32).top = 0 ∧ ((full live).exceptions.acknowledge 0).top = 1 ∧
    (((full live).exceptions.acknowledge 1).acknowledge 0).top = 2 := by decide +kernel

/-- Spec 12.5: a fifth sequence forces the head, which is handed at once, and the frame is held. -/
theorem test_forced_head :
    let q := [entry 300 none none false, entry 301 none none false, entry 302 none none false, entry 303 none none false]
    let t := after (queued (pointed (linked live .sync 0 [tagged 2 304])) q (some 299) 0) (.sorterTake 0)
    t.sorter.heldFrame = some ⟨0, tagged 2 304⟩ ∧
      t.sorter.queue.head? = some { entry 300 none (some .forced) true with timer := none } ∧ t.accounting.isSome = true := by
  decide +kernel

/-- CLEAR rewrites the mirror of an empty error set, so its error goes (R17, R178). -/
theorem test_clear_rewrites_mirror :
    (after (marked (posted live [9, 7, 0, 0, 4]) 8 .single) .linkControlClear).ecc.exchange = [] := by decide +kernel

/-- A lost mask word is 0 and damages its entry; the INVERT word and the other entries stay (R72). -/
theorem test_lost_mask_word :
    let x := usedBy0 (State.zeroSet true)
    ((x.loseWord (.mask 0)).entries[(0 : Fin 5)] = { x.entries[(0 : Fin 5)] with mask := 0, damaged := true }) ∧
      (x.loseWord (.mask 0)).entries[(1 : Fin 5)] = x.entries[(1 : Fin 5)] ∧
      ∀ e : Fin 5, (x.loseWord .span).entries[e].damaged = true := by decide +kernel

/-- A record that is not a page's first leaves the header's first-interval word, with an error in it (R116). -/
theorem test_first_interval_word_stays :
    ((marked (paged live 112) (pageByte 0 / 4 + 2) .single).writeRecord 5 60 (List.replicate 112 1)).ecc.exchange =
      [(pageByte 0 / 4 + 2, .single)] := by decide +kernel

/-- R53: a balance result over a PCC point's window, and none over a FEEDER's. -/
theorem test_balance_needs_pcc :
    ((after (busy (pointed (banked live (.opened 0) none none)) false none) .calculation).accounting.bind fun a =>
      a.calculation.map fun c => c.balance.isSome) = some true ∧
    ((after (busy (banked live (.opened 0) none none) false none) .calculation).accounting.bind fun a =>
      a.calculation.map fun c => c.balance.isSome) = some false := by decide +kernel

/-- Net items at scale 2: a negative difference, one of 17 digits, one with an INVALID register (R106, R107). -/
theorem test_net_items :
    let qs : Vector Quantity 104 := Vector.replicate 104 ⟨0, 0, true⟩
    let r := { State.resetRegisterSet with
      scale := 2
      quantities := (((qs.set 1 ⟨12, 0, true⟩).set 2 ⟨9999999999999999, 0, true⟩).set 3 ⟨9999999999999999, 0, true⟩).set 103
        ⟨5, 0, false⟩ }
    r.netBytes 0 1 = [0x12, 0, 0, 0, 0, 0, 0, 0, 1, 0, 2, 0, 0, 0, 0, 0] ∧
      r.netBytes 1 1 = [0x98, 0x99, 0x99, 0x99, 0x99, 0x99, 0x99, 0x99, 0, 2, 2, 0, 0, 0, 0, 0] ∧
      r.netBytes 50 1 = [0, 0, 0, 0, 0, 0, 0, 0, 0, 1, 2, 0, 0, 0, 0, 0] := by decide +kernel

/-- LWNOTE shows the lowest enabled code; NOTE# follows it (R189). -/
theorem test_lwnote :
    let s : State := { live with notices := { latched := 0x26, mask := 0x24, owner := false } }
    s.lwnote = 3 ∧ s.noteAsserted = true ∧ s.lwstat = 0x2601 ∧ s.lwctl = 0x2401 := by decide +kernel

/-- A CLOSE of a bank that is not OPEN is refused STATE in its take, and DONE is latched (R151, R170). -/
theorem test_close_refused : (after (posted live [4, 7, 0, 0]) .close).requests.slots[(3 : SlotId)] = .refused ∧
    (after (posted live [4, 7, 0, 0]) .close).word (1024 + 3 * 128 + 35) = 7 ∧
    (after (posted live [4, 7, 0, 0]) .close).word (1024 + 3 * 128 + 32) = 7 ∧
    (after (posted live [4, 7, 0, 0]) .close).latched .done = true := by decide +kernel

/-! ### Shared witnesses -/

theorem memoryOk_nil {s : State} (h : s.mem = []) : s.MemoryOk := by
  unfold State.MemoryOk
  rw [h]
  exact ⟨Memory.wf_nil, by simp⟩

theorem posted_memoryOk {s : State} (h : s.mem = []) (words : List Word) (hw : words.length ≤ 127) :
    (posted s words).MemoryOk := by
  have hlen : ∀ ws : List Word, (ws.flatMap wordBytes).length = 4 * ws.length := by
    intro ws
    induction ws with
    | nil => rfl
    | cons w ws ih => simp [List.flatMap_cons, ih]; omega
  unfold State.MemoryOk posted
  simp only [h]
  refine ⟨Memory.wf_writeBytes Memory.wf_nil _ _, fun c hc => ?_⟩
  have range := Memory.mem_writeBytes [] hc
  simp [hlen, slotByte] at range
  omega

/-- The head of the queue is slot 3 and its take is this row, as a test. -/
def headTest (s : State) (row : Row) : Bool :=
  s.control.ready && s.requests.intake == [3] && s.mayTake && s.isRow 3 row

theorem head_of_test {s : State} {row : Row} (h : headTest s row = true) : s.Head 3 [] row := by
  simp only [headTest, Bool.and_eq_true, beq_iff_eq] at h
  exact ⟨h.1.1.1, h.1.1.2, h.1.2, h.2⟩

/-- A request unit whose invariant does not speak of a REBASE. -/
theorem requestsOk_of {s : State} (h1 : s.requests.intake.Nodup)
    (h2 : ∀ k : SlotId, k ∈ s.requests.intake ↔ s.requests.slots[k] = .posted)
    (h3 : (s.requests.table.map PendingEntry.slot).Nodup)
    (h4 : ∀ k : SlotId, k ∈ s.requests.table.map PendingEntry.slot ↔ s.requests.slots[k] = .taken)
    (h5 : ∀ e ∈ s.requests.table, e.work.finished = false) (h6 : ∀ p : SetId, s.regs[p].rebase = none)
    (h7 : ∀ e ∈ s.requests.table, e.work.kindCode ≠ 7)
    (h8 : 1 ≤ s.requests.quotaLimit ∧ s.requests.quotaLimit ≤ 32 ∧ s.requests.quotaCount ≤ 32) : s.RequestsOk := by
  have noRebase : ∀ (p : SetId) (x : PendingRebase), s.regs[p].rebase ≠ some x :=
    fun p x h => nomatch (h6 p).symm.trans h
  have noEntry : ∀ e ∈ s.requests.table, ∀ p : SetId, e.work ≠ .rebase p := fun e he p h =>
    h7 e he (congrArg Work.kindCode h)
  exact ⟨h1, h2, h3, h4, h5, fun p x h => (noRebase p x h).elim, fun e he p h => (noEntry e he p h).elim, h8⟩

theorem regsOk_reset : State.resetRegisterSet.Ok := by
  refine ⟨fun q => ?_, fun x h => (by cases h), fun x h => (by cases h)⟩
  simp [State.resetRegisterSet, registerLimit, residueLimit]

theorem registersOk_of {s : State} (h : s.regs = State.reset.regs) : s.RegistersOk := by
  have hp : ∀ p : SetId, s.regs[p] = State.resetRegisterSet := fun p => by rw [h]; simp [State.reset]
  exact ⟨fun p => by rw [hp]; exact regsOk_reset, by rw [hp]; rfl, by rw [hp]; rfl⟩

/-- The state with one command waiting. -/
def ask (s : State) (c : Instr) : State := { s with pending := [c] }

theorem exec_next {c : Instr} {f : State → State} (h : ∀ s, exec c s = s.event f) (s : State) :
    ∃ t, exec c s = .next t := ⟨_, (h s).trans (State.event_eq s f)⟩

theorem step_next {c : Instr} {f : State → State} (h : ∀ s, exec c s = s.event f) (s : State) :
    ∃ t, step (ask s c) = .next t := ⟨_, (step_of_pending rfl).trans ((h _).trans (State.event_eq _ f))⟩

/-! ### Witnesses: the step, reset, invariants -/

theorem test_witness_StepRunsFrontCommand : ({ live with pending := [.release] } : State).pending = [.release] ∧
    live.pending = [] := by decide +kernel

theorem test_witness_ReadinessAndInitialMemory : State.reset.control.ready = false ∧ Instr.release ≠ .ready ∧
    Instr.release ≠ .coldReset ∧ ∀ r la, Instr.release ≠ .hostRead r la := by
  refine ⟨rfl, by decide, by decide, fun r la h => by cases h⟩

theorem test_witness_StepKeepsMemory : (ask live .release).MemoryOk ∧
    ∃ t, step (ask live .release) = .next t :=
  ⟨memoryOk_nil rfl, step_next (fun _ => rfl) _⟩

theorem test_witness_StepKeepsLinks : (ask (linked live .sync 2 [tagged 2 900]) (.silenceTimerExpiry 0)).LinksOk ∧
    ∃ t, step (ask (linked live .sync 2 [tagged 2 900]) (.silenceTimerExpiry 0)) = .next t :=
  ⟨by unfold State.LinksOk Receiver.Ok; decide +kernel, step_next (fun _ => rfl) _⟩

theorem queueOk_busy : (busy live true (some result900)).QueueOk := by
  unfold State.QueueOk
  decide +kernel

theorem test_witness_StepKeepsQueue : (ask (busy live true (some result900)) .release).QueueOk ∧
    ∃ t, step (ask (busy live true (some result900)) .release) = .next t :=
  ⟨queueOk_busy, step_next (fun _ => rfl) _⟩

theorem bankOk_of {s : State} {b : BankId} (h1 : foldAgrees s.banks[b].phase s.folds[b]) (h2 : s.banks[b].held = none)
    (h3 : ∀ a p, s.banks[b].phase.accumulating = some a → s.banks[b].previous = some p → p ≠ a)
    (h4 : ∀ f, s.folds[b] = some f → s.banks[b].previous = some f.set ∧ f.position ≤ 6)
    (h5 : ∀ i : Fin 2, s.banks[b].sets[i].balance.isSome = (b == 0)) : s.BankOk b := by
  have noClose : ∀ h, s.banks[b].held ≠ some h := fun h e => nomatch h2.symm.trans e
  exact ⟨h1, fun h e => (noClose h e).elim, h3, h4, h5⟩

theorem test_witness_StepKeepsBanks : (ask (banked live (.opened 0) none none) .tariffEvent).BanksOk ∧
    ∃ t, step (ask (banked live (.opened 0) none none) .tariffEvent) = .next t := by
  refine ⟨fun b => bankOk_of ?_ ?_ ?_ ?_ ?_, step_next (fun _ => rfl) _⟩
  all_goals revert b
  · intro b; fin_cases b <;> exact trivial
  · decide +kernel
  · decide +kernel
  · intro b f h; fin_cases b <;> cases h
  · decide +kernel

theorem requestsOk_posted (words : List Word) : (posted live words).RequestsOk := by
  refine requestsOk_of ?_ ?_ ?_ ?_ ?_ ?_ ?_ ?_
  · exact (by decide +kernel : ([3] : List SlotId).Nodup)
  · have : ∀ k : SlotId, k ∈ ([3] : List SlotId) ↔
        ((Vector.replicate 32 SlotState.free).set 3 SlotState.posted)[k] = SlotState.posted := by decide +kernel
    exact this
  · exact List.nodup_nil
  · have : ∀ k : SlotId, k ∈ ([] : List SlotId) ↔
        ((Vector.replicate 32 SlotState.free).set 3 SlotState.posted)[k] = SlotState.taken := by decide +kernel
    exact this
  · exact fun e he => absurd he List.not_mem_nil
  · exact (by decide +kernel : ∀ p : SetId, (Vector.replicate 41 State.resetRegisterSet)[p].rebase = none)
  · exact fun e he => absurd he List.not_mem_nil
  · exact (by decide +kernel : 1 ≤ 4 ∧ 4 ≤ 32 ∧ 0 ≤ 32)

theorem test_witness_StepKeepsRequests : (ask (posted live [11, 7]) .badKind).RequestsOk ∧
    ∃ t, step (ask (posted live [11, 7]) .badKind) = .next t :=
  ⟨requestsOk_posted [11, 7], step_next (fun _ => rfl) _⟩

theorem pagesOk_paged : (paged live 112).PagesOk ∧ (paged live 3920).PagesOk := by
  unfold State.PagesOk
  decide +kernel

theorem pagesOk_live : live.PagesOk := by
  unfold State.PagesOk
  decide +kernel

theorem test_witness_StepKeepsPages : (ask (paged live 112) .returnTake).PagesOk ∧
    ∃ t, step (ask (paged live 112) .returnTake) = .next t :=
  ⟨pagesOk_paged.1, step_next (fun _ => rfl) _⟩

theorem test_witness_StepKeepsRegisters : (ask live .release).RegistersOk ∧
    ∃ t, step (ask live .release) = .next t :=
  ⟨registersOk_of rfl, step_next (fun _ => rfl) _⟩

/-- One NEW record on the stack, at 4032. -/
def stacked (s : State) : State :=
  { s with exceptions :=
      { records := s.exceptions.records.set 63 { State.resetRecord with tag := .new, kind := 7 }, top := 63, lost := 0 } }

theorem test_witness_StepKeepsStack : (ask (stacked live) (.hostWrite 6128 2 15)).StackOk ∧
    ∃ t, step (ask (stacked live) (.hostWrite 6128 2 15)) = .next t :=
  ⟨by unfold State.StackOk; decide +kernel, step_next (fun _ => rfl) _⟩

theorem test_witness_StepKeepsCounts : (ask live (.windowAddition 0)).CountsOk ∧
    ∃ t, step (ask live (.windowAddition 0)) = .next t := by
  refine ⟨fun b i => ⟨?_, fun y h _ => ?_⟩, step_next (fun _ => rfl) _⟩
  · have : ∀ (b : BankId) (i : Fin 2) (e : Fin 5), live.banks[b].sets[i].entries[e].inUse = false := by decide +kernel
    intro e h
    have h' : live.banks[b].sets[i].entries[e].inUse = true := h
    rw [this b i e] at h'
    cases h'
  · have h0 : ∀ (b : BankId) (i : Fin 2), (live.banks[b].sets[i].balance.map fun z => (z.balanced, z.unbalanced)) = none ∨
        (live.banks[b].sets[i].balance.map fun z => (z.balanced, z.unbalanced)) = some (0, 0) := by decide +kernel
    have h1 : ∀ (b : BankId) (i : Fin 2), live.banks[b].sets[i].span = 0 := by decide +kernel
    have hb : live.banks[b].sets[i].balance = some y := h
    rcases h0 b i with h2 | h2 <;> rw [hb] at h2
    · cases h2
    · simp only [Option.map_some, Option.some.injEq, Prod.mk.injEq] at h2
      show y.balanced.toNat + y.unbalanced.toNat = (live.banks[b].sets[i].span).toNat
      rw [h2.1, h2.2, h1 b i]
      rfl

/-- A capture record at its last second fault. -/
def captured (s : State) : State := { s with capture := some ⟨.exchange, 4, none, 255⟩ }

theorem test_witness_CaptureStaysFrozen : (captured live).control.ready = true ∧
    (captured live).capture = some ⟨.exchange, 4, none, 255⟩ ∧ ∃ t, exec .release (captured live) = .next t :=
  ⟨rfl, rfl, exec_next (fun _ => rfl) _⟩

/-! ### Witnesses: links -/

/-- IDLE and WINDOW, FIFO with room for one and full, RUN set and clear. -/
theorem test_witness_GoodFrameInSync :
    (∀ fifo ∈ [[], List.replicate 3 (tagged 2 899), List.replicate 4 (tagged 2 899)],
      (linked live .sync 2 fifo).control.ready = true ∧ (linked live .sync 2 fifo).links[(0 : LinkId)].state = .sync ∧
      (linked live .sync 2 fifo).links[(0 : LinkId)].inProgress = [] ∧
      (linked live .sync 2 fifo).links[(0 : LinkId)].fifo.length ≤ 4) ∧
    examine idleFrame = .good .idle idleFrame.length ∧
    examine windowFrame = .good (.window (window 2 900)) windowFrame.length ∧
    live.control.run = true ∧ (linked State.reset .sync 0 []).control.run = false := by decide +kernel

/-- The three kinds of bad frame, the second and the third in a row; the silence timer running and stopped. -/
theorem test_witness_BadFramesAndSilenceInSync : examine crcBadFrame = .crcError crcBadFrame.length ∧
    examine formatBadFrame = .formatError formatBadFrame.length ∧ examine longHead = .badLength ∧ longHead.length = 4 ∧
    ∀ n ∈ [1, 2], (linked live .sync n []).control.ready = true ∧
      (linked live .sync n []).links[(0 : LinkId)].state = .sync ∧
      (linked live .sync n []).links[(0 : LinkId)].inProgress = [] ∧
      (linked live .sync n []).links[(0 : LinkId)].consecutiveBad = n ∧
      (linked live .sync n []).links[(0 : LinkId)].silenceTimer ≠ none ∧
      (linked live .hunt 0 []).links[(0 : LinkId)].silenceTimer = none := by decide +kernel

/-- IDLE and WINDOW, FIFO with room and full, RUN set and clear; a failed candidate. -/
theorem test_witness_HuntCandidateSearch : (linked live .hunt 0 []).control.ready = true ∧
    (linked live .hunt 0 []).links[(0 : LinkId)].state = .hunt ∧ live.control.run = true ∧
    ({ live with control := ⟨false, false, true⟩ } : State).control.run = false ∧
    examine idleFrame = .good .idle idleFrame.length ∧
    (after (linked live .hunt 0 (List.replicate 4 (tagged 2 899))) (.huntCandidate 0 windowFrame)).links[(0 : LinkId)].lost = 1 ∧
    (linked live .hunt 0 []).links[(0 : LinkId)].inProgress = [] ∧
    examine windowFrame = .good (.window (window 2 900)) windowFrame.length ∧
    examine crcBadFrame = .crcError 7 := by decide +kernel

/-! ### Witnesses: the sorter -/

/-- A frame of an unmapped port, of point 0 (port 2) and of the inactive point 1 (port 3), before queues that drop it. -/
def taking (port : Fin 8) (seq : Seq16) (q : List Entry) (last : Option Seq16) (late : Nat) : State :=
  queued (pointed (linked live .sync 0 [tagged port seq])) q last late

/-- Four OPEN entries. -/
def fourEntries : List Entry :=
  [entry 300 none none false, entry 301 none none false, entry 302 none none false, entry 303 none none false]

theorem test_witness_SorterTakeDropsFrame :
    (taking 5 900 [] none 0).sorter.heldFrame = none ∧
    (taking 5 900 [] none 0).links[(0 : LinkId)].fifo = [tagged 5 900] ∧
    (taking 5 900 [] none 0).sorter.queue.head? = none ∧
    (taking 5 900 [] none 0).mappedPoint 0 5 = none ∧
    (taking 2 900 [] (some 900) 62).mappedPoint 0 2 = some 0 ∧
    (taking 2 900 [] (some 900) 62).behindHorizon 900 = true ∧
    (taking 2 900 [] (some 900) 62).sorter.consecutiveLate + 1 ≠ 64 ∧
    (taking 3 900 [entry 900 none none false] none 0).mappedPoint 0 3 = some 1 ∧
    (taking 3 900 [entry 900 none none false] none 0).behindHorizon 900 = false ∧
    (1 : PointId) ∉ (entry 900 none none false).expected.map Expected.point ∧
    (entry 900 (some (tagged 2 900)) none false).expected.find? (fun y => y.point == 0) =
      some ⟨0, BitVec.allOnes 49, false, false, some (tagged 2 900)⟩ ∧
    (taking 3 900 [] none 0).profiles[(1 : PointId)].active = false ∧
    (taking 2 32868 [entry 100 none none false] none 0).profiles[(0 : PointId)].active = true ∧
    placeable (taking 2 32868 [entry 100 none none false] none 0).sorter.queue 32868 = false ∧
    (32868 : Seq16) ∉ (taking 2 32868 [entry 100 none none false] none 0).sorter.queue.map Entry.seq ∧
    (taking 2 299 fourEntries none 62).behindHorizon 299 = false ∧ (299 : Seq16) ∉ fourEntries.map Entry.seq ∧
    fourEntries.length = 4 ∧ newer (300 : Seq16) 299 = true ∧
    ((after (taking 2 299 fourEntries none 62) (.sorterTake 0)).sorter.late = 1) := by decide +kernel

/-- An entry that opens, one that receives its frame, a fifth sequence that forces the head, and a frame held. -/
theorem test_witness_SorterTakeKeepsFrame :
    (taking 2 901 [entry 900 none none false] (some 899) 9).control.ready = true ∧
    (taking 2 901 [entry 900 none none false] (some 899) 9).sorter.heldFrame = none ∧
    (taking 2 901 [entry 900 none none false] (some 899) 9).links[(0 : LinkId)].fifo = [tagged 2 901] ∧
    (taking 2 901 [entry 900 none none false] (some 899) 9).mappedPoint 0 2 = some 0 ∧
    (taking 2 901 [entry 900 none none false] (some 899) 9).behindHorizon 901 = false ∧
    (taking 2 901 [entry 900 none none false] (some 899) 9).profiles[(0 : PointId)].active = true ∧
    placeable [entry 900 none none false] 901 = true ∧
    (taking 2 900 [entry 900 none none false] (some 899) 9).behindHorizon 900 = false ∧
    (taking 2 900 [entry 900 none none false] (some 899) 9).sorter.queue.find? (fun e => e.seq == 900) =
      some (entry 900 none none false) ∧
    (entry 900 none none false).handed = false ∧
    (entry 900 none none false).expected.find? (fun y => y.point == 0) =
      some ⟨0, BitVec.allOnes 49, false, false, none⟩ ∧
    (taking 2 304 fourEntries (some 299) 9).behindHorizon 304 = false ∧ (304 : Seq16) ∉ fourEntries.map Entry.seq ∧
    placeable fourEntries 304 = true ∧ fourEntries.tail.length = 3 ∧ newer (304 : Seq16) 300 = true ∧
    (after (taking 2 304 fourEntries (some 299) 9) (.sorterTake 0)).sorter.heldFrame ≠ none := by decide +kernel

/-- Before window 901, with 900 handed last. -/
theorem queueOk_taking : (taking 2 900 [entry 901 none none false] (some 900) 63).QueueOk := by
  have newer901 : ∀ e ∈ [entry 901 none none false], newer e.seq 900 = true := by decide +kernel
  unfold State.QueueOk
  refine ⟨?_, ?_, ?_, ?_, ?_, fun _ e he r hr => ?_, ?_⟩
  case refine_6 => cases hr; exact newer901 e he
  all_goals decide +kernel

/-- Before a window too far from the entry to be placed, and before one older than the head of four entries. -/
theorem queueOk_placing : (taking 2 32868 [entry 100 none none false] none 63).QueueOk ∧
    (taking 2 299 fourEntries none 63).QueueOk := by
  unfold State.QueueOk
  refine ⟨⟨?_, ?_, ?_, ?_, ?_, fun _ _ _ _ hr => (by cases hr), ?_⟩, ?_, ?_, ?_, ?_, ?_, fun _ _ _ _ hr => (by cases hr), ?_⟩ <;>
    decide +kernel

/-- The 64th LATE drop by the horizon, with a stack with room and with a full one, by a failed place, and by a newer head. -/
theorem test_witness_ResyncDiscardsQueue : (taking 2 900 [entry 901 none none false] (some 900) 63).QueueOk ∧
    (taking 2 900 [entry 901 none none false] (some 900) 63).mappedPoint 0 2 = some 0 ∧
    (taking 2 900 [entry 901 none none false] (some 900) 63).behindHorizon 900 = true ∧
    (taking 2 900 [entry 901 none none false] (some 900) 63).sorter.consecutiveLate = 63 ∧
    (taking 2 900 [entry 901 none none false] (some 900) 63).exceptions.top = 64 ∧
    (full (taking 2 900 [entry 901 none none false] (some 900) 63)).exceptions.top = 0 ∧
    (taking 2 32868 [entry 100 none none false] none 63).QueueOk ∧ (taking 2 299 fourEntries none 63).QueueOk ∧
    (∀ x ∈ [((32868 : Seq16), [entry 100 none none false]), (299, fourEntries)],
      (taking 2 x.1 x.2 none 63).mappedPoint 0 2 = some 0 ∧ (taking 2 x.1 x.2 none 63).behindHorizon x.1 = false ∧
      x.1 ∉ (taking 2 x.1 x.2 none 63).sorter.queue.map Entry.seq ∧
      (taking 2 x.1 x.2 none 63).profiles[(0 : PointId)].active = true) ∧
    placeable [entry 100 none none false] 32868 = false ∧ fourEntries.length = 4 ∧ newer (300 : Seq16) 299 = true ∧
    (after (taking 2 299 fourEntries none 63) (.sorterTake 0)).exceptions.records[(63 : Fin 64)].d2 = 4 :=
  ⟨queueOk_taking, by decide +kernel, by decide +kernel, rfl, rfl, rfl, queueOk_placing.1, queueOk_placing.2,
    by decide +kernel⟩

theorem test_witness_AlignmentExpiryCompletesEntry :
    (taking 2 900 [entry 901 none none false] (some 900) 63).QueueOk ∧
    entry 901 none none false ∈ (taking 2 900 [entry 901 none none false] (some 900) 63).sorter.queue ∧
    (entry 901 none none false).timer ≠ none ∧
    (taking 2 900 [entry 901 none none false] (some 900) 63).accounting = none ∧
    (taking 2 900 [entry 901 none none false] (some 900) 63).control.warm = false :=
  ⟨queueOk_taking, by decide +kernel, by decide +kernel, rfl, rfl⟩

/-- Window 300 is accounted, three entries follow, and a frame with sequence 304 of this port is held. -/
def holding (port : Fin 8) : State :=
  let q := entry 300 (some (tagged 2 300)) (some .allArrived) true :: fourEntries.tail
  let s := queued (pointed live) q (some 299) 0
  { s with
    accounting := some (busyWith true (some result900))
    sorter := { s.sorter with heldFrame := some ⟨0, tagged port 304⟩ } }

theorem queueOk_holding : ∀ port ∈ ([2, 3, 5] : List (Fin 8)), (holding port).QueueOk := by
  unfold State.QueueOk
  decide +kernel

/-- With no frame held, and with one held that opens its entry (port 2), whose point is not active (port 3), of an unmapped
port (port 5). -/
theorem test_witness_ReleaseEndsAccounting : (busy live true (some result900)).control.ready = true ∧
    (busy live true (some result900)).QueueOk ∧
    (busy live true (some result900)).accounting = some (busyWith true (some result900)) ∧
    (busyWith true (some result900)).finished = true ∧ (busy live true (some result900)).sorter.heldFrame = none ∧
    (∀ port ∈ ([2, 3, 5] : List (Fin 8)), (holding port).QueueOk) ∧
    (holding 2).mappedPoint 0 2 = some 0 ∧ (holding 3).mappedPoint 0 3 = some 1 ∧ (holding 5).mappedPoint 0 5 = none ∧
    (holding 2).profiles[(0 : PointId)].active = true ∧ (holding 3).profiles[(1 : PointId)].active = false ∧
    (holding 2).releasedLast (entry 300 (some (tagged 2 300)) (some .allArrived) true) = some 300 ∧
    newer (304 : Seq16) 300 = true ∧ (304 : Seq16) ∉ fourEntries.tail.map Entry.seq ∧
    placeable fourEntries.tail 304 = true :=
  ⟨rfl, queueOk_busy, rfl, by decide +kernel, rfl, queueOk_holding, by decide +kernel⟩

theorem test_witness_LinkAndSorterEventsFrame :
    (∃ t, exec (.goodFrame 0 idleFrame) (linked live .sync 0 []) = .next t) ∧
    (∃ t, exec (.silenceTimerExpiry 0) (linked live .sync 0 []) = .next t) ∧
    (∃ t, exec (.sorterTake 0) (taking 5 900 [] none 0) = .next t) ∧
    (∃ t, exec (.alignmentTimerExpiry 901) (taking 5 900 [] none 0) = .next t) ∧
    ∃ t, exec .release (busy live true (some result900)) = .next t :=
  ⟨exec_next (fun _ => rfl) _, exec_next (fun _ => rfl) _, exec_next (fun _ => rfl) _, exec_next (fun _ => rfl) _,
    exec_next (fun _ => rfl) _⟩

/-! ### Witnesses: the calculator and the banks -/

theorem test_witness_CalculationGivesResults : (busy live false none).control.ready = true ∧
    (busy live false none).accounting = some (busyWith false none) ∧ (busyWith false none).calculation = none ∧
    (busy live false none).handedEntry = some (entry 900 (some (tagged 2 900)) (some .allArrived) true) ∧
    ((entry 900 (some (tagged 2 900)) (some .allArrived) true).expected.map Expected.point).Nodup := by decide +kernel

/-- Frames with an active sum at 0, above and below it, reactive sums of both signs; an order that is admitted and listed,
one that is listed and excluded, one that is not listed. -/
theorem test_witness_PointEnergiesByDirection : (window 2 900).fundamental.activeSum false > 0 ∧
    (window 2 900).fundamental.activeSum true < 0 ∧
    ((window 2 900).fundamental.reactiveSum false = 0) ∧
    ({ window 2 900 with fundamental := ⟨⟨1, 0, 0, 0⟩, ⟨1, 0, 0, 0⟩, ⟨1, 0, 0, 0⟩⟩ } : WindowFrame).fundamental.activeSum
      false = 0 ∧
    ({ window 2 900 with fundamental := ⟨⟨1, 0, 1, 8192⟩, ⟨1, 0, 1, 8192⟩, ⟨1, 0, 1, 8192⟩⟩ } : WindowFrame
      ).fundamental.reactiveSum false < 0 ∧
    (let f : WindowFrame := { window 2 900 with harmonics := [⟨5, ⟨phasor, phasor, phasor⟩⟩] }
     let admits (mask : BitVec 49) (h : Nat) : Bool :=
       mask.getLsbD (h - 2) && (f.harmonics.find? fun y => y.order == h).isSome
     admits (BitVec.allOnes 49) 5 = true ∧ admits 0 5 = false ∧ admits (BitVec.allOnes 49) 7 = false) := by decide +kernel

/-- A PCC point in an OPEN bank, every condition of R53 met; and a FEEDER alone. -/
theorem test_witness_BalanceResult :
    let s := busy (pointed (banked live (.opened 0) none none)) false none
    s.control.ready = true ∧ s.accounting = some (busyWith false none) ∧ (busyWith false none).calculation = none ∧
      s.handedEntry = some (entry 900 (some (tagged 2 900)) (some .allArrived) true) ∧
      s.profiles[(0 : PointId)].role = .pcc ∧ live.profiles[(0 : PointId)].role = .feeder ∧
      s.banks[(0 : BankId)].phase.accumulating = some 0 := by decide +kernel

/-- An entry whose point sees energy reversed in every phase: the window with INVERT. -/
def reversed : Entry :=
  { entry 900 none (some .allArrived) true with
    expected := [⟨0, BitVec.allOnes 49, true, false, some (tagged 2 900)⟩] }

/-- The window for which the count reaches 25. -/
def reversing : State :=
  let s := busy live false none
  { s with sorter := { s.sorter with queue := [reversed] }, watches := s.watches.set 0 ⟨24, true, some 876⟩ }

/-- One alarm, with a stack with room and with a full one; none with a smaller count. -/
theorem test_witness_PolaritySuspectPushed : reversing.control.ready = true ∧
    reversing.accounting = some (busyWith false none) ∧ reversing.handedEntry = some reversed ∧
    (reversed.expected.map Expected.point).Nodup ∧ reversing.exceptions.top = 64 ∧ (full reversing).exceptions.top = 0 ∧
    reversed.expected.filter (fun x => reversing.suspicious x && reversing.watches[x.point].count == 24 &&
      reversing.watches[x.point].armed) = reversed.expected ∧
    reversed.expected.filter (fun x => live.suspicious x && live.watches[x.point].count == 24 &&
      live.watches[x.point].armed) = [] ∧
    (after reversing .calculation).exceptions.records[(63 : Fin 64)].d1 = 876 := by decide +kernel

/-- A STOPPED bank 1, and bank 0 opened by START during the accounting. -/
theorem test_witness_AdditionAtStoppedBank : (busy live false (some result900)).control.ready = true ∧
    (busy live false (some result900)).accounting = some (busyWith false (some result900)) ∧
    (busyWith false (some result900)).calculation = some result900 ∧
    (busy live false (some result900)).handedEntry = some (entry 900 (some (tagged 2 900)) (some .allArrived) true) ∧
    (busyWith false (some result900)).added[(1 : BankId)] = false ∧
    (busy live false (some result900)).banks[(1 : BankId)].phase.accumulating = none ∧
    ({ busyWith false (some result900) with setAside := Vector.replicate 8 true } : Accounting).setAside[(0 : BankId)] =
      true := by decide +kernel

/-- The state of the additions: window 900 after 898, so one is missing; entry 0 in use. -/
def adding (span : Word) (timing : Timing) : State :=
  adjusted (busy (banked live (.opened 0) none none) false (some result900)) (fun x => { usedBy0 x with span := span }) timing

/-- Below and at COUNT's length, at OVERLONG's limit, and a span that reaches its limit. -/
theorem test_witness_AdditionAtOpenBank :
    (∀ p ∈ [(0, ⟨false, 4500, 4050⟩), (4498, ⟨false, 4500, 4050⟩), (8998, ⟨true, 4500, 4050⟩),
        (4294967294, ⟨true, 4500, 4050⟩)],
      let s := adding p.1 p.2
      s.control.ready = true ∧ s.ecc.accounting = [] ∧ s.accounting = some (busyWith false (some result900)) ∧
      s.handedEntry = some (entry 900 (some (tagged 2 900)) (some .allArrived) true) ∧
      s.banks[(0 : BankId)].phase.accumulating = some 0 ∧ s.banks[(0 : BankId)].sets[(0 : Fin 2)].span = p.1 ∧
      s.banks[(0 : BankId)].sets[(0 : Fin 2)].entries[(0 : Fin 5)].inUse = true ∧
      s.banks[(0 : BankId)].heldCauses.overlong = false) ∧
    (busyWith false (some result900)).added[(0 : BankId)] = false ∧
    (busyWith false (some result900)).setAside[(0 : BankId)] = false ∧ missing (some 898) 900 = 1 ∧
    (result900.resultAt 0 0).isSome = true ∧ (result900.resultAt 0 1) = none ∧
    (after (adding 8998 ⟨true, 4500, 4050⟩) (.windowAddition 0)).exceptions.records[(63 : Fin 64)].kind = 3 := by
  decide +kernel

/-- With R78's condition met and not met. -/
theorem test_witness_TariffEventAsksClose : live.control.ready = true ∧ liveWarm.control.ready = true ∧
    (banked live (.opened 0) none none).banks[(0 : BankId)].takesClose = true ∧
    ((banked live (.opened 0) none none).banks[(0 : BankId)].ask Causes.onlyTariff []).mayStart = true ∧
    ((banked live (.turning 0) none none).banks[(0 : BankId)].ask Causes.onlyTariff []).mayStart = false := by
  decide +kernel

def heldHost : HeldClose := ⟨Causes.onlyHost, [(3, .host)]⟩

def heldStop : HeldClose := ⟨Causes.onlyStop, [(3, .stop)]⟩

theorem test_witness_CloseStartTurnsBankOver : ∀ h ∈ [heldHost, heldStop],
    (banked live (.opened 0) (some h) none).control.warm = false ∧
    (banked live (.opened 0) (some h) none).banks[(0 : BankId)].phase = .opened 0 ∧
    (banked live (.opened 0) (some h) none).banks[(0 : BankId)].held = some h ∧
    (banked live (.opened 0) (some h) none).banks[(0 : BankId)].mayStart = true ∧
    (pointed (banked live (.opened 0) (some h) none)).openMarks 0 0 = (true, BitVec.allOnes 49, false) := by decide +kernel

/-! ### Witnesses: folding and records -/

/-- Bank 0 is TURNING: set 1 accumulates, set 0 folds and has the balance entry's step left. -/
def turning : State := folded (banked live (.turning 1) none (some 0)) fold0

/-- A register set with a due scale and a due REBASE. -/
def dueSet : RegisterSet :=
  { State.resetRegisterSet with staged := some ⟨2, true⟩, rebase := some ⟨3, [5], 3, true⟩ }

/-- A register set whose due decrease fails at quantity 0, which its total then overflows. -/
def failingSet : RegisterSet :=
  { State.resetRegisterSet with
    scale := 2, staged := some ⟨0, true⟩
    quantities := State.resetRegisterSet.quantities.set 0 ⟨9999999999999999, 99999, true⟩ }

/-- Point 0's step is next, at this register set and this entry. -/
def stepping (r : RegisterSet) (f : AccSet → AccSet) : State :=
  let s := adjusted turning f ⟨false, 4500, 4050⟩
  { s with regs := s.regs.set 0 r }

/-- Point 0's step is next, with both items due at it. -/
def turningDue : State := stepping dueSet usedBy0

/-- Point 0's entry in use with a total of 1 in quantity 0 and 7 in quantity 8, order 3 absorbed. -/
def totalled (x : AccSet) : AccSet :=
  { x with entries := x.entries.set 0 { x.entries[(0 : Fin 5)] with
      inUse := true, acc := (x.entries[(0 : Fin 5)].acc.set 0 1).set 8 7 } }

theorem regsOk_due : dueSet.Ok := by
  refine ⟨regsOk_reset.1, fun x h => ?_, fun x h => ?_⟩
  · cases h; decide
  · cases h; decide

theorem regsOk_failing : failingSet.Ok := by
  refine ⟨by decide +kernel, fun x h => ?_, fun x h => (by cases h)⟩
  cases h; decide

theorem registersOk_stepping {r : RegisterSet} (h : r.Ok) (f : AccSet → AccSet) : (stepping r f).RegistersOk := by
  have first : (stepping r f).regs[(0 : SetId)] = r := by simp [stepping]
  have others : ∀ p : SetId, p ≠ 0 → (stepping r f).regs[p] = State.resetRegisterSet := fun p hp => by
    have : (0 : Nat) ≠ p.val := fun e => hp (Fin.ext e.symm)
    simp [stepping, adjusted, turning, folded, banked, live, State.reset, this]
  refine ⟨fun p => ?_, by rw [others _ (by decide)]; rfl, by rw [others _ (by decide)]; rfl⟩
  by_cases hp : p = 0
  · rw [hp, first]; exact h
  · rw [others p hp]; exact regsOk_reset

/-- The balance entry's step, and a point's step with a due scale and a due REBASE. -/
theorem test_witness_PointStepFoldsInterval : turning.control.ready = true ∧ turning.RegistersOk ∧ turning.TablesClean ∧
    turning.nextStep 0 = some (fold0, 5) ∧ turningDue.RegistersOk ∧ turningDue.TablesClean ∧
    turningDue.nextStep 0 = some (fold0, 0) ∧ turningDue.regs[entryPoint 0 0].dueScale = some 2 ∧
    (turningDue.regs[entryPoint 0 0].dueRebase.bind fun x => x.valueFor 3) = some 5 :=
  ⟨rfl, registersOk_of rfl, ⟨rfl, rfl⟩, by decide +kernel, registersOk_stepping regsOk_due _, ⟨rfl, rfl⟩,
    by decide +kernel⟩

/-- A step that ends a REBASE, one that pushes twice, one that finds a full stack, and one without ARCHIVE. -/
theorem test_witness_PointStepReportsAndRecords : turningDue.control.ready = true ∧ turningDue.MemoryOk ∧
    turningDue.RegistersOk ∧ turningDue.TablesClean ∧ (stepping failingSet totalled).RegistersOk ∧
    turningDue.exceptions.top = 64 ∧ (full (stepping failingSet totalled)).exceptions.top = 0 ∧
    turningDue.nextStep 0 = some (fold0, 0) ∧ (stepping failingSet totalled).nextStep 0 = some (fold0, 0) ∧
    turningDue.regs[entryPoint 0 0].dueRebase ≠ none ∧ (stepping failingSet totalled).regs[entryPoint 0 0].dueRebase = none ∧
    (stepping failingSet totalled).regs[entryPoint 0 0].dueScale = some 0 ∧
    ((List.range 2).map fun i =>
      (after (stepping failingSet totalled) (.pointStep 0)).exceptions.records[63 - i]?.map ExceptionRecord.kind) =
      [some 5, some 6] ∧
    turningDue.banks[(0 : BankId)].archive = true ∧
    ({ turningDue.banks[(0 : BankId)] with archive := false } : Bank).archive = false :=
  ⟨rfl, memoryOk_nil rfl, registersOk_stepping regsOk_due _, ⟨rfl, rfl⟩, registersOk_stepping regsOk_failing _, rfl, rfl,
    by decide +kernel⟩

/-- An increase and a decrease that passes. -/
theorem test_witness_ScaleChangeKeepsStoredValue : State.resetRegisterSet.Ok ∧ (3 : Fin 4) ≠ State.resetRegisterSet.scale ∧
    ({ State.resetRegisterSet with scale := 2 } : RegisterSet).failing 2 = none := by
  refine ⟨regsOk_reset, by decide, by decide +kernel⟩

/-- A CLOSE's entry that waits for bank 0's fold. -/
def awaited : State :=
  let s := folded (banked live (.turning 1) none (some 0)) { fold0 with position := 6 }
  { s with requests := { s.requests with
      slots := s.requests.slots.set 3 .taken, table := [⟨3, .banks .closeOne [(0, .folding 52)] []⟩] } }

/-- A fold that lost records, with a stack with room and with a full one; slots of one bank and of two. -/
theorem test_witness_FoldCompletionEndsFold : awaited.control.ready = true ∧
    awaited.folds[(0 : BankId)] = some { fold0 with position := 6 } ∧ awaited.nextStep 0 = none ∧ awaited.RequestsOk ∧
    fold0.lost ≠ 0 ∧ awaited.exceptions.top = 64 ∧ (full awaited).exceptions.top = 0 ∧ awaited.MemoryOk ∧
    (([(5, 7)] ++ [(0, 52)] : List (BankId × Word)).map Prod.fst).Nodup ∧
    (after awaited (.foldCompletion 0)).mem.bytes (slotByte 3 + 0xC0) 8 = leBytes 4 0 ++ leBytes 4 52 ∧
    (folded (banked live (.stopping 0) none (some 0)) { fold0 with position := 6, lost := 0 }).nextStep 0 = none ∧
    ((banked live (.stopping 0) none (some 0)).banks[(0 : BankId)].phase.folded = .stopped) ∧
    ∀ b : BankId, b ≠ 0 → (banked live (.stopping 0) none (some 0)).banks[b].phase = .stopped := by
  refine ⟨rfl, by decide +kernel, by decide +kernel, requestsOk_of ?_ ?_ ?_ ?_ ?_ ?_ ?_ ?_, by decide, rfl,
    rfl, memoryOk_nil rfl, by decide +kernel⟩ <;> decide +kernel

/-- A point's record with one order and a balance record with none, of a set that received no window. -/
theorem test_witness_IntervalRecordForm :
    ((totalled (State.zeroSet true)).recordHead 0 0 true true).bytes ((totalled (State.zeroSet true)).totals 0) =
      leBytes 4 136 ++ leBytes 2 1 ++ leBytes 2 1 ++ leBytes 4 0 ++ leBytes 4 0 ++ List.replicate 8 255 ++
        List.replicate 20 0 ++ leBytes 4 24 ++ List.replicate 8 0 ++ leBytes 8 1 ++ List.replicate 48 0 ++
        leBytes 2 3 ++ List.replicate 6 0 ++ leBytes 8 7 ++ leBytes 8 0 ∧
    (State.zeroSet true).balance ≠ none ∧ (State.zeroSet true).start = none ∧
    (((State.zeroSet true).recordHead 0 5 false false).bytes ((State.zeroSet true).totals 5)).take 12 =
      leBytes 4 112 ++ leBytes 2 2 ++ leBytes 2 0 ++ leBytes 2 40 ++ leBytes 2 0 := by decide +kernel

theorem banksOk_turning : turning.BanksOk := by
  refine fun b => bankOk_of ?_ ?_ ?_ ?_ ?_
  all_goals revert b
  · intro b; fin_cases b <;> first | exact trivial | rfl
  · decide +kernel
  · decide +kernel
  · intro b f h; fin_cases b <;> cases h
    exact ⟨rfl, by decide⟩
  · decide +kernel

theorem test_witness_AccountingEventsFrame : turning.MemoryOk ∧ turning.RegistersOk ∧ turning.BanksOk ∧
    (paged live 112).PagesOk ∧ bankOfSet 40 = 0 ∧ (1 : BankId) ≠ 0 ∧
    (∃ t, exec .calculation turning = .next t) ∧ (∃ t, exec (.windowAddition 0) turning = .next t) ∧
    (∃ t, exec .tariffEvent turning = .next t) ∧ (∃ t, exec (.pointStep 0) turning = .next t) ∧
    ∃ t, exec (.foldCompletion 0) turning = .next t :=
  ⟨memoryOk_nil rfl, registersOk_of rfl, banksOk_turning, pagesOk_paged.1, rfl, by decide,
    exec_next (fun _ => rfl) _, exec_next (fun _ => rfl) _,
    exec_next (fun _ => rfl) _, exec_next (fun _ => rfl) _, exec_next (fun _ => rfl) _⟩

/-- A record of 112 bytes that leaves room for one more, that just fills the page, and that does not fit; a page taken with no
page FILLING and after one that has no room. -/
theorem test_witness_RecordIsPlacedOrLost : (paged live 3808).MemoryOk ∧ 112 ≤ (List.replicate 112 (1 : Byte)).length ∧
    (paged live 3808).writer.filling = some ⟨0, 3808, 1, 51, 51⟩ ∧ 3808 + 112 ≤ 3920 ∧ 3809 + 112 > 3920 ∧
    3920 + 112 ≤ 4032 ∧ (4032 < 3921 + 112) ∧
    ({ paged live 3921 with writer := { (paged live 3921).writer with freeQueue := [] } } : State).writer.freeQueue = [] ∧
    live.PagesOk ∧ live.writer.filling = none ∧ live.writer.freeQueue.head? = some 0 ∧
    (paged live 3920).PagesOk ∧ (paged live 3920).writer.freeQueue.head? = some 2 ∧ 4032 < 3920 + 113 ∧
    ((paged live 3920).writeRecord 0 60 (List.replicate 113 1)).writer.filling = some ⟨2, 113, 1, 60, 60⟩ :=
  ⟨memoryOk_nil rfl, by simp, rfl, by omega, by omega, by omega, by omega, rfl, pagesOk_live, rfl, by decide +kernel,
    pagesOk_paged.2, by decide +kernel, by omega, by decide +kernel⟩

/-! ### Witnesses: memory errors of the two tables -/

/-- These words of bank 0's set 0 are in error. -/
def accMarked (s : State) (marks : List (AccItem × EccMark)) : State :=
  { s with ecc := { s.ecc with accounting := marks.map fun m => (⟨0, 0, m.1⟩, m.2) } }

/-- These words of register set 0 are in error. -/
def regMarked (s : State) (marks : List (RegItem × EccMark)) : State :=
  { s with ecc := { s.ecc with registers := marks.map fun m => (⟨0, m.1⟩, m.2) } }

/-- Bank 0 is OPEN, with an accumulator lost and the span's word in a single-bit error. -/
def damagedOpen : State := accMarked (banked live (.opened 0) none none) [(.acc 0 103, .uncorrectable), (.span, .single)]

/-- The reads of one word with neither error, either one, and an empty or frozen record; a READ_OPEN of a lost word; a balance
step whose total is lost. -/
theorem test_witness_AccountingTableErrors :
    damagedOpen.ecc.accounting.lookup ⟨0, 0, .interval⟩ = none ∧
    damagedOpen.ecc.accounting.lookup ⟨0, 0, .span⟩ = some .single ∧
    damagedOpen.ecc.accounting.lookup ⟨0, 0, .acc 0 103⟩ = some .uncorrectable ∧ damagedOpen.capture = none ∧
    (captured damagedOpen).capture ≠ none ∧ (posted damagedOpen [5, 7, 0, 65536 * 103, 1]).MemoryOk ∧
    (posted damagedOpen [5, 7, 0, 65536 * 103, 1]).Head 3 [] .readOpen ∧
    (posted damagedOpen [5, 7, 0, 65536 * 103, 1]).param 3 0x12 2 = 103 ∧
    (posted damagedOpen [5, 7, 0, 65536 * 103, 1]).param 3 0x14 2 = 1 ∧
    (posted damagedOpen [5, 7, 0, 65536 * 103, 1]).optionWord 3 = 0 ∧
    damagedOpen.banks[(0 : BankId)].phase.accumulating = some 0 ∧
    (let s := accMarked turning [(.acc 5 9, .uncorrectable)]
     s.nextStep 0 = some (fold0, 5) ∧ s.ecc.registers = [] ∧
      s.ecc.accounting = [(⟨0, fold0.set, .acc 5 9⟩, .uncorrectable)]) ∧
    (State.zeroSet true).EntryLost
      { State.zeroSet true with
        balance := (State.zeroSet true).balance.map fun z => { z with acc := z.acc.set 9 0, damaged := true } }
      5 (fun z => { z with acc := z.acc.set 9 0 }) (fun z => { z with acc := z.acc.set 9 0 }) := by
  unfold AccSet.EntryLost
  refine ⟨rfl, rfl, rfl, rfl, by decide, posted_memoryOk rfl _ (by decide), ?_⟩
  and_intros <;> first | exact head_of_test (by decide +kernel) | decide +kernel

/-- The reads of one word likewise, also of the pending REBASE; a READ_REGISTERS with a lost scale and a lost quantity; a step
whose pending REBASE is lost. -/
theorem test_witness_RegisterStoreErrors :
    (let s := regMarked live [(.scale, .uncorrectable), (.register 103, .uncorrectable), (.lastFolded, .single)]
     s.ecc.registers.lookup ⟨0, .staged⟩ = none ∧ s.ecc.registers.lookup ⟨0, .lastFolded⟩ = some .single ∧
      s.ecc.registers.lookup ⟨0, .scale⟩ = some .uncorrectable ∧ s.capture = none ∧ (captured s).capture ≠ none ∧
      (posted s [6, 7, 0, 65536 * 103, 1]).MemoryOk ∧ (posted s [6, 7, 0, 65536 * 103, 1]).Head 3 [] .readRegisters ∧
      (posted s [6, 7, 0, 65536 * 103, 1]).param 3 0x12 2 = 103 ∧ (posted s [6, 7, 0, 65536 * 103, 1]).param 3 0x14 2 = 1 ∧
      (posted s [6, 7, 0, 65536 * 103, 1]).optionWord 3 = 0) ∧
    (let s := regMarked turningDue [(.rebase, .uncorrectable)]
     s.ecc.registers = [(⟨0, .rebase⟩, .uncorrectable)] ∧ s.ecc.accounting = [] ∧ s.MemoryOk ∧
      s.nextStep 0 = some (fold0, 0) ∧ entryPoint 0 0 = 0 ∧ s.regs[(0 : SetId)].rebase = dueSet.rebase ∧
      dueSet.rebase ≠ none) := by
  refine ⟨⟨rfl, rfl, rfl, rfl, by decide, posted_memoryOk rfl _ (by decide), ?_⟩, rfl, rfl, memoryOk_nil rfl, ?_⟩
  all_goals and_intros <;> first | exact head_of_test (by decide +kernel) | decide +kernel

/-! ### Witnesses: the host port -/

/-- Page 6 FILLED. -/
def filled (s : State) : State := { s with writer := { s.writer with pages := s.writer.pages.set 0 .filled } }

/-- The first and the last ordinary words of a slot, the header page and a record page, host-owned and not. -/
theorem test_witness_HostWriteToOrdinaryWord : live.control.ready = true ∧ live.MemoryOk ∧
    guardedAt 0 = none ∧ guardedAt 63 = none ∧ guardedAt 122 = none ∧ guardedAt 1023 = none ∧ guardedAt 1025 = none ∧
    guardedAt 1151 = none ∧ guardedAt 5121 = none ∧ guardedAt 6143 = none ∧ guardedAt 6144 = none ∧
    guardedAt 65535 = none ∧
    live.hostOwns (areaAt 1025) = true ∧ live.hostOwns (areaAt 1151) = true ∧ (posted live []).hostOwns (areaAt 1409) = false ∧
    live.hostOwns (areaAt 63) = false ∧ live.hostOwns (areaAt 5121) = false ∧ live.hostOwns (areaAt 6144) = false ∧
    (filled live).hostOwns (areaAt 6144) = true ∧ live.notices.owner = false ∧ (full live).exceptions.top = 0 ∧
    168 ≤ 8 * ((1409 : BitVec 16).toNat / 8) ∧ (∀ j : Fin 8, live.ecc.exchange.lookup (152 + j.val) = none) ∧
    (after (posted live [1, 7]) (.hostWrite 1409 5 15)).exceptions.records[(63 : Fin 64)].copy[1] = 1 ∧
    (after live (.hostWrite 158 5 15)).exceptions.records[(63 : Fin 64)].copy[6] = 1 := by
  refine ⟨rfl, memoryOk_nil rfl, ?_⟩
  decide +kernel

/-- The first and last guarded word of each kind; the four legal changes; a value and a state that make a violation. -/
theorem test_witness_HostWriteToGuardedWord :
    guardedAt 64 = some (.page 0) ∧ guardedAt 121 = some (.page 57) ∧ guardedAt 1024 = some (.slot 0) ∧
    guardedAt 4992 = some (.slot 31) ∧ guardedAt 5120 = some (.record 0) ∧ guardedAt 6128 = some (.record 63) ∧
    live.heldCode (.slot 0) = 0 ∧ live.requests.slots[(0 : SlotId)] = .free ∧
    ({ live with requests := { live.requests with slots := live.requests.slots.set 0 .done } } : State).requests.slots[
      (0 : SlotId)] = .done ∧
    (filled live).writer.pages[(0 : PageId)] = .filled ∧ (stacked live).exceptions.records[(63 : Fin 64)].tag = .new ∧
    (2 ≠ live.heldCode (.slot 0) ∧
      ¬(∃ k, Guarded.slot 0 = .slot k ∧ (live.requests.slots[k] = .free ∧ (2 : Word) = 1 ∨
        (live.requests.slots[k] = .done ∨ live.requests.slots[k] = .refused) ∧ (2 : Word) = 0)) ∧
      ¬(∃ p, Guarded.slot 0 = .page p ∧ live.writer.pages[p] = .filled ∧ (2 : Word) = 3) ∧
      ¬∃ i, Guarded.slot 0 = .record i ∧ live.exceptions.records[i].tag = .new ∧ (2 : Word) = 2) ∧
    live.exceptions.top = 64 ∧ (full live).exceptions.top = 0 ∧
    (after (posted live [1, 7]) (.hostWrite 1408 0 15)).exceptions.records[(63 : Fin 64)].copy.toList =
      [1, 1, 7, 0, 0, 0, 0, 0] := by
  decide +kernel

theorem test_witness_HostReadReturnsWordAndImages : live.control.ready = true ∧ live.ecc.exchange.lookup 1025 = none ∧
    (marked live 1025 .single).ecc.exchange.lookup 1025 = some .single ∧
    (marked live 1025 (.uncorrectable 7)).ecc.exchange.lookup 1025 = some (.uncorrectable 7) ∧ live.capture = none ∧
    (captured live).capture ≠ none ∧
    (marked (captured live) 1025 (.uncorrectable 7)).ecc.exchange.lookup 1025 = some (.uncorrectable 7) ∧
    (after (marked (captured live) 1025 (.uncorrectable 7)) (.hostRead false 1025)).capture = (captured live).capture ∧
    (paged live 112).writer.filling ≠ none ∧ live.writer.filling = none ∧
    (banked live (.opened 0) (some ⟨Causes.onlyTariff, []⟩) none).word 18 = 5000 ∧
    (banked live (.opened 0) (some ⟨Causes.onlyTariff, []⟩) none).word 19 ≠ 0 ∧ live.word 18 = 0 ∧ live.word 19 = 0 := by
  decide +kernel

theorem test_witness_ReturnTakeAndQuotaExpiry : (paged live 112).writer.returns = [1] ∧ live.writer.returns = [] ∧
    live.requests.quotaTimer ≠ none ∧ State.reset.requests.quotaTimer = none := by decide +kernel

theorem test_witness_PushIsStoredOrCounted : live.exceptions.top = (63 : Fin 64).val + 1 ∧ (full live).exceptions.top = 0 ∧
    (stacked live).exceptions.top = (62 : Fin 64).val + 1 := by decide +kernel

/-! ### Witnesses: the takes -/

/-- An unknown kind, and an uncorrectable word; SET_BANK of bank 7 and of 8, options 7 and 8. -/
theorem test_witness_BadKindAndSetBank : (posted live [11, 7]).MemoryOk ∧ (posted live [2, 7, 7, 7]).MemoryOk ∧
    (posted live [11, 7]).Head 3 [] .badKind ∧
    (marked (posted live [2, 7]) 1409 (.uncorrectable 2)).Head 3 [] .badKind ∧
    (marked (posted live [2, 7]) 1409 (.uncorrectable 2)).requestBad 3 = true ∧
    (posted live [2, 7, 7, 7]).Head 3 [] .setBank ∧ (posted live [2, 7, 7, 7]).param 3 0x10 4 = 7 ∧
    (posted live [2, 7, 7, 7]).optionWord 3 = 7 ∧ (posted live [2, 7, 0, 8]).Head 3 [] .setBank ∧
    (posted live [2, 7, 0, 8]).param 3 0x10 4 = 8 ∧ (posted live [2, 7, 8, 0]).optionWord 3 = 8 := by
  refine ⟨posted_memoryOk rfl _ (by decide), posted_memoryOk rfl _ (by decide), ?_⟩
  and_intros <;> first | exact head_of_test (by decide +kernel) | decide +kernel

/-- The words of a SET_POINT: a point with enable and role, a mapping with INVERT and scale, all orders. -/
def pointWords (p enable role link port scale : Nat) : List Word :=
  [1, 7, 0, BitVec.ofNat 32 (p + 65536 * enable + 16777216 * role), BitVec.ofNat 32 (link + 256 * port + 16777216 * scale),
    0xFFFFFFFF, 0x1FFFF]

/-- The last point and the first number past it; each range at its ends and just outside; CONFLICT, ROLE, SCALE. -/
theorem test_witness_SetPointWritesProfile :
    (posted live (pointWords 39 1 2 5 7 3)).MemoryOk ∧ (posted live (pointWords 39 1 2 5 7 3)).ecc.registers = [] ∧
    (posted live (pointWords 39 1 2 5 7 3)).Head 3 [] .setPoint ∧
    (posted live (pointWords 39 1 2 5 7 3)).param 3 0x10 2 = 39 ∧
    ((posted live (pointWords 39 1 2 5 7 3)).pointRequest 3).isSome = true ∧
    (posted live (pointWords 40 1 2 5 7 3)).Head 3 [] .setPoint ∧ (posted live (pointWords 40 1 2 5 7 3)).param 3 0x10 2 = 40 ∧
    (posted live (pointWords 39 2 2 5 7 3)).Head 3 [] .setPoint ∧
    (∀ w ∈ [pointWords 39 0 1 255 255 0, pointWords 39 1 3 0 0 3], ((posted live w).pointRequest 3).isSome = true) ∧
    (∀ w ∈ [pointWords 39 2 2 5 7 3, pointWords 39 1 0 5 7 3, pointWords 39 1 4 5 7 3, pointWords 39 1 2 6 7 3,
      pointWords 39 1 2 5 8 3, pointWords 39 1 2 5 7 4], (posted live w).pointRequest 3 = none) ∧
    (pointed live).mappingHolder 39 (some (0, 2)) = some 0 ∧ State.resetProfile.refusesRole 39 .pcc = true ∧
    State.resetRegisterSet.refusesScale 3 = false ∧
    ((posted live (pointWords 39 1 2 5 7 3)).pointRequest 3).map (fun r => (r.mask, r.invert)) =
      some (State.resetProfile.mask, State.resetProfile.invert) ∧
    ((posted live [1, 7, 0, 39 + 65536 * 1 + 16777216 * 2, 65536, 1, 0]).pointRequest 3).map (fun r => (r.mask, r.invert)) =
      some (1, true) := by
  refine ⟨posted_memoryOk rfl _ (by decide), ?_⟩
  and_intros <;> first | exact head_of_test (by decide +kernel) | decide +kernel

/-- SET_TIMING words with an action. -/
def timingWords (mode action : Word) : List Word := [3, 7, 0, mode, 4500, 4050, 300, 4, action]

/-- A bank that STARTs on the other set than the one it folded last. -/
def restarting : State := posted (pointed (banked live .stopped none (some 0))) (timingWords 1 1)

/-- Actions NONE, undefined, START; each range at its ends and just outside; a part with no STOPPED bank; both START sets; a
window calculated before START. -/
theorem test_witness_SetTimingAndStart : (posted live (timingWords 1 0)).MemoryOk ∧
    (posted live (timingWords 1 0)).Head 3 [] .setTiming ∧ ((posted live (timingWords 1 0)).timingRequest 3).isSome = true ∧
    (posted live (timingWords 1 3)).Head 3 [] .setTiming ∧ (posted live (timingWords 1 3)).timingRequest 3 = none ∧
    (posted live (timingWords 1 1)).Head 3 [] .start ∧ (posted live (timingWords 2 1)).Head 3 [] .start ∧
    (∀ w ∈ [[3, 7, 0, 0, 300, 1, 50, 1, 0], [3, 7, 0, 1, 18000, 18000, 1000, 32, 2]],
      ((posted live w).timingRequest 3).isSome = true) ∧
    (∀ w ∈ [timingWords 2 1, [3, 7, 0, 0, 299, 1, 50, 1, 0], [3, 7, 0, 0, 300, 0, 50, 1, 0], [3, 7, 0, 0, 300, 301, 50, 1, 0],
        [3, 7, 0, 0, 300, 1, 49, 1, 0], [3, 7, 0, 0, 300, 1, 1001, 1, 0], [3, 7, 0, 0, 300, 1, 50, 0, 0],
        [3, 7, 0, 0, 300, 1, 50, 33, 0], [3, 7, 1, 0, 300, 1, 50, 1, 0]], (posted live w).timingRequest 3 = none) ∧
    restarting.Head 3 [] .start ∧ restarting.banks[(0 : BankId)].phase = .stopped ∧
    restarting.banks[(0 : BankId)].startSet = 1 ∧ restarting.banks[(1 : BankId)].startSet = 0 ∧
    restarting.openMarks 0 0 = (true, BitVec.allOnes 49, false) ∧
    (∀ b : BankId, ({ live with banks := live.banks.map fun x => { x with phase := .opened 0 } } : State).banks[b].phase ≠
      .stopped) ∧
    (posted (busy live false (some result900)) (timingWords 1 1)).Head 3 [] .start ∧
    (posted (busy live false (some result900)) (timingWords 1 1)).accounting = some (busyWith false (some result900)) := by
  refine ⟨posted_memoryOk rfl _ (by decide), ?_⟩
  and_intros <;> first | exact head_of_test (by decide +kernel) | decide +kernel

/-- STOP; CLOSE of bank 7, of 8, of 254, of ALL with a bank that starts and with one that waits, with an option. -/
theorem test_witness_StopAndCloseDefer : (posted (banked live (.opened 0) none none) (timingWords 1 2)).MemoryOk ∧
    (posted (banked live (.opened 0) none none) (timingWords 1 2)).Head 3 [] .stop ∧
    (posted live [4, 7, 0, 7]).Head 3 [] .close ∧ (posted live [4, 7, 0, 7]).param 3 0x10 4 = 7 ∧
    (posted live [4, 7, 0, 8]).Head 3 [] .close ∧ (posted live [4, 7, 0, 254]).param 3 0x10 4 = 254 ∧
    (posted live [4, 7, 0, 255]).Head 3 [] .close ∧ (posted live [4, 7, 0, 255]).param 3 0x10 4 = 255 ∧
    (posted live [4, 7, 1, 0]).Head 3 [] .close ∧ (posted live [4, 7, 1, 0]).optionWord 3 = 1 ∧
    (posted (banked live (.opened 0) none none) [4, 7, 0, 255]).Head 3 [] .close ∧
    (banked live (.opened 0) none none).banks[(0 : BankId)].takesClose = true ∧
    ((banked live (.opened 0) none none).banks[(0 : BankId)].ask Causes.onlyHost [(3, .host)]).mayStart = true ∧
    ((banked live (.turning 1) none none).banks[(0 : BankId)].ask Causes.onlyHost [(3, .host)]).mayStart = false := by
  refine ⟨posted_memoryOk rfl _ (by decide), ?_⟩
  and_intros <;> first | exact head_of_test (by decide +kernel) | decide +kernel

/-- READ_OPEN of sets 40 and 41, counts 40 and 41, the last quantity; READ_REGISTERS with and without NET of set 40, counts 20
and 21, the last item. -/
theorem test_witness_ReadsReturnValues : (posted live [5, 7, 1, 40 + 65536 * 64, 40]).MemoryOk ∧
    (posted live [6, 7, 0, 40 + 65536 * 84, 20]).MemoryOk ∧ live.ecc.accounting = [] ∧ live.ecc.registers = [] ∧
    (posted live [5, 7, 1, 40 + 65536 * 64, 40]).Head 3 [] .readOpen ∧
    (posted live [5, 7, 1, 40 + 65536 * 64, 40]).param 3 0x10 2 = 40 ∧
    (posted live [5, 7, 1, 40 + 65536 * 64, 40]).param 3 0x12 2 = 64 ∧
    (posted live [5, 7, 1, 40 + 65536 * 64, 40]).param 3 0x14 2 = 40 ∧
    (posted live [5, 7, 0, 41, 1]).Head 3 [] .readOpen ∧ (posted live [5, 7, 0, 41, 1]).param 3 0x10 2 = 41 ∧
    (posted live [5, 7, 0, 0, 41]).Head 3 [] .readOpen ∧ (posted live [5, 7, 0, 0, 41]).param 3 0x14 2 = 41 ∧
    (posted live [6, 7, 0, 40 + 65536 * 84, 20]).Head 3 [] .readRegisters ∧
    (posted live [6, 7, 1, 40 + 65536 * 31, 20]).Head 3 [] .readRegistersNet ∧
    (posted live [6, 7, 1, 40 + 65536 * 31, 20]).param 3 0x12 2 = 31 ∧
    (posted live [6, 7, 0, 41, 1]).Head 3 [] .readRegisters ∧ (posted live [6, 7, 1, 0, 21]).Head 3 [] .readRegistersNet ∧
    (posted live [6, 7, 1, 0, 21]).param 3 0x14 2 = 21 ∧ (posted live [6, 7, 3, 0, 1]).Head 3 [] .readRegistersNet ∧
    (posted live [6, 7, 3, 0, 1]).optionWord 3 = 3 := by
  refine ⟨posted_memoryOk rfl _ (by decide), posted_memoryOk rfl _ (by decide), rfl, rfl, ?_⟩
  and_intros <;> first | exact head_of_test (by decide +kernel) | decide +kernel

/-- Items 0, 1, 2 and 50 with their registers, VALID and not. -/
theorem test_witness_NetItemLaw :
    (∃ j : Fin 49, 2 = j.val + 2 ∧ ([6] : List QuantityId) = [⟨6 + 2 * j.val, by omega⟩] ∧
      ([7] : List QuantityId) = [⟨7 + 2 * j.val, by omega⟩]) ∧
    (∃ j : Fin 49, 50 = j.val + 2 ∧ ([102] : List QuantityId) = [⟨6 + 2 * j.val, by omega⟩] ∧
      ([103] : List QuantityId) = [⟨7 + 2 * j.val, by omega⟩]) ∧
    (∀ q ∈ ([2, 3, 4, 5] : List QuantityId), State.resetRegisterSet.quantities[q].valid = true) ∧
    lostQuantity.valid = false :=
  ⟨⟨0, rfl, rfl, rfl⟩, ⟨48, rfl, rfl, rfl⟩, by decide +kernel, rfl⟩

/-- A value of 16 digits for quantity 103, counts 1 and 12; counts 0 and 13, a range past 104, an option, a digit out of range in
either half of its byte; set 41. -/
theorem test_witness_RebaseIsHeld : (posted live [7, 7, 0, 40 + 65536 * 103, 1, 0x99999999, 0x99999999]).MemoryOk ∧
    (posted live [7, 7, 0, 40 + 65536 * 103, 1, 0x99999999, 0x99999999]).ecc.registers = [] ∧
    (posted live [7, 7, 0, 40 + 65536 * 103, 1, 0x99999999, 0x99999999]).Head 3 [] .rebase ∧
    (posted live [7, 7, 0, 40 + 65536 * 103, 1, 0x99999999, 0x99999999]).rebaseValues 3 = some [9999999999999999] ∧
    (posted live [7, 7, 0, 0, 1, 0xA, 0]).Head 3 [] .rebase ∧
    ((posted live [7, 7, 0, 65536 * 92, 12]).rebaseValues 3).isSome = true ∧
    (∀ w ∈ [[7, 7, 0, 0, 0], [7, 7, 0, 0, 13], [7, 7, 0, 65536 * 93, 12], [7, 7, 1, 0, 1], [7, 7, 0, 0, 1, 0xA, 0],
        [7, 7, 0, 0, 1, 0, 0xA0000000]], (posted live w).rebaseValues 3 = none) ∧
    (posted live [7, 7, 0, 41, 1, 0, 0]).Head 3 [] .rebase ∧ (posted live [7, 7, 0, 41, 1, 0, 0]).param 3 0x10 2 = 41 := by
  refine ⟨posted_memoryOk rfl _ (by decide), ?_⟩
  and_intros <;> first | exact head_of_test (by decide +kernel) | decide +kernel

/-- A CANCEL of slot 9, whose CLOSE of bank 0 waits in this held close. -/
def withdrawing (h : HeldClose) : State :=
  let s := posted (banked live (.opened 0) (some h) none) [8, 7, 0, 9]
  { s with requests := { s.requests with
      slots := s.requests.slots.set 9 .taken, table := [⟨9, .banks .closeOne [(0, .waiting)] []⟩] } }

theorem requestsOk_withdrawing (h : HeldClose) : (withdrawing h).RequestsOk := by
  have slots : (withdrawing h).requests = (withdrawing heldHost).requests := rfl
  have regs : (withdrawing h).regs = State.reset.regs := rfl
  refine requestsOk_of ?_ ?_ ?_ ?_ ?_ ?_ ?_ ?_ <;> first | rw [slots] | rw [regs]
  all_goals decide +kernel

/-- Slot 31, slot 32, and a target that is the only waiter, and one beside another waiter and another cause. -/
theorem test_witness_CancelWithdrawsTarget :
    (withdrawing heldHost).MemoryOk ∧ (withdrawing heldHost).RequestsOk ∧ (withdrawing heldHost).Head 3 [] .cancel ∧
    (after (withdrawing ⟨Causes.onlyHost, [(9, .host)]⟩) .cancel).banks[(0 : BankId)].held = none ∧
    (after (withdrawing ⟨{ Causes.onlyHost with tariff := true }, [(9, .host), (4, .host)]⟩) .cancel).banks[(0 : BankId)].held =
      some ⟨{ Causes.onlyHost with tariff := true }, [(4, .host)]⟩ ∧
    (after (withdrawing ⟨{ Causes.onlyHost with tariff := true }, [(9, .host)]⟩) .cancel).banks[(0 : BankId)].held =
      some ⟨Causes.onlyTariff, []⟩ ∧
    (posted live [8, 7, 0, 31]).MemoryOk ∧ (posted live [8, 7, 0, 31]).RequestsOk ∧
    (posted live [8, 7, 0, 31]).Head 3 [] .cancel ∧ (posted live [8, 7, 0, 31]).param 3 0x10 4 = 31 ∧
    (posted live [8, 7, 0, 32]).Head 3 [] .cancel ∧ (posted live [8, 7, 0, 32]).param 3 0x10 4 = 32 ∧
    (Work.banks .closeOne [(0, .waiting)] []).cancellable = true ∧
    (Work.banks .closeOne [(0, .folding 52)] []).cancellable = false := by
  refine ⟨posted_memoryOk (s := banked live (.opened 0) (some heldHost) none) rfl [8, 7, 0, 9] (by decide),
    requestsOk_withdrawing _, head_of_test (by decide +kernel), by decide +kernel, by decide +kernel, by decide +kernel,
    posted_memoryOk rfl _ (by decide), requestsOk_posted [8, 7, 0, 31], ?_⟩
  and_intros <;> first | exact head_of_test (by decide +kernel) | decide +kernel

/-- LINK_CONTROL: each action on link 5; link 6; an undefined action, which comes under every row. READ_CAPTURE: with and
without CLEAR, an undefined option. -/
theorem test_witness_LinkControlAndReadCapture : (posted live [9, 7, 0, 5, 1]).MemoryOk ∧
    (posted (captured live) [10, 7, 0]).MemoryOk ∧
    (posted live [9, 7, 0, 5, 1]).Head 3 [] (.link .enable) ∧ (posted live [9, 7, 0, 5, 2]).Head 3 [] (.link .disable) ∧
    (posted live [9, 7, 0, 5, 3]).Head 3 [] (.link .reset) ∧ (posted live [9, 7, 0, 5, 4]).Head 3 [] (.link .clear) ∧
    (posted live [9, 7, 0, 5, 4]).param 3 0x10 4 = 5 ∧ (posted live [9, 7, 0, 6, 1]).Head 3 [] (.link .enable) ∧
    (posted live [9, 7, 0, 6, 1]).param 3 0x10 4 = 6 ∧ (posted live [9, 7, 0, 0, 5]).Head 3 [] (.link .clear) ∧
    LinkAction.ofCode ((posted live [9, 7, 0, 0, 5]).param 3 0x14 4) = none ∧
    (posted (linked live .hunt 0 []) [9, 7, 0, 0, 3]).Head 3 [] (.link .reset) ∧
    (linked live .hunt 0 []).links[(0 : LinkId)].state = .hunt ∧ (linked live .sync 2 []).links[(0 : LinkId)].state = .sync ∧
    (posted (captured live) [10, 7, 0]).Head 3 [] .readCapture ∧
    (posted (captured live) [10, 7, 1]).Head 3 [] .readCaptureClear ∧ (posted live [10, 7, 2]).Head 3 [] .readCapture ∧
    (posted live [10, 7, 2]).optionWord 3 = 2 := by
  refine ⟨posted_memoryOk rfl _ (by decide), posted_memoryOk rfl _ (by decide), ?_⟩
  and_intros <;> first | exact head_of_test (by decide +kernel) | decide +kernel

theorem test_witness_RequestTakesFrame : (posted live [2, 7, 7, 7]).MemoryOk ∧ (posted live [2, 7, 7, 7]).RequestsOk ∧
    (posted live [2, 7, 7, 7]).requests.intake = [3] ∧ ∃ t, exec .setBank (posted live [2, 7, 7, 7]) = .next t :=
  ⟨posted_memoryOk rfl _ (by decide), requestsOk_posted [2, 7, 7, 7], rfl, exec_next (fun _ => rfl) _⟩

/-! ### Witnesses: control and warm reset -/

/-- The four registers; LWNOTE with no cause enabled, with two, and before READY. -/
theorem test_witness_RegisterPortAndNotices : live.control.ready = true ∧ (0 : BitVec 16).toNat % 4 = 0 ∧
    (1 : BitVec 16).toNat % 4 = 1 ∧ (2 : BitVec 16).toNat % 4 = 2 ∧ (65535 : BitVec 16).toNat % 4 = 3 ∧
    (∀ c : Fin 6, (live.notices.latched.getLsbD c.val && live.notices.mask.getLsbD c.val) = false) ∧
    (let s : State := { live with notices := { latched := 0x26, mask := 0x24, owner := false } }
     s.control.ready = true ∧ (s.notices.latched.getLsbD 2 && s.notices.mask.getLsbD 2) = true ∧
       ∀ d : Fin 6, d < 2 → (s.notices.latched.getLsbD d.val && s.notices.mask.getLsbD d.val) = false) ∧
    State.reset.control.ready = false := by decide +kernel

/-- Slot 3 is POSTED and slot 9 TAKEN when a warm reset completes. -/
def warmRefusing : State := { withdrawing heldHost with control := ⟨true, true, true⟩ }

/-- Bank 0 keeps a TARIFF close that may start, one that may not; a HOST close goes; a POSTED and a TAKEN slot are refused. -/
theorem test_witness_WarmResetCompletes : warmRefusing.quiet = true ∧ warmRefusing.RequestsOk ∧ warmRefusing.MemoryOk ∧
    warmRefusing.requests.slots[(3 : SlotId)] = .posted ∧ warmRefusing.serial 3 = 7 ∧
    ⟨9, .banks .closeOne [(0, .waiting)] []⟩ ∈ warmRefusing.requests.table ∧
    (after warmRefusing .warmResetCompletion).mem.bytes (slotByte 9 + 0x88) 8 = leBytes 4 0 ++ leBytes 4 11 ∧
    (([(5, 7), (1, 8)] : List (BankId × Word)).map Prod.fst).Nodup ∧
    liveWarm.control.warm = true ∧ liveWarm.quiet = true ∧ liveWarm.RequestsOk ∧
    live.control.warm = false ∧ ({ turning with control := ⟨true, true, true⟩ } : State).quiet = false ∧
    (let s := banked liveWarm (.opened 0) (some ⟨Causes.onlyTariff, []⟩) none
     s.quiet = true ∧ s.requests = live.requests ∧ s.banks[(0 : BankId)].mayStart = true) ∧
    (let s := banked liveWarm (.opened 0) (some ⟨Causes.onlyTariff, []⟩) none
     (adjusted s (fun x => { x with span := 3100 }) ⟨true, 4500, 4050⟩).banks[(0 : BankId)].mayStart = false) ∧
    heldHost.causes.tariff = false ∧ heldHost.causes.count = false ∧ heldHost.causes.overlong = false := by
  refine ⟨by decide +kernel, requestsOk_withdrawing heldHost,
    posted_memoryOk (s := banked live (.opened 0) (some heldHost) none) rfl [8, 7, 0, 9] (by decide), by decide +kernel,
    by decide +kernel, by decide +kernel, by decide +kernel, by decide, rfl, by decide +kernel,
    requestsOk_of ?_ ?_ ?_ ?_ ?_ ?_ ?_ ?_, rfl, by decide +kernel⟩ <;> decide +kernel

end Sys2Proof.Tests
end

