-- ==== Sys2Proof/Proofs/WindowEnergy.lean ====
section
/-! SUPPORT. The window calculator's assignment of energies to quantities (spec 03, R45 to R48). -/

namespace Sys2Proof.Machine

/-! ### The quantities of an assignment -/

section Assignment

variable (sp sq : Int) (sh : Nat → Option Int) (d : Nat)

/-- The reactive quantity of the quadrant that the signs of an active and a reactive sum give (R47). -/
def reactiveQuantity : Nat :=
  if 0 ≤ sp then (if 0 ≤ sq then 2 else 5) else (if 0 ≤ sq then 3 else 4)

theorem assignEnergies_activeImport :
    (assignEnergies sp sq sh d)[0] = if 0 ≤ sp then energyOf (sp * d) else 0 := by
  simp [assignEnergies]

theorem assignEnergies_activeExport :
    (assignEnergies sp sq sh d)[1] = if sp < 0 then energyOf (sp * d) else 0 := by
  simp [assignEnergies]

/-- Each quadrant of R47's table, by the signs of the two sums. -/
theorem eq_reactiveQuantity_iff :
    (2 = reactiveQuantity sp sq ↔ 0 ≤ sp ∧ 0 ≤ sq) ∧ (3 = reactiveQuantity sp sq ↔ sp < 0 ∧ 0 ≤ sq) ∧
    (4 = reactiveQuantity sp sq ↔ sp < 0 ∧ sq < 0) ∧ (5 = reactiveQuantity sp sq ↔ 0 ≤ sp ∧ sq < 0) := by
  unfold reactiveQuantity
  split_ifs <;> omega

theorem assignEnergies_reactive (q : Fin 104) (hlow : 2 ≤ q.val) (hhigh : q.val ≤ 5) :
    (assignEnergies sp sq sh d)[q] = if q.val = reactiveQuantity sp sq then energyOf (sq * d) else 0 := by
  obtain ⟨n, hn⟩ := q
  have hquadrant : n = 2 ∨ n = 3 ∨ n = 4 ∨ n = 5 := by simp only at hlow hhigh; omega
  obtain ⟨htwo, hthree, hfour, hfive⟩ := eq_reactiveQuantity_iff sp sq
  rcases hquadrant with rfl | rfl | rfl | rfl
  · simp [assignEnergies, htwo]
  · simp [assignEnergies, hthree]
  · simp [assignEnergies, hfour]
  · simp [assignEnergies, hfive]

/-- From quantity 6 on, two quantities to an order: the even one for a sum that is zero or positive, the odd one for a
negative sum. -/
theorem assignEnergies_of_six_le (n : Nat) (hlow : 6 ≤ n) (hhigh : n < 104) :
    (assignEnergies sp sq sh d)[n] = (sh (n / 2 - 1)).elim 0 fun x =>
      if n % 2 = 0 then (if 0 ≤ x then energyOf (x * d) else 0) else (if x < 0 then energyOf (x * d) else 0) := by
  obtain ⟨k, rfl⟩ := Nat.exists_eq_add_of_le' hlow
  rw [assignEnergies, getElem_tabulate]
  cases hx : sh ((k + 6) / 2 - 1) with
  | none => simp [hx]
  | some x => simp [hx]

variable (h : Nat) (horder : 2 ≤ h ∧ h ≤ 50)

theorem assignEnergies_absorbed :
    (assignEnergies sp sq sh d)[6 + 2 * (h - 2)] = (sh h).elim 0 fun x => if 0 ≤ x then energyOf (x * d) else 0 := by
  have horderOf : (6 + 2 * (h - 2)) / 2 - 1 = h := by omega
  have heven : (6 + 2 * (h - 2)) % 2 = 0 := by omega
  rw [assignEnergies_of_six_le _ _ _ _ _ (by omega)]
  simp [horderOf, heven]

theorem assignEnergies_injected :
    (assignEnergies sp sq sh d)[7 + 2 * (h - 2)] = (sh h).elim 0 fun x => if x < 0 then energyOf (x * d) else 0 := by
  have horderOf : (7 + 2 * (h - 2)) / 2 - 1 = h := by omega
  have hodd : (7 + 2 * (h - 2)) % 2 = 1 := by omega
  rw [assignEnergies_of_six_le _ _ _ _ _ (by omega)]
  simp [horderOf, hodd]

end Assignment

/-! ### The energies of a VALID point -/

section Point

variable (f : WindowFrame) (mask : BitVec 49) (invert : Bool)

/-- The frame's entry for an order, none when the mask excludes the order or the frame does not list it (R48). -/
def WindowFrame.accountedEntry (h : Nat) : Option Harmonic :=
  if mask.getLsbD (h - 2) = true then f.harmonics.find? (fun y => y.order == h) else none

theorem pointEnergies_eq : pointEnergies f mask invert =
    assignEnergies (f.fundamental.activeSum invert) (f.fundamental.reactiveSum invert)
      (fun h => (f.accountedEntry mask h).map fun y => y.phases.activeSum invert) f.duration.toNat := by
  have hsums (h : Nat) : (if admitsOrder mask h = true then f.harmonicSum invert h else none) =
      (f.accountedEntry mask h).map fun y => y.phases.activeSum invert := by
    unfold WindowFrame.accountedEntry admitsOrder
    split <;> rfl
  simp only [pointEnergies, hsums]

/-- With SP zero or positive the active energy is imported (R46). -/
theorem pointEnergies_active_of_nonneg (hp : 0 ≤ f.fundamental.activeSum invert) :
    (pointEnergies f mask invert)[0] = energyOf (f.fundamental.activeSum invert * f.duration.toNat) ∧
    (pointEnergies f mask invert)[1] = 0 := by
  simp [pointEnergies, assignEnergies_activeImport, assignEnergies_activeExport, hp, not_lt.mpr hp]

/-- With SP negative the active energy is exported (R46). -/
theorem pointEnergies_active_of_neg (hp : f.fundamental.activeSum invert < 0) :
    (pointEnergies f mask invert)[0] = 0 ∧
    (pointEnergies f mask invert)[1] = energyOf (f.fundamental.activeSum invert * f.duration.toNat) := by
  simp [pointEnergies, assignEnergies_activeImport, assignEnergies_activeExport, hp, not_le.mpr hp]

variable (h : Nat) (horder : 2 ≤ h ∧ h ≤ 50)

/-- An order that is excluded or not listed gives 0 to both its quantities (R48). -/
theorem pointEnergies_of_accountedEntry_none (hy : f.accountedEntry mask h = none) :
    (pointEnergies f mask invert)[6 + 2 * (h - 2)] = 0 ∧ (pointEnergies f mask invert)[7 + 2 * (h - 2)] = 0 := by
  simp [pointEnergies_eq, assignEnergies_absorbed, assignEnergies_injected, horder, hy]

/-- An order that is admitted and listed gives its energy by the sign of its sum (R48). -/
theorem pointEnergies_of_accountedEntry_some {y : Harmonic} (hy : f.accountedEntry mask h = some y) :
    (pointEnergies f mask invert)[6 + 2 * (h - 2)] =
      (if 0 ≤ y.phases.activeSum invert then energyOf (y.phases.activeSum invert * f.duration.toNat) else 0) ∧
    (pointEnergies f mask invert)[7 + 2 * (h - 2)] =
      (if y.phases.activeSum invert < 0 then energyOf (y.phases.activeSum invert * f.duration.toNat) else 0) := by
  simp [pointEnergies_eq, assignEnergies_absorbed, assignEnergies_injected, horder, hy]

end Point

/-- Settles O27: the sums and the division are the model's definitions, the active and the reactive quantities go by the
signs of SP and SQ, and each order's by whether its entry is accounted and by the sign of its sum. -/
theorem pointEnergiesByDirection : Obligations.PointEnergiesByDirection := by
  unfold Obligations.PointEnergiesByDirection
  refine ⟨fun _ => rfl, fun f mask invert => ⟨fun _ => rfl, rfl, rfl, ?_, ?_, ?_, fun h horder => ?_⟩⟩
  · exact pointEnergies_active_of_nonneg f mask invert
  · exact pointEnergies_active_of_neg f mask invert
  · exact assignEnergies_reactive _ _ _ _
  · split
    next hy => exact pointEnergies_of_accountedEntry_none f mask invert h horder hy
    next y hy => exact pointEnergies_of_accountedEntry_some f mask invert h horder hy

end Sys2Proof.Machine
end

section
/-! SUPPORT. The register store and the folding unit after COLD_RESET, and through the READY that follows (spec 05, R111). -/

namespace Sys2Proof.Machine

/-! ### The commands COLD_RESET and READY -/

theorem exec_coldReset (s : State) : exec .coldReset s = .next s.coldReset := rfl

theorem exec_ready (s : State) : exec .ready s = execReady s := rfl

/-- READY acts only where the part is not ready yet (R141). -/
theorem exec_ready_of_not_ready {s : State} (h : s.control.ready = false) : exec .ready s = .next s.becomeReady := by
  simp [exec_ready, execReady, h]

@[simp] theorem State.coldReset_ready (s : State) : s.coldReset.control.ready = false := rfl

/-! ### The stores in their cold-reset state -/

@[simp] theorem State.coldReset_regs (s : State) : s.coldReset.regs = Vector.replicate 41 State.resetRegisterSet := rfl

@[simp] theorem State.coldReset_folds (s : State) : s.coldReset.folds = Vector.replicate 8 none := rfl

@[simp] theorem State.becomeReady_regs (s : State) :
    s.becomeReady.regs = Vector.replicate 41 State.resetRegisterSet := rfl

/-- Initialisation sets the register store up with the values the reset gave it (R111, R141). -/
theorem State.coldReset_becomeReady_regs (s : State) : s.coldReset.becomeReady.regs = s.coldReset.regs := by
  rw [State.becomeReady_regs, State.coldReset_regs]

theorem State.coldReset_regs_getElem (s : State) (p : SetId) : s.coldReset.regs[p] = State.resetRegisterSet := by
  simp

theorem State.coldReset_folds_getElem (s : State) (b : BankId) : s.coldReset.folds[b] = none := by
  simp

/-! ### One register set -/

theorem resetRegisterSet_quantities_getElem (q : QuantityId) :
    State.resetRegisterSet.quantities[q] = ⟨0, 0, true⟩ := by
  simp [State.resetRegisterSet]

/-- A register and a residue of 0 store 0 mWh at every scale (R90). -/
theorem Quantity.stored_zero (valid : Bool) (scale : Fin 4) : Quantity.stored ⟨0, 0, valid⟩ scale = 0 := by
  simp [Quantity.stored]

/-- A quantity of a register set after cold reset: register and residue 0, VALID, stored value 0 (R111). -/
theorem resetRegisterSet_quantity_zero (q : QuantityId) :
    State.resetRegisterSet.quantities[q].register = 0 ∧ State.resetRegisterSet.quantities[q].residue = 0 ∧
    State.resetRegisterSet.quantities[q].valid = true ∧
    State.resetRegisterSet.quantities[q].stored State.resetRegisterSet.scale = 0 := by
  rw [resetRegisterSet_quantities_getElem]
  exact ⟨rfl, rfl, rfl, Quantity.stored_zero true _⟩

/-- Settles O4: COLD_RESET gives every register set and every fold its cold-reset value, and the READY that follows, which
finds the part not ready, gives the register sets the same value again. -/
theorem coldResetRegisterStore : Obligations.ColdResetRegisterStore := by
  unfold Obligations.ColdResetRegisterStore
  intro s
  refine ⟨s.coldReset, exec_coldReset s, fun p => ?_, s.coldReset_folds_getElem, s.coldReset.becomeReady, ?_, ?_⟩
  · rw [s.coldReset_regs_getElem p]
    exact ⟨rfl, rfl, rfl, rfl, resetRegisterSet_quantity_zero⟩
  · exact exec_ready_of_not_ready s.coldReset_ready
  · exact s.coldReset_becomeReady_regs

end Sys2Proof.Machine
end

section
/-! SUPPORT. The effect of each command, and a vocabulary of frames: the parts of the state that an operation may touch. -/

namespace Sys2Proof.Machine

/-! ### The effect of a command -/

/-- What a command does to the state once its own conditions of readiness hold. -/
def commandEffect (c : Instr) (s : State) : State :=
  match c with
  | .goodFrame l bytes => s.receive l bytes
  | .badFrame l bytes => s.receive l bytes
  | .huntCandidate l bytes => s.receive l bytes
  | .silenceTimerExpiry l => s.silenceExpiry l
  | .sorterTake l => s.sorterTake l
  | .alignmentTimerExpiry q => s.alignmentExpiry q
  | .calculation => s.calculate
  | .windowAddition b => s.windowAddition b
  | .release => s.release
  | .tariffEvent => (List.finRange 8).foldl State.tariffAt s
  | .pointStep b => s.pointStep b
  | .foldCompletion b => s.foldCompletion b
  | .hostWrite la data be => s.hostWrite la data be
  | .returnTake => s.returnTake
  | .hostRead rsel la => s.hostRead rsel la
  | .quotaTimerExpiry => s.quotaExpiry
  | .badKind => s.take .badKind State.takeBadKind
  | .setPoint => s.take .setPoint State.takeSetPoint
  | .setBank => s.take .setBank State.takeSetBank
  | .setTiming => s.take .setTiming State.takeSetTiming
  | .start => s.take .start State.takeStart
  | .stop => s.take .stop State.takeStop
  | .close => s.take .close State.takeClose
  | .readOpen => s.take .readOpen State.takeReadOpen
  | .readRegisters => s.take .readRegisters State.takeReadRegisters
  | .readRegistersNet => s.take .readRegistersNet State.takeReadRegistersNet
  | .rebase => s.take .rebase State.takeRebase
  | .cancel => s.take .cancel State.takeCancel
  | .linkControlEnable => s.take (.link .enable) (State.takeLink .enable)
  | .linkControlDisable => s.take (.link .disable) (State.takeLink .disable)
  | .linkControlReset => s.take (.link .reset) (State.takeLink .reset)
  | .linkControlClear => s.take (.link .clear) (State.takeLink .clear)
  | .readCapture => s.take .readCapture State.takeReadCapture
  | .readCaptureClear => s.take .readCaptureClear State.takeReadCaptureClear
  | .run data be => s.writeControl data be
  | .noticeEnableMask data be => s.writeControl data be
  | .warmReset data be => s.writeControl data be
  | .warmResetCompletion => s.warmCompletion
  | .lwstatWrite data be => s.clearStatus data be
  | .registerWriteIgnored la data be => s.writeRegister la data be
  | .coldReset => s.coldReset
  | .ready => if s.control.ready = true then s else s.becomeReady

/-- The commands that READY does not hold back: reads and the two resets (R139, R141). -/
def Instr.beforeReady : Instr → Bool
  | .hostRead _ _ | .coldReset | .ready => true
  | _ => false

/-- Every other command is an event with its effect. -/
theorem exec_of_event {c : Instr} (h : Instr.beforeReady c = false) (s : State) : exec c s = s.event (commandEffect c) := by
  cases c
  case hostRead rsel la => cases h
  case coldReset => cases h
  case ready => cases h
  all_goals rfl

/-- Every command answers a next state: its effect, or, for an event before READY, the state as it was (R141). -/
theorem exec_eq_commandEffect (c : Instr) (s : State) :
    exec c s = .next (if Instr.beforeReady c = true ∨ s.control.ready = true then commandEffect c s else s) := by
  cases h : Instr.beforeReady c with
  | false => simp only [exec_of_event h, State.event_eq, Bool.false_eq_true, false_or]
  | true =>
    rw [if_pos (Or.inl rfl)]
    cases c
    case hostRead rsel la => rfl
    case coldReset => rfl
    case ready => rfl
    all_goals cases h

theorem exec_of_ready (c : Instr) {s : State} (h : s.control.ready = true) : exec c s = .next (commandEffect c s) := by
  rw [exec_eq_commandEffect, if_pos (Or.inr h)]

/-- The inversion of a command: nothing, or its effect. -/
theorem exec_next_cases {c : Instr} {s t : State} (h : exec c s = .next t) : t = s ∨ t = commandEffect c s := by
  rw [exec_eq_commandEffect] at h
  injection h with h
  rw [← h]
  split
  · exact Or.inr rfl
  · exact Or.inl rfl

/-- A predicate that does not look at the queue of commands and that every command's effect keeps is kept by every step. -/
theorem step_keeps (P : State → Prop) (hqueue : ∀ (s : State) (cs : List Instr), P s → P { s with pending := cs })
    (hcommand : ∀ (c : Instr) (s : State), P s → P (commandEffect c s)) (s t : State) (hs : P s)
    (hstep : step s = .next t) : P t := by
  cases hp : s.pending with
  | nil =>
    rw [step_of_idle hp] at hstep
    injection hstep with hstep
    exact hstep ▸ hs
  | cons c rest =>
    rw [step_of_pending hp] at hstep
    rcases exec_next_cases hstep with rfl | rfl
    · exact hqueue _ _ hs
    · exact hcommand _ _ (hqueue _ _ hs)

/-! ### The parts of the state -/

/-- The parts of the state that frames tell apart. -/
inductive Part where
  | links | queue | lastHanded | heldFrame | consecutiveLate | resyncMark | timeout | late | duplicate | unmapped
  | unexpected | halted | discarded | accounting | watches | profiles | banks | timing | bankCounters | folds | regs
  | writer | slots | intake | quotaLimit | quotaCount | quotaTimer | table | exceptions | latched | mask | owner
  | capture | control | ownerCount | tagCount | corrected | mem | exchangeMarks | accountingMarks | registerMarks | ld
  | pending
deriving DecidableEq

/-- A part is the same in both states. -/
def Part.Same (s t : State) : Part → Prop
  | .links => t.links = s.links
  | .queue => t.sorter.queue = s.sorter.queue
  | .lastHanded => t.sorter.lastHanded = s.sorter.lastHanded
  | .heldFrame => t.sorter.heldFrame = s.sorter.heldFrame
  | .consecutiveLate => t.sorter.consecutiveLate = s.sorter.consecutiveLate
  | .resyncMark => t.sorter.resyncMark = s.sorter.resyncMark
  | .timeout => t.sorter.timeout = s.sorter.timeout
  | .late => t.sorter.late = s.sorter.late
  | .duplicate => t.sorter.duplicate = s.sorter.duplicate
  | .unmapped => t.sorter.unmapped = s.sorter.unmapped
  | .unexpected => t.sorter.unexpected = s.sorter.unexpected
  | .halted => t.sorter.halted = s.sorter.halted
  | .discarded => t.sorter.discarded = s.sorter.discarded
  | .accounting => t.accounting = s.accounting
  | .watches => t.watches = s.watches
  | .profiles => t.profiles = s.profiles
  | .banks => t.banks = s.banks
  | .timing => t.timing = s.timing
  | .bankCounters => t.bankCounters = s.bankCounters
  | .folds => t.folds = s.folds
  | .regs => t.regs = s.regs
  | .writer => t.writer = s.writer
  | .slots => t.requests.slots = s.requests.slots
  | .intake => t.requests.intake = s.requests.intake
  | .quotaLimit => t.requests.quotaLimit = s.requests.quotaLimit
  | .quotaCount => t.requests.quotaCount = s.requests.quotaCount
  | .quotaTimer => t.requests.quotaTimer = s.requests.quotaTimer
  | .table => t.requests.table = s.requests.table
  | .exceptions => t.exceptions = s.exceptions
  | .latched => t.notices.latched = s.notices.latched
  | .mask => t.notices.mask = s.notices.mask
  | .owner => t.notices.owner = s.notices.owner
  | .capture => t.capture = s.capture
  | .control => t.control = s.control
  | .ownerCount => t.watchCounters.owner = s.watchCounters.owner
  | .tagCount => t.watchCounters.tag = s.watchCounters.tag
  | .corrected => t.watchCounters.corrected = s.watchCounters.corrected
  | .mem => t.mem = s.mem
  | .exchangeMarks => t.ecc.exchange = s.ecc.exchange
  | .accountingMarks => t.ecc.accounting = s.ecc.accounting
  | .registerMarks => t.ecc.registers = s.ecc.registers
  | .ld => t.ld = s.ld
  | .pending => t.pending = s.pending

theorem Part.Same.refl (s : State) (p : Part) : p.Same s s := by cases p <;> rfl

theorem Part.Same.trans {s t u : State} {p : Part} (h : p.Same s t) (h' : p.Same t u) : p.Same s u := by
  cases p <;> exact Eq.trans h' h

/-- From `s` to `t` nothing changed outside these parts. -/
def State.Touches (s : State) (ps : List Part) (t : State) : Prop := ∀ p, p ∈ ps ∨ p.Same s t

namespace State.Touches

variable {s t u : State} {ps qs : List Part}

theorem same (h : s.Touches ps t) {p : Part} (hp : p ∉ ps) : p.Same s t := (h p).resolve_left hp

theorem refl (s : State) (ps : List Part) : s.Touches ps s := fun p => Or.inr (.refl s p)

/-- The widening of a frame. -/
theorem mono (h : s.Touches ps t) (hps : ∀ p ∈ ps, p ∈ qs) : s.Touches qs t := fun p => (h p).imp_left (hps p)

theorem trans (h : s.Touches ps t) (h' : t.Touches ps u) : s.Touches ps u := fun p => by
  rcases h p with hp | hp
  · exact Or.inl hp
  · exact (h' p).imp_right hp.trans

/-- Two operations, each with its own frame inside a common one. -/
theorem seq {rs : List Part} (h : s.Touches ps t) (h' : t.Touches qs u) (hps : ∀ p ∈ ps, p ∈ rs)
    (hqs : ∀ p ∈ qs, p ∈ rs) : s.Touches rs u := (h.mono hps).trans (h'.mono hqs)

/-- An operation repeated over a list. -/
theorem foldl {α : Type} {f : State → α → State} (h : ∀ (s : State) (x : α), s.Touches ps (f s x)) (xs : List α) (s : State) :
    s.Touches ps (xs.foldl f s) := by
  induction xs generalizing s with
  | nil => exact refl s ps
  | cons x xs ih => exact (h s x).trans (ih _)

/-- One of two operations. -/
theorem ite {c : Prop} [Decidable c] (ht : s.Touches ps t) (hu : s.Touches ps u) : s.Touches ps (if c then t else u) := by
  split
  · exact ht
  · exact hu

end State.Touches

/-! ### What a frame leaves as it was, part by part -/

namespace State.Touches

variable {s t : State} {ps : List Part} (h : s.Touches ps t)

include h

theorem links (hp : Part.links ∉ ps) : t.links = s.links := h.same hp
theorem accounting (hp : Part.accounting ∉ ps) : t.accounting = s.accounting := h.same hp
theorem watches (hp : Part.watches ∉ ps) : t.watches = s.watches := h.same hp
theorem profiles (hp : Part.profiles ∉ ps) : t.profiles = s.profiles := h.same hp
theorem banks (hp : Part.banks ∉ ps) : t.banks = s.banks := h.same hp
theorem timing (hp : Part.timing ∉ ps) : t.timing = s.timing := h.same hp
theorem bankCounters (hp : Part.bankCounters ∉ ps) : t.bankCounters = s.bankCounters := h.same hp
theorem folds (hp : Part.folds ∉ ps) : t.folds = s.folds := h.same hp
theorem regs (hp : Part.regs ∉ ps) : t.regs = s.regs := h.same hp
theorem writer (hp : Part.writer ∉ ps) : t.writer = s.writer := h.same hp
theorem exceptions (hp : Part.exceptions ∉ ps) : t.exceptions = s.exceptions := h.same hp
theorem capture (hp : Part.capture ∉ ps) : t.capture = s.capture := h.same hp
theorem control (hp : Part.control ∉ ps) : t.control = s.control := h.same hp
theorem mem (hp : Part.mem ∉ ps) : t.mem = s.mem := h.same hp
theorem ld (hp : Part.ld ∉ ps) : t.ld = s.ld := h.same hp
theorem pending (hp : Part.pending ∉ ps) : t.pending = s.pending := h.same hp
theorem slots (hp : Part.slots ∉ ps) : t.requests.slots = s.requests.slots := h.same hp
theorem intake (hp : Part.intake ∉ ps) : t.requests.intake = s.requests.intake := h.same hp
theorem table (hp : Part.table ∉ ps) : t.requests.table = s.requests.table := h.same hp
theorem quotaLimit (hp : Part.quotaLimit ∉ ps) : t.requests.quotaLimit = s.requests.quotaLimit := h.same hp
theorem quotaCount (hp : Part.quotaCount ∉ ps) : t.requests.quotaCount = s.requests.quotaCount := h.same hp
theorem quotaTimer (hp : Part.quotaTimer ∉ ps) : t.requests.quotaTimer = s.requests.quotaTimer := h.same hp
theorem latched_eq (hp : Part.latched ∉ ps) : t.notices.latched = s.notices.latched := h.same hp
theorem mask (hp : Part.mask ∉ ps) : t.notices.mask = s.notices.mask := h.same hp
theorem owner (hp : Part.owner ∉ ps) : t.notices.owner = s.notices.owner := h.same hp
theorem ownerCount (hp : Part.ownerCount ∉ ps) : t.watchCounters.owner = s.watchCounters.owner := h.same hp
theorem tagCount (hp : Part.tagCount ∉ ps) : t.watchCounters.tag = s.watchCounters.tag := h.same hp
theorem lastHanded (hp : Part.lastHanded ∉ ps) : t.sorter.lastHanded = s.sorter.lastHanded := h.same hp
theorem queue (hp : Part.queue ∉ ps) : t.sorter.queue = s.sorter.queue := h.same hp
theorem accountingMarks (hp : Part.accountingMarks ∉ ps) : t.ecc.accounting = s.ecc.accounting := h.same hp
theorem registerMarks (hp : Part.registerMarks ∉ ps) : t.ecc.registers = s.ecc.registers := h.same hp
theorem exchangeMarks (hp : Part.exchangeMarks ∉ ps) : t.ecc.exchange = s.ecc.exchange := h.same hp

end State.Touches

/-- The parts of the sorter. -/
def Part.ofSorter : List Part :=
  [.queue, .lastHanded, .heldFrame, .consecutiveLate, .resyncMark, .timeout, .late, .duplicate, .unmapped, .unexpected,
    .halted, .discarded]

/-- The parts of the request unit. -/
def Part.ofRequests : List Part := [.slots, .intake, .quotaLimit, .quotaCount, .quotaTimer, .table]

theorem State.Touches.sorter {s t : State} {ps : List Part} (h : s.Touches ps t) (hp : ∀ p ∈ Part.ofSorter, p ∉ ps) :
    t.sorter = s.sorter := by
  have same (p : Part) (hs : p ∈ Part.ofSorter) : p.Same s t := h.same (hp p hs)
  simp only [Part.ofSorter, List.mem_cons, List.not_mem_nil, or_false, forall_eq_or_imp, forall_eq, Part.Same] at same
  cases hs : s.sorter
  cases ht : t.sorter
  simp only [hs, ht] at same
  simpa only [Sorter.mk.injEq] using same

theorem State.Touches.requests {s t : State} {ps : List Part} (h : s.Touches ps t) (hp : ∀ p ∈ Part.ofRequests, p ∉ ps) :
    t.requests = s.requests := by
  have same (p : Part) (hs : p ∈ Part.ofRequests) : p.Same s t := h.same (hp p hs)
  simp only [Part.ofRequests, List.mem_cons, List.not_mem_nil, or_false, forall_eq_or_imp, forall_eq, Part.Same] at same
  cases hs : s.requests
  cases ht : t.requests
  simp only [hs, ht] at same
  simpa only [RequestUnit.mk.injEq] using same

theorem State.Touches.notices {s t : State} {ps : List Part} (h : s.Touches ps t) (hl : Part.latched ∉ ps)
    (hm : Part.mask ∉ ps) (ho : Part.owner ∉ ps) : t.notices = s.notices := by
  have hl := h.latched_eq hl
  have hm := h.mask hm
  have ho := h.owner ho
  cases hs : s.notices
  cases ht : t.notices
  simp only [hs, ht] at hl hm ho
  simp only [hl, hm, ho]

/-! ### Frames from the equations of the shared operations -/

/-- Copies one part of `t` into `s`. -/
def Part.copy (t s : State) : Part → State
  | .links => { s with links := t.links }
  | .queue => { s with sorter := { s.sorter with queue := t.sorter.queue } }
  | .lastHanded => { s with sorter := { s.sorter with lastHanded := t.sorter.lastHanded } }
  | .heldFrame => { s with sorter := { s.sorter with heldFrame := t.sorter.heldFrame } }
  | .consecutiveLate => { s with sorter := { s.sorter with consecutiveLate := t.sorter.consecutiveLate } }
  | .resyncMark => { s with sorter := { s.sorter with resyncMark := t.sorter.resyncMark } }
  | .timeout => { s with sorter := { s.sorter with timeout := t.sorter.timeout } }
  | .late => { s with sorter := { s.sorter with late := t.sorter.late } }
  | .duplicate => { s with sorter := { s.sorter with duplicate := t.sorter.duplicate } }
  | .unmapped => { s with sorter := { s.sorter with unmapped := t.sorter.unmapped } }
  | .unexpected => { s with sorter := { s.sorter with unexpected := t.sorter.unexpected } }
  | .halted => { s with sorter := { s.sorter with halted := t.sorter.halted } }
  | .discarded => { s with sorter := { s.sorter with discarded := t.sorter.discarded } }
  | .accounting => { s with accounting := t.accounting }
  | .watches => { s with watches := t.watches }
  | .profiles => { s with profiles := t.profiles }
  | .banks => { s with banks := t.banks }
  | .timing => { s with timing := t.timing }
  | .bankCounters => { s with bankCounters := t.bankCounters }
  | .folds => { s with folds := t.folds }
  | .regs => { s with regs := t.regs }
  | .writer => { s with writer := t.writer }
  | .slots => { s with requests := { s.requests with slots := t.requests.slots } }
  | .intake => { s with requests := { s.requests with intake := t.requests.intake } }
  | .quotaLimit => { s with requests := { s.requests with quotaLimit := t.requests.quotaLimit } }
  | .quotaCount => { s with requests := { s.requests with quotaCount := t.requests.quotaCount } }
  | .quotaTimer => { s with requests := { s.requests with quotaTimer := t.requests.quotaTimer } }
  | .table => { s with requests := { s.requests with table := t.requests.table } }
  | .exceptions => { s with exceptions := t.exceptions }
  | .latched => { s with notices := { s.notices with latched := t.notices.latched } }
  | .mask => { s with notices := { s.notices with mask := t.notices.mask } }
  | .owner => { s with notices := { s.notices with owner := t.notices.owner } }
  | .capture => { s with capture := t.capture }
  | .control => { s with control := t.control }
  | .ownerCount => { s with watchCounters := { s.watchCounters with owner := t.watchCounters.owner } }
  | .tagCount => { s with watchCounters := { s.watchCounters with tag := t.watchCounters.tag } }
  | .corrected => { s with watchCounters := { s.watchCounters with corrected := t.watchCounters.corrected } }
  | .mem => { s with mem := t.mem }
  | .exchangeMarks => { s with ecc := { s.ecc with exchange := t.ecc.exchange } }
  | .accountingMarks => { s with ecc := { s.ecc with accounting := t.ecc.accounting } }
  | .registerMarks => { s with ecc := { s.ecc with registers := t.ecc.registers } }
  | .ld => { s with ld := t.ld }
  | .pending => { s with pending := t.pending }

/-- A copy of one part touches that part alone. -/
theorem Part.copy_touches (t s : State) (p : Part) : s.Touches [p] (p.copy t s) := by
  intro q
  by_cases hq : q = p
  · exact Or.inl (by simp [hq])
  · right
    cases p <;> cases q <;> first | rfl | exact absurd rfl hq

/-- The state with these parts of another copied into it. -/
def State.withParts (s t : State) (ps : List Part) : State := ps.foldl (fun u p => p.copy t u) s

/-- A state that is another with some parts replaced differs from it in those parts alone. -/
theorem State.Touches.of_eq {s t : State} (ps : List Part) (h : t = s.withParts t ps) : s.Touches ps t := by
  have copies : ∀ (qs : List Part) (u : State), (∀ q ∈ qs, q ∈ ps) → s.Touches ps u → s.Touches ps (u.withParts t qs) := by
    intro qs
    induction qs with
    | nil => exact fun u _ hu => hu
    | cons q qs ih =>
      intro u hq hu
      refine ih _ (fun r hr => hq r (List.mem_cons_of_mem _ hr)) (hu.trans ((Part.copy_touches t u q).mono ?_))
      simpa using hq q List.mem_cons_self
  rw [h]
  exact copies ps s (fun _ hq => hq) (.refl s ps)

end Sys2Proof.Machine
end

section
/-! SUPPORT. What each operation of the model may touch. -/

namespace Sys2Proof.Machine

/-! ### The shared operations -/

theorem State.Checked.touches {s t : State} (h : s.Checked t) :
    s.Touches [.capture, .latched, .corrected, .exchangeMarks] t := .of_eq _ h

theorem State.Pushed.touches {s t : State} (h : s.Pushed t) : s.Touches [.exceptions, .latched, .exchangeMarks] t :=
  .of_eq _ h

theorem State.LinkEvent.touches {s t : State} (h : s.LinkEvent t) : s.Touches [.links, .halted, .latched, .exchangeMarks] t :=
  .of_eq _ h

/-- The parts that asking and starting closes may touch. -/
def Part.ofClose : List Part := [.profiles, .banks, .folds, .regs, .table, .exchangeMarks, .accountingMarks, .registerMarks]

theorem State.CloseEffect.touches {s t : State} (h : s.CloseEffect t) : s.Touches Part.ofClose t := by
  refine .of_eq _ (Eq.trans h ?_)
  simp only [State.withParts, Part.ofClose, List.foldl_cons, List.foldl_nil, Part.copy]

/-- The parts that a check of the accounting table may touch. -/
def Part.ofAccCheck : List Part :=
  [.banks, .capture, .latched, .corrected, .exchangeMarks, .accountingMarks, .registerMarks]

theorem State.AccChecked.touches {s t : State} (h : s.AccChecked t) : s.Touches Part.ofAccCheck t := by
  refine .of_eq _ (Eq.trans h ?_)
  simp only [State.withParts, Part.ofAccCheck, List.foldl_cons, List.foldl_nil, Part.copy]

/-- The parts that a check of the register store may touch. -/
def Part.ofRegCheck : List Part :=
  [.regs, .slots, .table, .mem, .capture, .latched, .corrected, .exchangeMarks, .accountingMarks, .registerMarks]

theorem State.RegChecked.touches {s t : State} (h : s.RegChecked t) : s.Touches Part.ofRegCheck t := by
  refine .of_eq _ (Eq.trans h ?_)
  simp only [State.withParts, Part.ofRegCheck, List.foldl_cons, List.foldl_nil, Part.copy]

theorem State.RecordEffect.touches {s t : State} (h : s.RecordEffect t) :
    s.Touches [.writer, .folds, .mem, .latched, .exchangeMarks] t := .of_eq _ h

theorem State.push_touches (s : State) (k : ExceptionKind) (a b c d : Word) (v : Vector Word 8) :
    s.Touches [.exceptions, .latched, .exchangeMarks] (s.push k a b c d v) := (s.push_pushed k a b c d v).touches

theorem State.report_touches (s : State) (st : Store) (w : Word) :
    s.Touches [.capture, .latched, .corrected, .exchangeMarks] (s.report st w) := (s.report_checked st w).touches

theorem State.checkWord_touches (s : State) (w : Nat) :
    s.Touches [.capture, .latched, .corrected, .exchangeMarks] (s.checkWord w) := (s.checkWord_checked w).touches

theorem State.checkAccs_touches (s : State) (b : BankId) (i : Fin 2) (items : List AccItem) :
    s.Touches Part.ofAccCheck (s.checkAccs b i items) := (s.checkAccs_accChecked b i items).touches

theorem State.checkRegs_touches (s : State) (p : SetId) (items : List RegItem) :
    s.Touches Part.ofRegCheck (s.checkRegs p items) := (s.checkRegs_regChecked p items).touches

theorem State.checkReg_touches (s : State) (p : SetId) (it : RegItem) : s.Touches Part.ofRegCheck (s.checkReg p it) :=
  (s.checkReg_regChecked p it).touches

theorem State.putLink_touches (s : State) (l : LinkId) (r : Receiver) : s.Touches [.links, .exchangeMarks] (s.putLink l r) :=
  .of_eq _ rfl

theorem State.putBank_touches (s : State) (b : BankId) (x : Bank) : s.Touches [.banks, .exchangeMarks] (s.putBank b x) :=
  .of_eq _ rfl

theorem State.putBankCounters_touches (s : State) (x : BankCounters) :
    s.Touches [.bankCounters, .exchangeMarks] (s.putBankCounters x) := .of_eq _ rfl

theorem State.putWriter_touches (s : State) (x : Writer) : s.Touches [.writer, .exchangeMarks] (s.putWriter x) :=
  .of_eq _ rfl

theorem State.putExceptions_touches (s : State) (x : ExceptionUnit) :
    s.Touches [.exceptions, .exchangeMarks] (s.putExceptions x) := .of_eq _ rfl

theorem State.putProfile_touches (s : State) (p : PointId) (x : Profile) : s.Touches [.profiles] (s.putProfile p x) :=
  .of_eq _ rfl

theorem State.putFold_touches (s : State) (b : BankId) (x : Option Fold) : s.Touches [.folds] (s.putFold b x) :=
  .of_eq _ rfl

theorem State.putRegs_touches (s : State) (p : SetId) (x : RegisterSet) : s.Touches [.regs] (s.putRegs p x) := .of_eq _ rfl

theorem State.putWatch_touches (s : State) (p : PointId) (x : Watch) : s.Touches [.watches] (s.putWatch p x) :=
  .of_eq _ rfl

theorem State.putCapture_touches (s : State) (c : Option Capture) : s.Touches [.capture, .exchangeMarks] (s.putCapture c) :=
  .of_eq _ rfl

theorem State.latch_touches (s : State) (c : Cause) : s.Touches [.latched] (s.latch c) := .of_eq _ rfl

theorem State.wordsWritten_touches (s : State) (lo hi : Nat) : s.Touches [.exchangeMarks] (s.wordsWritten lo hi) :=
  .of_eq _ rfl

theorem State.accWritten_touches (s : State) (w : AccWord) : s.Touches [.accountingMarks] (s.accWritten w) := .of_eq _ rfl

theorem State.setWritten_touches (s : State) (b : BankId) (i : Fin 2) : s.Touches [.accountingMarks] (s.setWritten b i) :=
  .of_eq _ rfl

theorem State.regWritten_touches (s : State) (p : SetId) (f : RegItem → Bool) :
    s.Touches [.registerMarks] (s.regWritten p f) := .of_eq _ rfl

/-- Bytes of exchange memory written, and the error marks of their words dropped. -/
theorem State.memory_touches (s : State) (m : Memory) (lo hi : Nat) :
    s.Touches [.mem, .exchangeMarks] ({ s with mem := m }.wordsWritten lo hi) := .of_eq _ rfl

theorem State.writeReply_touches (s : State) (k : SlotId) (n : Word) (r : Reply) :
    s.Touches [.mem, .exchangeMarks] (s.writeReply k n r) := by
  unfold State.writeReply; exact s.memory_touches _ _ _

theorem State.writeField_touches (s : State) (k : SlotId) (off : Nat) (v : Word) :
    s.Touches [.mem, .exchangeMarks] (s.writeField k off v) := by
  unfold State.writeField; exact s.memory_touches _ _ _

theorem State.writeData_touches (s : State) (k : SlotId) (d : List Byte) :
    s.Touches [.mem, .exchangeMarks] (s.writeData k d) := by
  unfold State.writeData; exact s.memory_touches _ _ _

theorem State.setSlot_touches (s : State) (k : SlotId) (st : SlotState) :
    s.Touches [.slots, .exchangeMarks] (s.setSlot k st) := .of_eq _ rfl

theorem State.endSlot_touches (s : State) (k : SlotId) (st : SlotState) :
    s.Touches [.slots, .latched, .exchangeMarks] (s.endSlot k st) := .of_eq _ rfl

theorem State.removePending_touches (s : State) (k : SlotId) : s.Touches [.table] (s.removePending k) := .of_eq _ rfl

/-- The parts that the end of a deferred request may touch. -/
def Part.ofEndDeferred : List Part := [.slots, .table, .mem, .latched, .exchangeMarks]

theorem State.endDeferred_touches (s : State) (k : SlotId) (st : SlotState) (o : ReplyOutcome) (r : Reason) (i : Word)
    (c : Nat) (d : List Byte) : s.Touches Part.ofEndDeferred (s.endDeferred k st o r i c d) := by
  unfold State.endDeferred
  refine .trans ?_ ((State.endSlot_touches _ k st).mono (by decide))
  refine .trans ?_ ((State.removePending_touches _ k).mono (by decide))
  refine .trans ?_ ((State.writeData_touches _ k d).mono (by decide))
  refine .trans ?_ ((State.writeField_touches _ k _ _).mono (by decide))
  refine .trans ?_ ((State.writeField_touches _ k _ _).mono (by decide))
  refine .trans ?_ ((State.writeField_touches _ k _ _).mono (by decide))
  exact (s.writeField_touches k _ _).mono (by decide)

theorem State.finish_touches (s : State) (k : SlotId) (st : SlotState) (r : Reply) :
    s.Touches [.slots, .mem, .latched, .exchangeMarks] (s.finish k st r) := by
  unfold State.finish
  exact (s.writeReply_touches k _ r).seq (State.endSlot_touches _ k st) (by decide) (by decide)

theorem State.defer_touches (s : State) (k : SlotId) (w : Work) (e : Nat) :
    s.Touches [.slots, .table, .mem, .exchangeMarks] (s.defer k w e) := by
  unfold State.defer
  refine State.Touches.seq (qs := [.slots, .mem, .exchangeMarks])
    (t := { s with requests := { s.requests with table := s.requests.table ++ [⟨k, w⟩] } }) (.of_eq [.table] rfl) ?_
    (by decide) (by decide)
  exact (State.writeReply_touches _ k _ _).seq (State.setSlot_touches _ k _) (by decide) (by decide)

theorem State.refreshQuota_touches (s : State) : s.Touches [.quotaCount, .quotaTimer] s.refreshQuota := .of_eq _ rfl

/-! ### Links -/

theorem State.receive_linkEvent (s : State) (l : LinkId) (bytes : List Byte) : s.LinkEvent (s.receive l bytes) := by
  unfold State.receive
  split
  · exact .refl s
  · exact s.resolve_linkEvent _ l _

theorem State.silenceExpiry_linkEvent (s : State) (l : LinkId) : s.LinkEvent (s.silenceExpiry l) := by
  unfold State.silenceExpiry
  split <;> rfl

theorem State.linkAction_touches (s : State) (l : LinkId) (a : LinkAction) :
    s.Touches [.links, .latched, .exchangeMarks] (s.linkAction l a) := by
  have change (u : State) (st : RxState) : u.Touches [.links, .latched, .exchangeMarks] (u.changeReceiver l st) :=
    .of_eq _ rfl
  have put (u : State) (r : Receiver) : u.Touches [.links, .latched, .exchangeMarks] (u.putLink l r) := .of_eq _ rfl
  have written (u : State) (r : Receiver) :
    u.Touches [.links, .latched, .exchangeMarks] ((u.putLink l r).mirrorWritten l) := .of_eq _ rfl
  unfold State.linkAction
  cases a with
  | enable => exact .ite (change s _) (.refl s _)
  | disable => exact .ite (.refl s _) ((put s _).trans (change _ _))
  | reset => exact .ite (written s _) ((written s _).trans (change _ _))
  | clear => exact written s _

theorem State.warmLink_touches (s : State) (l : LinkId) : s.Touches [.links, .latched, .exchangeMarks] (s.warmLink l) := by
  unfold State.warmLink
  dsimp only
  split
  · exact .refl s _
  · exact .of_eq _ rfl
  · exact .of_eq _ rfl

/-! ### The sorter -/

/-- The parts that the handling of a frame may touch. -/
def Part.ofFrame : List Part :=
  [.queue, .lastHanded, .heldFrame, .consecutiveLate, .resyncMark, .late, .duplicate, .unmapped, .unexpected, .discarded,
    .exceptions, .latched, .exchangeMarks]

theorem State.resync_touches (s : State) (l : LinkId) (f : WindowFrame) : s.Touches Part.ofFrame (s.resync l f) := by
  unfold State.resync
  refine .trans ?_ ((State.push_touches _ _ _ _ _ _ _).mono (by decide))
  exact State.Touches.mono (ps := [.queue, .resyncMark, .lastHanded, .consecutiveLate, .discarded, .exchangeMarks])
    (.of_eq _ rfl) (by decide)

theorem State.dropLate_touches (s : State) (l : LinkId) (f : WindowFrame) : s.Touches Part.ofFrame (s.dropLate l f) := by
  unfold State.dropLate
  have counted : s.Touches Part.ofFrame (s.putSorter { s.sorter with
      late := s.sorter.late + 1, consecutiveLate := s.sorter.consecutiveLate + 1 }) :=
    State.Touches.mono (ps := [.late, .consecutiveLate, .exchangeMarks]) (.of_eq _ rfl) (by decide)
  exact .ite (counted.trans (State.resync_touches _ l f)) counted

theorem State.dropUnmapped_touches (s : State) : s.Touches [.unmapped, .exchangeMarks] s.dropUnmapped := .of_eq _ rfl

theorem State.dropUnexpected_touches (s : State) : s.Touches [.unexpected, .exchangeMarks] s.dropUnexpected := .of_eq _ rfl

theorem State.dropDuplicate_touches (s : State) : s.Touches [.duplicate, .exchangeMarks] s.dropDuplicate := .of_eq _ rfl

theorem State.openEntry_touches (s : State) (p : PointId) (x : TaggedFrame) :
    s.Touches [.queue, .consecutiveLate, .exchangeMarks] (s.openEntry p x) := .of_eq _ rfl

theorem State.storeFrame_touches (s : State) (p : PointId) (x : TaggedFrame) :
    s.Touches [.queue, .consecutiveLate, .exchangeMarks] (s.storeFrame p x) := .of_eq _ rfl

theorem State.forceAndHold_touches (s : State) (l : LinkId) (x : TaggedFrame) :
    s.Touches [.queue, .heldFrame, .exchangeMarks] (s.forceAndHold l x) := by
  unfold State.forceAndHold
  split
  · exact .of_eq _ rfl
  · exact .refl s _

theorem State.arrive_touches (s : State) (l : LinkId) (p : PointId) (x : TaggedFrame) :
    s.Touches Part.ofFrame (s.arrive l p x) := by
  have late := s.dropLate_touches l x.frame
  have unexpected := s.dropUnexpected_touches.mono (qs := Part.ofFrame) (by decide)
  unfold State.arrive
  refine .ite late ?_
  split
  · refine .ite late ?_
    split
    · exact unexpected
    · exact .ite (s.dropDuplicate_touches.mono (by decide)) ((s.storeFrame_touches p x).mono (by decide))
  · refine .ite unexpected (.ite late (.ite ((s.openEntry_touches p x).mono (by decide)) ?_))
    split
    · exact .ite late ((s.forceAndHold_touches l x).mono (by decide))
    · exact .refl s _

theorem State.handleFrame_touches (s : State) (l : LinkId) (x : TaggedFrame) : s.Touches Part.ofFrame (s.handleFrame l x) := by
  unfold State.handleFrame
  split
  · exact s.dropUnmapped_touches.mono (by decide)
  · exact s.arrive_touches l _ x

theorem State.tryHandOff_touches (s : State) : s.Touches [.queue, .accounting] s.tryHandOff := by
  unfold State.tryHandOff
  split
  · exact .ite (.of_eq _ rfl) (.refl s _)
  · exact .refl s _

/-- The parts that the sorter's events may touch, links and quota apart. -/
def Part.ofSorting : List Part :=
  [.queue, .lastHanded, .heldFrame, .consecutiveLate, .resyncMark, .late, .duplicate, .unmapped, .unexpected, .discarded,
    .accounting, .exceptions, .latched, .exchangeMarks]

theorem State.sorterTake_touches (s : State) (l : LinkId) : s.Touches (.links :: Part.ofSorting) (s.sorterTake l) := by
  unfold State.sorterTake
  split
  · exact ((s.putLink_touches l _).seq (State.handleFrame_touches _ l _) (by decide) (by decide)).trans
      ((State.tryHandOff_touches _).mono (by decide))
  · exact .refl s _

theorem State.alignmentExpiry_touches (s : State) (q : Seq16) : s.Touches [.queue, .accounting] (s.alignmentExpiry q) := by
  unfold State.alignmentExpiry
  refine .trans ?_ (State.tryHandOff_touches _)
  exact State.Touches.mono (ps := [.queue]) (.of_eq _ rfl) (by decide)

theorem State.dropHanded_touches (s : State) : s.Touches [.queue, .lastHanded, .resyncMark, .accounting] s.dropHanded := by
  unfold State.dropHanded
  split
  · exact .of_eq _ rfl
  · exact State.Touches.mono (ps := [.accounting]) (.of_eq _ rfl) (by decide)

theorem State.endStall_touches (s : State) : s.Touches Part.ofFrame s.endStall := by
  unfold State.endStall
  split
  · refine .trans ?_ (State.handleFrame_touches _ _ _)
    exact State.Touches.mono (ps := [.heldFrame]) (.of_eq _ rfl) (by decide)
  · exact .refl s _

theorem State.release_touches (s : State) : s.Touches (.quotaCount :: .quotaTimer :: Part.ofSorting) s.release := by
  unfold State.release
  split
  · refine .ite ?_ (.refl s _)
    exact ((s.dropHanded_touches.seq (State.endStall_touches _) (rs := .quotaCount :: .quotaTimer :: Part.ofSorting)
      (by decide) (by decide)).trans ((State.tryHandOff_touches _).mono (by decide))).trans
      ((State.refreshQuota_touches _).mono (by decide))
  · exact .refl s _

theorem State.markChange_touches (s : State) (p : PointId) : s.Touches [.queue] (s.markChange p) := .of_eq _ rfl

/-! ### The calculator -/

theorem State.watchPoint_touches (q : Seq16) (s : State) (x : Expected) :
    s.Touches [.watches, .exceptions, .latched, .exchangeMarks] (State.watchPoint q s x) := by
  have put (w : Watch) := (s.putWatch_touches x.point w).mono (qs := [.watches, .exceptions, .latched, .exchangeMarks])
    (by decide)
  unfold State.watchPoint
  exact .ite (.ite ((put _).trans ((State.push_touches _ _ _ _ _ _ _).mono (by decide))) (put _)) (put _)

theorem State.calculate_touches (s : State) :
    s.Touches [.accounting, .watches, .exceptions, .latched, .exchangeMarks] s.calculate := by
  unfold State.calculate
  split
  · refine .ite (.refl s _) ?_
    refine .trans ?_ (State.Touches.foldl (fun u x => (State.watchPoint_touches _ u x).mono (by decide)) _ _)
    exact State.Touches.mono (ps := [.accounting]) (.of_eq _ rfl) (by decide)
  · exact .refl s _

/-! ### Banks -/

/-- The parts that an event of window accounting or of folding may touch at the banks. -/
def Part.ofAddition : List Part :=
  [.accounting, .bankCounters, .profiles, .banks, .folds, .regs, .table, .exceptions, .latched, .capture, .corrected,
    .exchangeMarks, .accountingMarks, .registerMarks]

theorem State.addToSet_touches (s : State) (b : BankId) (a : Fin 2) (q : Seq16) (m : Nat) (c : Calculation) :
    s.Touches Part.ofAccCheck (s.addToSet b a q m c) := by
  unfold State.addToSet
  refine .trans ?_ ((State.wordsWritten_touches _ _ _).mono (by decide))
  refine .trans ?_ ((State.putBank_touches _ b _).mono (by decide))
  exact (s.checkAccs_touches b a _).trans (State.checkAccs_touches _ b a _)

theorem State.pushOverlong_touches (s : State) (b : BankId) (x : Bank) :
    s.Touches [.exceptions, .latched, .exchangeMarks] (s.pushOverlong b x) := by
  unfold State.pushOverlong
  exact .ite (s.push_touches _ _ _ _ _ _) (.refl s _)

theorem State.addWindow_touches (s : State) (b : BankId) (a : Fin 2) (q : Seq16) (m : Nat) (c : Calculation) :
    s.Touches Part.ofAddition (s.addWindow b a q m c) := by
  unfold State.addWindow
  refine .trans ?_ ((State.pushOverlong_touches _ b _).mono (by decide))
  refine .trans ?_ ((State.heldTest_closeEffect _ b).touches.mono (by decide))
  refine .trans ?_ ((State.putBank_touches _ b _).mono (by decide))
  exact (s.addToSet_touches b a q m c).mono (by decide)

theorem State.countHanded_touches (s : State) (b : BankId) (m : Nat) :
    s.Touches [.bankCounters, .exchangeMarks] (s.countHanded b m) := by
  unfold State.countHanded
  exact .ite (s.putBankCounters_touches _) (.refl s _)

theorem State.countNotAccounted_touches (s : State) : s.Touches [.bankCounters, .exchangeMarks] s.countNotAccounted :=
  s.putBankCounters_touches _

theorem State.windowAddition_touches (s : State) (b : BankId) : s.Touches Part.ofAddition (s.windowAddition b) := by
  have begun (x : Option Accounting) : s.Touches Part.ofAddition { s with accounting := x } :=
    State.Touches.mono (ps := [.accounting]) (.of_eq _ rfl) (by decide)
  have counted (x : Option Accounting) (m : Nat) := (begun x).trans
    ((State.countHanded_touches { s with accounting := x } b m).mono (by decide))
  unfold State.windowAddition
  split
  · split
    · refine .ite (.refl s _) ?_
      dsimp only
      split
      · exact .ite ((counted _ _).trans ((State.countNotAccounted_touches _).mono (by decide)))
          ((counted _ _).trans (State.addWindow_touches _ b _ _ _ _))
      · exact (counted _ _).trans ((State.countNotAccounted_touches _).mono (by decide))
    · exact .refl s _
  · exact .refl s _

theorem State.tariffAt_touches (s : State) (b : BankId) : s.Touches (.bankCounters :: Part.ofClose) (s.tariffAt b) := by
  unfold State.tariffAt
  exact .ite ((s.askClose_closeEffect b _ _).touches.mono (by decide)) ((s.putBankCounters_touches _).mono (by decide))

theorem State.applyStaged_touches (s : State) (b : BankId) : s.Touches [.profiles] (s.applyStaged b) :=
  .foldl (fun s e => s.putProfile_touches (pointAt b e) _) _ s

theorem State.openBank_touches (s : State) (b : BankId) :
    s.Touches [.profiles, .banks, .accounting, .exchangeMarks, .accountingMarks] (s.openBank b) := by
  unfold State.openBank
  dsimp only
  have opened (x : Bank) (o : Fin 2) : s.Touches [.profiles, .banks, .accounting, .exchangeMarks, .accountingMarks]
      (((s.applyStaged b).putBank b x).setWritten b o) :=
    (((s.applyStaged_touches b).seq (State.putBank_touches _ b x) (by decide) (by decide)).trans
      ((State.setWritten_touches _ b o).mono (by decide)))
  have aside (u : State) (x : Option Accounting) :
      u.Touches [.profiles, .banks, .accounting, .exchangeMarks, .accountingMarks] { u with accounting := x } :=
    State.Touches.mono (ps := [.accounting]) (.of_eq _ rfl) (by decide)
  split
  · exact .ite ((opened _ _).trans (aside _ _)) (opened _ _)
  · exact opened _ _

/-! ### The record writer and the folding unit -/

theorem State.returnTake_touches (s : State) : s.Touches [.writer, .exchangeMarks] s.returnTake := by
  unfold State.returnTake
  split
  · exact s.putWriter_touches _
  · exact .refl s _

/-- The parts that a point step may touch. -/
def Part.ofStep : List Part :=
  [.banks, .folds, .regs, .writer, .slots, .table, .exceptions, .latched, .capture, .corrected, .mem, .exchangeMarks,
    .accountingMarks, .registerMarks]

theorem State.stepReads_touches (s : State) (b : BankId) (i : Fin 2) (e : Fin 6) :
    s.Touches Part.ofStep (s.stepReads b i e) := by
  unfold State.stepReads
  exact (((s.checkRegs_touches _ _).trans (State.checkRegs_touches _ _ _)).mono (by decide)).trans
    ((State.checkAccs_touches _ b i _).mono (by decide))

theorem State.stepScale_touches (s : State) (p : SetId) (n : Word) :
    s.Touches [.regs, .exceptions, .latched, .exchangeMarks] (s.stepScale p n) := by
  unfold State.stepScale
  have put := (s.putRegs_touches p s.regs[p].scalePart).mono (qs := [.regs, .exceptions, .latched, .exchangeMarks])
    (by decide)
  dsimp only
  split
  · exact put.trans ((State.push_touches _ _ _ _ _ _ _).mono (by decide))
  · exact put

/-- The parts that the second part of a point step may touch. -/
def Part.ofSettle : List Part :=
  [.regs, .slots, .table, .exceptions, .latched, .mem, .exchangeMarks, .registerMarks]

theorem State.stepSettle_touches (s : State) (p : SetId) (n : Word) (totals : Vector (BitVec 64) 104) :
    s.Touches Part.ofSettle (s.stepSettle p n totals) := by
  unfold State.stepSettle
  dsimp only
  have written : s.Touches Part.ofSettle ((s.putRegs p (s.regs[p].settle totals)).regWritten p s.regs[p].rebasesWord) :=
    ((s.putRegs_touches p _).mono (by decide)).trans ((State.regWritten_touches _ p _).mono (by decide))
  have ended : s.Touches Part.ofSettle (match s.regs[p].dueRebase with
      | some x => ((s.putRegs p (s.regs[p].settle totals)).regWritten p s.regs[p].rebasesWord).endRebase p n x
      | none => (s.putRegs p (s.regs[p].settle totals)).regWritten p s.regs[p].rebasesWord) := by
    split
    · unfold State.endRebase
      exact written.trans ((State.endDeferred_touches _ _ _ _ _ _ _ _).mono (by decide))
    · exact written
  split
  · exact ended.trans ((State.push_touches _ _ _ _ _ _ _).mono (by decide))
  · exact ended

/-- The parts that the record of a step may touch. -/
def Part.ofStepRecord : List Part :=
  [.banks, .folds, .writer, .latched, .capture, .corrected, .mem, .exchangeMarks, .accountingMarks, .registerMarks]

theorem State.stepRecord_touches (s : State) (b : BankId) (e : Fin 6) (f : Fold) (rebased : Bool) :
    s.Touches Part.ofStepRecord (s.stepRecord b e f rebased) := by
  unfold State.stepRecord
  refine .ite ?_ (.refl s _)
  exact ((s.checkAccs_touches b _ _).mono (by decide)).trans
    ((State.writeRecord_recordEffect _ b _ _).touches.mono (by decide))

theorem State.stepInterval_touches (s : State) (p : SetId) (n : Word) :
    s.Touches [.regs, .registerMarks] (s.stepInterval p n) := .of_eq _ rfl

theorem State.stepEntry_touches (s : State) (b : BankId) (f : Fold) (e : Fin 6) :
    s.Touches Part.ofStep (s.stepEntry b f e) := by
  unfold State.stepEntry
  have settled (u : State) : u.Touches Part.ofStep (u.stepSettle (entryPoint b e) f.interval
      (u.banks[b].sets[f.set].totals e)) := (u.stepSettle_touches _ _ _).mono (by decide)
  refine .trans ?_ ((State.putFold_touches _ b _).mono (by decide))
  refine .trans ?_ ((State.stepInterval_touches _ _ _).mono (by decide))
  refine .trans ?_ ((State.stepRecord_touches _ b e f _).mono (by decide))
  refine .trans ?_ (settled _)
  exact (s.stepReads_touches b f.set e).trans ((State.stepScale_touches _ _ _).mono (by decide))

theorem State.pointStep_touches (s : State) (b : BankId) : s.Touches Part.ofStep (s.pointStep b) := by
  unfold State.pointStep
  split
  · exact s.stepEntry_touches b _ _
  · exact .refl s _

theorem State.fillPage_touches (s : State) : s.Touches [.writer, .latched, .exchangeMarks] s.fillPage := by
  unfold State.fillPage
  split
  · exact .of_eq _ rfl
  · exact .refl s _

theorem State.flush_touches (s : State) : s.Touches [.writer, .latched, .exchangeMarks] s.flush := by
  unfold State.flush
  exact .ite s.fillPage_touches (.refl s _)

theorem State.reportCompletion_touches (s : State) (b : BankId) (n : Word) :
    s.Touches Part.ofEndDeferred (s.reportCompletion b n) := by
  unfold State.reportCompletion
  refine .trans ?_ (State.Touches.foldl (fun u e => u.endDeferred_touches _ _ _ _ _ _ _) _ _)
  exact State.Touches.mono (ps := [.table]) (.of_eq _ rfl) (by decide)

theorem State.pushLost_touches (s : State) (b : BankId) (f : Fold) :
    s.Touches [.exceptions, .latched, .exchangeMarks] (s.pushLost b f) := by
  unfold State.pushLost
  exact .ite (.refl s _) (s.push_touches _ _ _ _ _ _)

/-- The parts that a fold completion may touch. -/
def Part.ofCompletion : List Part :=
  [.banks, .profiles, .folds, .regs, .writer, .slots, .table, .exceptions, .latched, .mem, .exchangeMarks, .accountingMarks,
    .registerMarks]

theorem State.completeFold_touches (s : State) (b : BankId) (f : Fold) :
    s.Touches Part.ofCompletion (s.completeFold b f) := by
  unfold State.completeFold
  dsimp only
  refine .trans ?_ ((State.pushLost_touches _ b f).mono (by decide))
  refine .trans ?_ ((State.heldTest_closeEffect _ b).touches.mono (by decide))
  refine .trans ?_ ((State.flush_touches _).mono (by decide))
  refine .trans ?_ ((State.reportCompletion_touches _ b _).mono (by decide))
  have put : s.Touches Part.ofCompletion
      ((s.putBank b { s.banks[b] with phase := s.banks[b].phase.folded }).putFold b none) :=
    ((s.putBank_touches b _).mono (by decide)).trans ((State.putFold_touches _ b _).mono (by decide))
  exact .ite (put.trans ((State.latch_touches _ _).mono (by decide))) put

theorem State.foldCompletion_touches (s : State) (b : BankId) : s.Touches Part.ofCompletion (s.foldCompletion b) := by
  unfold State.foldCompletion
  split
  · exact .ite (.refl s _) (s.completeFold_touches b _)
  · exact .refl s _

/-! ### The host port and the register port -/

theorem State.storeWord_touches (s : State) (w : Nat) (data : Word) (be : BitVec 4) :
    s.Touches [.mem, .capture, .latched, .corrected, .exchangeMarks] (s.storeWord w data be) := by
  unfold State.storeWord
  exact .ite ((s.memory_touches _ _ _).mono (by decide))
    (((s.checkWord_touches w).mono (by decide)).trans ((State.memory_touches _ _ _ _).mono (by decide)))

theorem State.copyBlock_touches (s : State) (w : Nat) :
    s.Touches [.capture, .latched, .corrected, .exchangeMarks] (s.copyBlock w).2 := (s.copyBlock_checked w).touches

theorem State.ownerViolation_touches (s : State) (la : BitVec 16) (data : Word) (be : BitVec 4) :
    s.Touches [.ownerCount, .owner, .exceptions, .capture, .latched, .corrected, .exchangeMarks]
      (s.ownerViolation la data be) := by
  unfold State.ownerViolation
  dsimp only
  refine .trans (t := { s.putWatchCounters { s.watchCounters with owner := s.watchCounters.owner + 1 } with
    notices := { s.notices with owner := true } })
    (State.Touches.mono (ps := [.ownerCount, .owner, .exchangeMarks]) (.of_eq _ rfl) (by decide)) ?_
  refine .ite ?_ (.refl _ _)
  exact ((State.copyBlock_touches _ _).mono (by decide)).trans ((State.push_touches _ _ _ _ _ _ _).mono (by decide))

theorem State.tagViolation_touches (s : State) (g : Guarded) (la : BitVec 16) (data : Word) (be : BitVec 4) :
    s.Touches [.tagCount, .exceptions, .capture, .latched, .corrected, .exchangeMarks] (s.tagViolation g la data be) := by
  unfold State.tagViolation
  dsimp only
  have counted (n : Word) : s.Touches [.tagCount, .exchangeMarks] (s.putWatchCounters { s.watchCounters with tag := n }) :=
    .of_eq _ rfl
  refine .trans ((counted (s.watchCounters.tag + 1)).mono (by decide)) ?_
  exact ((State.copyBlock_touches _ _).mono (by decide)).trans ((State.push_touches _ _ _ _ _ _ _).mono (by decide))

/-- The parts that a host write may touch. -/
def Part.ofHostWrite : List Part :=
  [.mem, .slots, .intake, .writer, .exceptions, .ownerCount, .tagCount, .corrected, .owner, .latched, .capture,
    .exchangeMarks]

theorem State.legalChange_touches {s u : State} {g : Guarded} {v : Word} (h : s.legalChange g v = some u) :
    s.Touches Part.ofHostWrite u := by
  unfold State.legalChange at h
  cases g with
  | slot k =>
    dsimp only at h
    split at h
    · cases h
      exact State.Touches.mono (ps := [.slots, .intake, .exchangeMarks]) (.of_eq _ rfl) (by decide)
    · split at h
      · cases h
        exact (s.setSlot_touches k .free).mono (by decide)
      · cases h
  | page p =>
    dsimp only at h
    split at h
    · cases h
      exact (s.putWriter_touches _).mono (by decide)
    · cases h
  | record i =>
    dsimp only at h
    split at h
    · cases h
      exact (s.putExceptions_touches _).mono (by decide)
    · cases h

theorem State.hostWrite_touches (s : State) (la : BitVec 16) (data : Word) (be : BitVec 4) :
    s.Touches Part.ofHostWrite (s.hostWrite la data be) := by
  unfold State.hostWrite
  refine .ite (.refl s _) ?_
  split
  · next g _ =>
    have violation := (s.tagViolation_touches g la data be).mono (qs := Part.ofHostWrite) (by decide)
    unfold State.guardedWrite
    refine .ite violation (.ite (.refl s _) ?_)
    split
    · next u hu => exact State.legalChange_touches hu
    · exact violation
  · exact .ite ((s.storeWord_touches _ _ _).mono (by decide)) ((s.ownerViolation_touches _ _ _).mono (by decide))

theorem State.hostRead_touches (s : State) (rsel : Bool) (la : BitVec 16) :
    s.Touches [.capture, .latched, .corrected, .exchangeMarks, .ld] (s.hostRead rsel la) := by
  have load (u : State) (w : Word) : u.Touches [.capture, .latched, .corrected, .exchangeMarks, .ld] { u with ld := w } :=
    State.Touches.mono (ps := [.ld]) (.of_eq _ rfl) (by decide)
  unfold State.hostRead
  exact .ite (load s _) (.ite (((s.checkWord_touches _).mono (by decide)).trans (load _ _)) (load s _))

theorem State.writeControl_touches (s : State) (data : Word) (be : BitVec 4) :
    s.Touches [.control, .mask] (s.writeControl data be) := .of_eq _ rfl

theorem State.clearStatus_touches (s : State) (data : Word) (be : BitVec 4) :
    s.Touches [.latched, .owner] (s.clearStatus data be) := .of_eq _ rfl

theorem State.writeRegister_touches (s : State) (la : BitVec 16) (data : Word) (be : BitVec 4) :
    s.Touches [.control, .mask, .latched, .owner] (s.writeRegister la data be) := by
  unfold State.writeRegister
  split
  · exact (s.writeControl_touches data be).mono (by decide)
  · exact (s.clearStatus_touches data be).mono (by decide)
  · exact .refl s _

theorem State.quotaExpiry_touches (s : State) : s.Touches [.quotaCount, .quotaTimer] s.quotaExpiry := by
  unfold State.quotaExpiry
  exact .ite s.refreshQuota_touches (.refl s _)

/-! ### Takes -/

/-- The parts that the beginning of a take touches. -/
def Part.ofTake : List Part := [.intake, .quotaCount, .capture, .latched, .corrected, .exchangeMarks]

theorem State.beginTake_touches (s : State) (k : SlotId) (rest : List SlotId) :
    s.Touches Part.ofTake (s.beginTake k rest) := by
  refine .trans ?_ ((s.beginTake_checked k rest).touches.mono (by decide))
  exact State.Touches.mono (ps := [.intake, .quotaCount]) (.of_eq _ rfl) (by decide)

theorem State.take_touches {ps : List Part} (row : Row) {carry : State → SlotId → State}
    (h : ∀ (s : State) (k : SlotId), s.Touches ps (carry s k)) (s : State) :
    s.Touches (Part.ofTake ++ ps) (s.take row carry) := by
  unfold State.take
  split
  · refine .ite ?_ (.refl s _)
    exact ((s.beginTake_touches _ _).mono fun _ hp => List.mem_append_left _ hp).trans
      ((h _ _).mono fun _ hp => List.mem_append_right _ hp)
  · exact .refl s _

/-- The parts that the end of a slot within its take touches. -/
def Part.ofFinish : List Part := [.slots, .mem, .latched, .exchangeMarks]

theorem State.refuse_touches (s : State) (k : SlotId) (r : Reason) : s.Touches Part.ofFinish (s.refuse k r) :=
  s.finish_touches k _ _

theorem State.done_touches (s : State) (k : SlotId) (r : Reply) : s.Touches Part.ofFinish (s.done k r) :=
  s.finish_touches k _ r

theorem State.takeBadKind_touches (s : State) (k : SlotId) : s.Touches Part.ofFinish (s.takeBadKind k) :=
  s.refuse_touches k _

/-- The parts that a SET_POINT may touch. -/
def Part.ofSetPoint : List Part := [.queue, .profiles] ++ Part.ofRegCheck

theorem State.finishPoint_touches (s : State) (k : SlotId) (p : PointId) (st : SlotState) (r : Reply) :
    s.Touches Part.ofRegCheck (s.finishPoint k p st r) := by
  unfold State.finishPoint
  exact (s.checkRegs_touches _ _).trans ((State.finish_touches _ k st _).mono (by decide))

theorem State.writePoint_touches (s : State) (p : PointId) (r : PointRequest) :
    s.Touches [.queue, .profiles, .regs, .registerMarks] (s.writePoint p r) := by
  unfold State.writePoint
  dsimp only
  refine .trans ?_ ((State.regWritten_touches _ _ _).mono (by decide))
  refine .trans ?_ ((State.putRegs_touches _ _ _).mono (by decide))
  refine .trans ?_ ((State.putProfile_touches _ p _).mono (by decide))
  exact .ite (.refl s _) ((s.markChange_touches p).mono (by decide))

theorem State.headroomReads_touches (s : State) (p : PointId) (v : Fin 4) :
    s.Touches Part.ofRegCheck (s.headroomReads p v) := by
  unfold State.headroomReads
  exact .ite ((s.checkReg_touches _ _).trans (State.checkRegs_touches _ _ _)) (s.checkReg_touches _ _)

theorem State.judgePoint_touches (s : State) (k : SlotId) (p : PointId) (r : PointRequest) :
    s.Touches Part.ofSetPoint (s.judgePoint k p r) := by
  have finish (u : State) (st : SlotState) (x : Reply) := (u.finishPoint_touches k p st x).mono (qs := Part.ofSetPoint)
    (by decide)
  have reads := (s.headroomReads_touches p r.scale).mono (qs := Part.ofSetPoint) (by decide)
  unfold State.judgePoint
  split
  · exact finish s _ _
  · refine .ite (finish s _ _) (.ite (reads.trans (finish _ _ _)) ?_)
    exact (reads.trans ((State.writePoint_touches _ p r).mono (by decide))).trans (finish _ _ _)

theorem State.takeSetPoint_touches (s : State) (k : SlotId) : s.Touches Part.ofSetPoint (s.takeSetPoint k) := by
  unfold State.takeSetPoint
  dsimp only
  split
  · split
    · exact s.judgePoint_touches k _ _
    · exact (s.finishPoint_touches k _ _ _).mono (by decide)
  · exact (s.refuse_touches k _).mono (by decide)

theorem State.takeSetBank_touches (s : State) (k : SlotId) : s.Touches (.banks :: Part.ofFinish) (s.takeSetBank k) := by
  have refuse (r : Reason) := (s.refuse_touches k r).mono (qs := .banks :: Part.ofFinish) (by decide)
  unfold State.takeSetBank
  dsimp only
  split
  · refine .ite (refuse _) ?_
    exact ((s.putBank_touches _ _).mono (by decide)).trans ((State.done_touches _ k _).mono (by decide))
  · exact refuse _

theorem State.writeTiming_touches (s : State) (r : TimingRequest) : s.Touches [.timing, .timeout, .quotaLimit] (s.writeTiming r) :=
  .of_eq _ rfl

theorem State.doneTiming_touches (s : State) (k : SlotId) (n : Nat) : s.Touches Part.ofFinish (s.doneTiming k n) :=
  s.done_touches k _

/-- The parts that a SET_TIMING may touch. -/
def Part.ofSetTiming : List Part := [.timing, .timeout, .quotaLimit] ++ Part.ofFinish

theorem State.takeSetTiming_touches (s : State) (k : SlotId) : s.Touches Part.ofSetTiming (s.takeSetTiming k) := by
  unfold State.takeSetTiming
  split
  · exact ((s.writeTiming_touches _).mono (by decide)).trans ((State.doneTiming_touches _ k _).mono (by decide))
  · exact (s.refuse_touches k _).mono (by decide)

/-- The parts that a START may touch. -/
def Part.ofStart : List Part := [.profiles, .banks, .accounting, .accountingMarks] ++ Part.ofSetTiming

theorem State.takeStart_touches (s : State) (k : SlotId) : s.Touches Part.ofStart (s.takeStart k) := by
  have refuse (r : Reason) := (s.refuse_touches k r).mono (qs := Part.ofStart) (by decide)
  unfold State.takeStart
  split
  · refine .ite (refuse _) ?_
    refine .trans ?_ ((State.doneTiming_touches _ k _).mono (by decide))
    refine .trans ?_ ((State.Touches.foldl State.openBank_touches _ _).mono (by decide))
    exact (s.writeTiming_touches _).mono (by decide)
  · exact refuse _

/-- The parts that a deferred close may touch. -/
def Part.ofDeferredClose : List Part := Part.ofClose ++ Part.ofFinish

theorem State.askBanks_touches (s : State) (bs : List BankId) (c : Causes) (w : SlotId × WaitCause) :
    s.Touches Part.ofClose (s.askBanks bs c w) := (s.askBanks_closeEffect bs c w).touches

theorem State.takeStop_touches (s : State) (k : SlotId) :
    s.Touches (Part.ofDeferredClose ++ Part.ofSetTiming) (s.takeStop k) := by
  have refuse (r : Reason) := (s.refuse_touches k r).mono (qs := Part.ofDeferredClose ++ Part.ofSetTiming) (by decide)
  unfold State.takeStop
  split
  · refine .ite (refuse _) ?_
    refine .trans ?_ ((State.askBanks_touches _ _ _ _).mono (by decide))
    exact ((s.writeTiming_touches _).mono (by decide)).trans ((State.defer_touches _ k _ _).mono (by decide))
  · exact refuse _

theorem State.closeBanks_touches (s : State) (k : SlotId) (kind : BankWork) (bs : List BankId) :
    s.Touches Part.ofDeferredClose (s.closeBanks k kind bs) := by
  unfold State.closeBanks
  exact ((s.defer_touches k _ _).mono (by decide)).trans ((State.askBanks_touches _ _ _ _).mono (by decide))

theorem State.takeClose_touches (s : State) (k : SlotId) : s.Touches Part.ofDeferredClose (s.takeClose k) := by
  have refuse (r : Reason) := (s.refuse_touches k r).mono (qs := Part.ofDeferredClose) (by decide)
  unfold State.takeClose
  refine .ite (refuse _) (.ite (.ite (refuse _) (s.closeBanks_touches k _ _)) ?_)
  split
  · exact .ite (s.closeBanks_touches k _ _) (refuse _)
  · exact refuse _

/-- The parts that a READ_OPEN may touch. -/
def Part.ofReadOpen : List Part := Part.ofAccCheck ++ Part.ofFinish

theorem State.readSet_touches (s : State) (k : SlotId) (p : SetId) (i : Fin 2) (first count : Nat) :
    s.Touches Part.ofReadOpen (s.readSet k p i first count) := by
  unfold State.readSet
  exact ((s.checkAccs_touches _ i _).mono (by decide)).trans ((State.done_touches _ k _).mono (by decide))

theorem State.takeReadOpen_touches (s : State) (k : SlotId) : s.Touches Part.ofReadOpen (s.takeReadOpen k) := by
  have refuse (r : Reason) := (s.refuse_touches k r).mono (qs := Part.ofReadOpen) (by decide)
  unfold State.takeReadOpen
  dsimp only
  split
  · refine .ite ?_ (refuse _)
    split
    · exact s.readSet_touches k _ _ _ _
    · exact refuse _
  · exact refuse _

theorem State.readQuantities_touches (s : State) (k : SlotId) (p : SetId) (first count : Nat) :
    s.Touches Part.ofRegCheck (s.readQuantities k p first count) := by
  unfold State.readQuantities
  exact (s.checkRegs_touches p _).trans ((State.done_touches _ k _).mono (by decide))

theorem State.readNet_touches (s : State) (k : SlotId) (p : SetId) (first count : Nat) :
    s.Touches Part.ofRegCheck (s.readNet k p first count) := by
  unfold State.readNet
  exact (s.checkRegs_touches p _).trans ((State.done_touches _ k _).mono (by decide))

theorem State.judgeRead_touches (s : State) (k : SlotId) (size : Nat) {read : SetId → Nat → Nat → State}
    (h : ∀ p first count, s.Touches Part.ofRegCheck (read p first count)) :
    s.Touches Part.ofRegCheck (s.judgeRead k size read) := by
  have refuse (r : Reason) := (s.refuse_touches k r).mono (qs := Part.ofRegCheck) (by decide)
  unfold State.judgeRead
  dsimp only
  split
  · exact .ite (h _ _ _) (refuse _)
  · exact refuse _

theorem State.takeReadRegisters_touches (s : State) (k : SlotId) : s.Touches Part.ofRegCheck (s.takeReadRegisters k) :=
  s.judgeRead_touches k _ (s.readQuantities_touches k)

theorem State.takeReadRegistersNet_touches (s : State) (k : SlotId) :
    s.Touches Part.ofRegCheck (s.takeReadRegistersNet k) := s.judgeRead_touches k _ (s.readNet_touches k)

theorem State.holdRebase_touches (s : State) (k : SlotId) (p : SetId) (values : List Nat) :
    s.Touches Part.ofRegCheck (s.holdRebase k p values) := by
  unfold State.holdRebase
  dsimp only
  refine .trans ?_ ((State.regWritten_touches _ p _).mono (by decide))
  refine .trans ?_ ((State.putRegs_touches _ p _).mono (by decide))
  exact (s.defer_touches k _ _).mono (by decide)

theorem State.takeRebase_touches (s : State) (k : SlotId) : s.Touches Part.ofRegCheck (s.takeRebase k) := by
  have refuse (u : State) (r : Reason) := (u.refuse_touches k r).mono (qs := Part.ofRegCheck) (by decide)
  unfold State.takeRebase
  dsimp only
  split
  · split
    · refine .ite (refuse s _) ?_
      exact .ite ((s.checkReg_touches _ _).trans (refuse _ _)) ((s.checkReg_touches _ _).trans (State.holdRebase_touches _ k _ _))
    · exact refuse s _
  · exact refuse s _

/-- The parts that a CANCEL may touch. -/
def Part.ofCancel : List Part := [.banks, .regs, .registerMarks] ++ Part.ofEndDeferred

theorem State.withdraw_touches (s : State) (k : SlotId) (w : Work) :
    s.Touches [.banks, .regs, .exchangeMarks, .registerMarks] (s.withdraw k w) := by
  cases w with
  | banks kind out closed => exact .foldl (fun u o => (u.putBank_touches _ _).mono (by decide)) out s
  | rebase p => exact ((s.putRegs_touches p _).mono (by decide)).trans ((State.regWritten_touches _ p _).mono (by decide))

theorem State.cancelSlot_touches (s : State) (k i : SlotId) : s.Touches Part.ofCancel (s.cancelSlot k i) := by
  unfold State.cancelSlot
  dsimp only
  split
  · refine .trans ?_ ((State.done_touches _ k _).mono (by decide))
    refine .trans ?_ ((State.endDeferred_touches _ _ _ _ _ _ _ _).mono (by decide))
    exact (s.withdraw_touches i _).mono (by decide)
  · exact (s.done_touches k _).mono (by decide)

theorem State.takeCancel_touches (s : State) (k : SlotId) : s.Touches Part.ofCancel (s.takeCancel k) := by
  unfold State.takeCancel
  dsimp only
  split
  · exact s.cancelSlot_touches k _
  · exact (s.refuse_touches k _).mono (by decide)

theorem State.takeLink_touches (a : LinkAction) (s : State) (k : SlotId) :
    s.Touches (.links :: Part.ofFinish) (s.takeLink a k) := by
  unfold State.takeLink
  dsimp only
  split
  · exact ((s.linkAction_touches _ a).mono (by decide)).trans ((State.done_touches _ k _).mono (by decide))
  · exact (s.refuse_touches k _).mono (by decide)

theorem State.takeReadCapture_touches (s : State) (k : SlotId) : s.Touches Part.ofFinish (s.takeReadCapture k) := by
  unfold State.takeReadCapture
  exact .ite (s.done_touches k _) (s.refuse_touches k _)

theorem State.takeReadCaptureClear_touches (s : State) (k : SlotId) :
    s.Touches (.capture :: Part.ofFinish) (s.takeReadCaptureClear k) := by
  unfold State.takeReadCaptureClear
  refine .ite ?_ ((s.refuse_touches k _).mono (by decide))
  exact ((s.putCapture_touches none).mono (by decide)).trans ((State.done_touches _ k _).mono (by decide))

/-! ### The completion of a warm reset -/

/-- The parts that a warm reset may touch. -/
def Part.ofWarm : List Part :=
  [.links, .queue, .lastHanded, .heldFrame, .consecutiveLate, .resyncMark, .discarded, .watches, .banks, .regs, .slots,
    .intake, .quotaCount, .quotaTimer, .table, .latched, .capture, .corrected, .mem, .exchangeMarks, .registerMarks]

theorem State.warmLinks_touches (s : State) : s.Touches [.links, .latched, .exchangeMarks] s.warmLinks :=
  .foldl State.warmLink_touches _ s

theorem State.warmSorter_touches (s : State) :
    s.Touches [.queue, .lastHanded, .heldFrame, .consecutiveLate, .resyncMark, .discarded, .exchangeMarks] s.warmSorter :=
  .of_eq _ (by simp only [State.withParts, List.foldl_cons, List.foldl_nil, Part.copy]; rfl)

theorem State.warmWatches_touches (s : State) : s.Touches [.watches] s.warmWatches := .of_eq _ rfl

theorem State.warmBanks_touches (s : State) : s.Touches [.banks, .exchangeMarks] s.warmBanks :=
  .foldl (fun u b => u.putBank_touches b _) _ s

theorem State.warmRegisters_touches (s : State) : s.Touches [.regs, .registerMarks] s.warmRegisters := .of_eq _ rfl

/-- The parts that the request unit's warm reset may touch. -/
def Part.ofWarmRequests : List Part :=
  [.slots, .intake, .quotaCount, .quotaTimer, .table, .latched, .capture, .corrected, .mem, .exchangeMarks]

theorem State.refusePosted_touches (s : State) (k : SlotId) : s.Touches Part.ofWarmRequests (s.refusePosted k) := by
  unfold State.refusePosted
  exact ((s.checkWord_touches _).mono (by decide)).trans ((State.finish_touches _ k _ _).mono (by decide))

theorem State.refuseTaken_touches (s : State) (e : PendingEntry) : s.Touches Part.ofEndDeferred (s.refuseTaken e) :=
  s.endDeferred_touches _ _ _ _ _ _ _

theorem State.warmRequests_touches (s : State) : s.Touches Part.ofWarmRequests s.warmRequests := by
  unfold State.warmRequests
  dsimp only
  refine .trans ?_ ((State.refreshQuota_touches _).mono (by decide))
  have emptied (u : State) : u.Touches [.intake, .table] { u with requests := { u.requests with intake := [], table := [] } } :=
    .of_eq _ rfl
  refine .trans ?_ ((emptied _).mono (by decide))
  refine .trans ?_ ((State.Touches.foldl State.refuseTaken_touches _ _).mono (by decide))
  exact State.Touches.foldl State.refusePosted_touches _ s

theorem State.warmEffects_touches (s : State) : s.Touches Part.ofWarm s.warmEffects := by
  unfold State.warmEffects
  refine .trans ?_ ((State.warmRequests_touches _).mono (by decide))
  refine .trans ?_ ((State.warmRegisters_touches _).mono (by decide))
  refine .trans ?_ ((State.warmBanks_touches _).mono (by decide))
  refine .trans ?_ ((State.warmWatches_touches _).mono (by decide))
  refine .trans ?_ ((State.warmSorter_touches _).mono (by decide))
  exact s.warmLinks_touches.mono (by decide)

theorem State.clearCausesButCapture_touches (s : State) : s.Touches [.latched] s.clearCausesButCapture := .of_eq _ rfl

theorem State.endWarm_touches (s : State) : s.Touches [.control] s.endWarm := .of_eq _ rfl

/-- The held-close tests of all banks. -/
theorem State.heldTests_touches (s : State) (bs : List BankId) : s.Touches Part.ofClose (bs.foldl State.heldTest s) :=
  .foldl (fun u b => (u.heldTest_closeEffect b).touches) bs s

theorem State.warmCompletion_touches (s : State) :
    s.Touches (.control :: (Part.ofWarm ++ Part.ofClose)) s.warmCompletion := by
  unfold State.warmCompletion
  refine .ite ?_ (.refl s _)
  unfold State.completeWarm
  refine .trans ?_ ((State.heldTests_touches _ _).mono (by decide))
  refine .trans ?_ ((State.endWarm_touches _).mono (by decide))
  refine .trans ?_ ((State.clearCausesButCapture_touches _).mono (by decide))
  exact s.warmEffects_touches.mono (by decide)

end Sys2Proof.Machine
end

section
/-! SUPPORT. What each command may touch, and the statements that follow from the form of a command alone. -/

namespace Sys2Proof.Machine

/-! ### The frame of a command -/

/-- Every part but the queue of commands. -/
def Part.allButPending : List Part :=
  [.links] ++ Part.ofSorter ++ [.accounting, .watches, .profiles, .banks, .timing, .bankCounters, .folds, .regs, .writer] ++
    Part.ofRequests ++ [.exceptions, .latched, .mask, .owner, .capture, .control, .ownerCount, .tagCount, .corrected, .mem,
    .exchangeMarks, .accountingMarks, .registerMarks, .ld]

/-- The parts that a command may touch. -/
def commandParts : Instr → List Part
  | .goodFrame _ _ | .badFrame _ _ | .huntCandidate _ _ | .silenceTimerExpiry _ => [.links, .halted, .latched, .exchangeMarks]
  | .sorterTake _ => .links :: Part.ofSorting
  | .alignmentTimerExpiry _ => [.queue, .accounting]
  | .calculation => [.accounting, .watches, .exceptions, .latched, .exchangeMarks]
  | .windowAddition _ => Part.ofAddition
  | .release => .quotaCount :: .quotaTimer :: Part.ofSorting
  | .tariffEvent => .bankCounters :: Part.ofClose
  | .pointStep _ => Part.ofStep
  | .foldCompletion _ => Part.ofCompletion
  | .hostWrite _ _ _ => Part.ofHostWrite
  | .returnTake => [.writer, .exchangeMarks]
  | .hostRead _ _ => [.capture, .latched, .corrected, .exchangeMarks, .ld]
  | .quotaTimerExpiry => [.quotaCount, .quotaTimer]
  | .badKind | .readCapture => Part.ofTake ++ Part.ofFinish
  | .setPoint => Part.ofTake ++ Part.ofSetPoint
  | .setBank => Part.ofTake ++ .banks :: Part.ofFinish
  | .setTiming => Part.ofTake ++ Part.ofSetTiming
  | .start => Part.ofTake ++ Part.ofStart
  | .stop => Part.ofTake ++ (Part.ofDeferredClose ++ Part.ofSetTiming)
  | .close => Part.ofTake ++ Part.ofDeferredClose
  | .readOpen => Part.ofTake ++ Part.ofReadOpen
  | .readRegisters | .readRegistersNet | .rebase => Part.ofTake ++ Part.ofRegCheck
  | .cancel => Part.ofTake ++ Part.ofCancel
  | .linkControlEnable | .linkControlDisable | .linkControlReset | .linkControlClear =>
    Part.ofTake ++ .links :: Part.ofFinish
  | .readCaptureClear => Part.ofTake ++ .capture :: Part.ofFinish
  | .run _ _ | .noticeEnableMask _ _ | .warmReset _ _ => [.control, .mask]
  | .warmResetCompletion => .control :: (Part.ofWarm ++ Part.ofClose)
  | .lwstatWrite _ _ => [.latched, .owner]
  | .registerWriteIgnored _ _ _ => [.control, .mask, .latched, .owner]
  | .coldReset | .ready => Part.allButPending

/-- A state that keeps the queue of commands keeps the one part outside `Part.allButPending`. -/
theorem State.touches_allButPending {s t : State} (h : t.pending = s.pending) : s.Touches Part.allButPending t := by
  intro p
  by_cases hp : p = .pending
  · exact Or.inr (hp ▸ h)
  · left
    revert hp
    cases p <;> decide

theorem commandEffect_touches (c : Instr) (s : State) : s.Touches (commandParts c) (commandEffect c s) := by
  cases c with
  | goodFrame l bytes => exact (s.receive_linkEvent l bytes).touches
  | badFrame l bytes => exact (s.receive_linkEvent l bytes).touches
  | huntCandidate l bytes => exact (s.receive_linkEvent l bytes).touches
  | silenceTimerExpiry l => exact (s.silenceExpiry_linkEvent l).touches
  | sorterTake l => exact s.sorterTake_touches l
  | alignmentTimerExpiry q => exact s.alignmentExpiry_touches q
  | calculation => exact s.calculate_touches
  | windowAddition b => exact s.windowAddition_touches b
  | release => exact s.release_touches
  | tariffEvent => exact .foldl State.tariffAt_touches _ s
  | pointStep b => exact s.pointStep_touches b
  | foldCompletion b => exact s.foldCompletion_touches b
  | hostWrite la data be => exact s.hostWrite_touches la data be
  | returnTake => exact s.returnTake_touches
  | hostRead rsel la => exact s.hostRead_touches rsel la
  | quotaTimerExpiry => exact s.quotaExpiry_touches
  | badKind => exact State.take_touches _ State.takeBadKind_touches s
  | setPoint => exact State.take_touches _ State.takeSetPoint_touches s
  | setBank => exact State.take_touches _ State.takeSetBank_touches s
  | setTiming => exact State.take_touches _ State.takeSetTiming_touches s
  | start => exact State.take_touches _ State.takeStart_touches s
  | stop => exact State.take_touches _ State.takeStop_touches s
  | close => exact State.take_touches _ State.takeClose_touches s
  | readOpen => exact State.take_touches _ State.takeReadOpen_touches s
  | readRegisters => exact State.take_touches _ State.takeReadRegisters_touches s
  | readRegistersNet => exact State.take_touches _ State.takeReadRegistersNet_touches s
  | rebase => exact State.take_touches _ State.takeRebase_touches s
  | cancel => exact State.take_touches _ State.takeCancel_touches s
  | linkControlEnable => exact State.take_touches _ (State.takeLink_touches _) s
  | linkControlDisable => exact State.take_touches _ (State.takeLink_touches _) s
  | linkControlReset => exact State.take_touches _ (State.takeLink_touches _) s
  | linkControlClear => exact State.take_touches _ (State.takeLink_touches _) s
  | readCapture => exact State.take_touches _ State.takeReadCapture_touches s
  | readCaptureClear => exact State.take_touches _ State.takeReadCaptureClear_touches s
  | run data be => exact s.writeControl_touches data be
  | noticeEnableMask data be => exact s.writeControl_touches data be
  | warmReset data be => exact s.writeControl_touches data be
  | warmResetCompletion => exact s.warmCompletion_touches
  | lwstatWrite data be => exact s.clearStatus_touches data be
  | registerWriteIgnored la data be => exact s.writeRegister_touches la data be
  | coldReset => exact State.touches_allButPending rfl
  | ready => exact .ite (.refl s _) (State.touches_allButPending rfl)

/-- The frame of a command that has run. -/
theorem exec_touches {c : Instr} {s t : State} (h : exec c s = .next t) : s.Touches (commandParts c) t := by
  rcases exec_next_cases h with rfl | rfl
  · exact .refl _ _
  · exact commandEffect_touches c s

theorem pending_notMem_commandParts (c : Instr) : Part.pending ∉ commandParts c := by
  cases c <;> exact of_decide_eq_true rfl

/-- Settles O2: a command answers its effect or the state as it was, and no command's frame holds the queue. -/
theorem everyCommandCompletes : Obligations.EveryCommandCompletes := by
  unfold Obligations.EveryCommandCompletes
  intro c s
  exact ⟨_, exec_eq_commandEffect c s, (exec_touches (exec_eq_commandEffect c s)).pending (pending_notMem_commandParts c)⟩

/-- Settles O1: the two cases of `step`. -/
theorem stepRunsFrontCommand : Obligations.StepRunsFrontCommand := by
  unfold Obligations.StepRunsFrontCommand
  exact ⟨fun _ _ _ h => step_of_pending h, fun _ h => step_of_idle h⟩

/-! ### The take of a page return and the quota timer -/

theorem State.returnTake_of_cons {s : State} {p : PageId} {rest : List PageId} (h : s.writer.returns = p :: rest) :
    s.returnTake = s.putWriter { s.writer with
      pages := s.writer.pages.set p .free, freeQueue := s.writer.freeQueue ++ [p], returns := rest } := by
  unfold State.returnTake; rw [h]

theorem State.returnTake_of_nil {s : State} (h : s.writer.returns = []) : s.returnTake = s := by
  unfold State.returnTake; rw [h]

/-- Settles O47: both rows by the cases of their conditions. -/
theorem returnTakeAndQuotaExpiry : Obligations.ReturnTakeAndQuotaExpiry := by
  unfold Obligations.ReturnTakeAndQuotaExpiry
  intro s hready
  refine ⟨fun p rest h => ?_, fun h => ?_, fun h => ?_, fun h => ?_⟩
  · rw [exec_of_ready _ hready]
    refine ⟨_, congrArg _ (State.returnTake_of_cons h), rfl, rfl⟩
  · rw [exec_of_ready _ hready]
    exact congrArg _ (State.returnTake_of_nil h)
  · rw [exec_of_ready _ hready]
    simp only [commandEffect, State.quotaExpiry, if_pos (Option.isSome_iff_ne_none.mpr h)]
    rfl
  · rw [exec_of_ready _ hready]
    simp [commandEffect, State.quotaExpiry, h]

end Sys2Proof.Machine
end

section
/-! SUPPORT. Every step keeps the receivers within their limits (R1, R7, R8, R12). -/

namespace Sys2Proof.Machine

/-- An entry of a vector after one entry was set. -/
theorem getElem_fin_set {α : Type} {n : Nat} (v : Vector α n) (i j : Fin n) (x : α) :
    (v.set i x)[j] = if j = i then x else v[j] := by
  simp only [Fin.getElem_fin, Vector.getElem_set, eq_comm (a := j), Fin.ext_iff]

@[simp] theorem getElem_fin_set_self {α : Type} {n : Nat} (v : Vector α n) (i : Fin n) (x : α) : (v.set i x)[i] = x := by
  rw [getElem_fin_set, if_pos rfl]

theorem getElem_fin_set_of_ne {α : Type} {n : Nat} (v : Vector α n) {i j : Fin n} (x : α) (h : j ≠ i) :
    (v.set i x)[j] = v[j] := by
  rw [getElem_fin_set, if_neg h]

/-! ### One receiver -/

/-- A receiver after a change of state (R9). -/
theorem Receiver.Ok.change {r : Receiver} (h : r.fifo.length ≤ 4) (st : RxState) :
    ({ r with state := st, inProgress := [], consecutiveBad := 0
              silenceTimer := if st = .sync then some Config.silenceMs else none } : Receiver).Ok := by
  refine ⟨h, by simp, ?_, fun _ => rfl⟩
  dsimp only
  split
  next hst => simp [hst]
  next hst => simp [hst]

/-- The FIFO alone matters of what a receiver holds for the host. -/
theorem Receiver.Ok.withFifo {r : Receiver} (h : r.Ok) {fifo : List TaggedFrame} (hf : fifo.length ≤ 4) (e : LinkErrors)
    (good bad lost : Word) : ({ r with fifo := fifo, errors := e, good := good, bad := bad, lost := lost } : Receiver).Ok :=
  ⟨hf, h.2⟩

theorem Receiver.place_fifo_length (r : Receiver) (f : WindowFrame) (h : r.fifo.length ≤ 4) :
    (r.place f).fifo.length ≤ 4 := by
  unfold Receiver.place
  split
  · simp only [List.length_append, List.length_cons, List.length_nil]; omega
  · simp only [List.length_append, List.length_dropLast, List.length_cons, List.length_nil]; omega

theorem Receiver.place_state (r : Receiver) (f : WindowFrame) :
    (r.place f).state = r.state ∧ (r.place f).inProgress = r.inProgress ∧ (r.place f).consecutiveBad = r.consecutiveBad ∧
      (r.place f).silenceTimer = r.silenceTimer := by
  unfold Receiver.place
  split <;> exact ⟨rfl, rfl, rfl, rfl⟩

theorem Receiver.Ok.place {r : Receiver} (h : r.Ok) (f : WindowFrame) : (r.place f).Ok := by
  obtain ⟨hstate, hprogress, hbad, htimer⟩ := r.place_state f
  refine ⟨r.place_fifo_length f h.1, ?_⟩
  rw [hstate, hprogress, hbad, htimer]
  exact h.2

/-! ### The receivers together -/

theorem State.LinksOk.of_touches {s t : State} {ps : List Part} (hs : s.LinksOk) (h : s.Touches ps t)
    (hp : Part.links ∉ ps) : t.LinksOk := by
  unfold State.LinksOk
  rw [h.links hp]
  exact hs

theorem State.LinksOk.set {s t : State} (hs : s.LinksOk) {l : LinkId} {r : Receiver} (hr : r.Ok)
    (ht : t.links = s.links.set l r) : t.LinksOk := by
  intro j
  rw [ht, getElem_fin_set]
  split
  · exact hr
  · exact hs j

theorem State.LinksOk.changeReceiver {s : State} (hs : s.LinksOk) (l : LinkId) (st : RxState) :
    (s.changeReceiver l st).LinksOk :=
  hs.set (.change (hs l).1 st) (s.changeReceiver_links l st)

/-- A receiver after one more good frame: the count, no bad frames in a row, the silence timer restarted (R6, R10). -/
def Receiver.countGood (r : Receiver) : Receiver :=
  { r with good := r.good + 1, consecutiveBad := 0, silenceTimer := some Config.silenceMs }

/-- A receiver after a good frame: counted, and a WINDOW frame placed while RUN is 1 (R6, R10, R12). -/
def Receiver.afterGood (r : Receiver) (run : Bool) : FrameBody → Receiver
  | .idle => r.countGood
  | .window f => if run = true then r.countGood.place f else r.countGood

theorem State.goodFrame_links (s : State) (l : LinkId) (x : FrameBody) :
    (s.goodFrame l x).links = s.links.set l (s.links[l].afterGood s.control.run x) := by
  unfold State.goodFrame Receiver.afterGood
  cases x with
  | idle => rfl
  | window f => cases hrun : s.control.run <;> simp [Receiver.countGood]

theorem Receiver.afterGood_state (r : Receiver) (run : Bool) (x : FrameBody) :
    (r.afterGood run x).state = r.state ∧ (r.afterGood run x).inProgress = r.inProgress := by
  cases x with
  | idle => exact ⟨rfl, rfl⟩
  | window f =>
    unfold Receiver.afterGood
    dsimp only
    split
    · exact ⟨(Receiver.place_state _ f).1, (Receiver.place_state _ f).2.1⟩
    · exact ⟨rfl, rfl⟩

theorem Receiver.Ok.afterGood {r : Receiver} (h : r.Ok) (hstate : r.state = .sync) (run : Bool) (x : FrameBody) :
    (r.afterGood run x).Ok := by
  have counted : r.countGood.Ok := ⟨h.1, Nat.zero_le _, iff_of_true rfl hstate, h.2.2.2⟩
  cases x with
  | idle => exact counted
  | window f =>
    unfold Receiver.afterGood
    dsimp only
    split
    · exact counted.place f
    · exact counted

/-- A receiver after one more bad frame with its error, still in SYNC (R7). -/
def Receiver.countBad (r : Receiver) (crc : Bool) : Receiver :=
  { r with
    bad := r.bad + 1
    errors := if crc = true then { r.errors with crc := true } else { r.errors with format := true }
    consecutiveBad := r.consecutiveBad + 1 }

/-- A receiver after a bad frame: the third in a row takes it to HUNT (R7, R9). -/
def Receiver.afterBad (r : Receiver) (crc : Bool) : Receiver :=
  if r.consecutiveBad + 1 < 3 then r.countBad crc
  else { r.countBad crc with state := .hunt, inProgress := [], consecutiveBad := 0, silenceTimer := none }

theorem State.badFrame_eq (s : State) (l : LinkId) (crc : Bool) : s.badFrame l crc =
    if s.links[l].consecutiveBad + 1 < 3 then s.putLink l (s.links[l].countBad crc)
    else (s.putLink l (s.links[l].countBad crc)).changeReceiver l .hunt := rfl

theorem State.badFrame_links (s : State) (l : LinkId) (crc : Bool) :
    (s.badFrame l crc).links = s.links.set l (s.links[l].afterBad crc) := by
  rw [State.badFrame_eq]
  unfold Receiver.afterBad
  by_cases h : s.links[l].consecutiveBad + 1 < 3
  · rw [if_pos h, if_pos h, State.putLink_links]
  · rw [if_neg h, if_neg h, State.changeReceiver_links, State.putLink_links, getElem_fin_set_self, Vector.set_set]
    rfl

theorem Receiver.afterBad_state_ne_down {r : Receiver} (h : r.state = .sync) (crc : Bool) :
    (r.afterBad crc).state ≠ .down := by
  unfold Receiver.afterBad
  split
  · exact fun hd => by cases h.symm.trans hd
  · exact fun hd => by cases hd

theorem Receiver.Ok.afterBad {r : Receiver} (h : r.Ok) (crc : Bool) : (r.afterBad crc).Ok := by
  unfold Receiver.afterBad
  split
  next hfew => exact ⟨h.1, Nat.lt_succ_iff.mp hfew, h.2.2⟩
  · exact .change (r := r.countBad crc) h.1 .hunt

theorem State.LinksOk.goodFrame {s : State} (hs : s.LinksOk) (l : LinkId) (hl : s.links[l].state = .sync) (x : FrameBody) :
    (s.goodFrame l x).LinksOk :=
  hs.set ((hs l).afterGood hl _ x) (s.goodFrame_links l x)

theorem State.goodFrame_state (s : State) (l : LinkId) (x : FrameBody) :
    (s.goodFrame l x).links[l].state = s.links[l].state := by
  rw [State.goodFrame_links, getElem_fin_set_self, (Receiver.afterGood_state _ _ x).1]

theorem State.LinksOk.badFrame {s : State} (hs : s.LinksOk) (l : LinkId) (crc : Bool) : (s.badFrame l crc).LinksOk :=
  hs.set ((hs l).afterBad crc) (s.badFrame_links l crc)

theorem State.badFrame_state_ne_down {s : State} {l : LinkId} (hl : s.links[l].state = .sync) (crc : Bool) :
    (s.badFrame l crc).links[l].state ≠ .down := by
  rw [State.badFrame_links, getElem_fin_set_self]
  exact Receiver.afterBad_state_ne_down hl crc

theorem State.LinksOk.keepStream {s : State} (hs : s.LinksOk) (l : LinkId) {stream : List Byte}
    (h : s.links[l].state = .down → stream = []) : (s.keepStream l stream).LinksOk :=
  hs.set (r := { s.links[l] with inProgress := stream }) ⟨(hs l).1, (hs l).2.1, (hs l).2.2.1, h⟩ rfl

/-- The search of a stream, by the rounds it takes; a link that is not DOWN does not become DOWN on the way. -/
theorem State.LinksOk.resolve {s : State} (hs : s.LinksOk) (fuel : Nat) (l : LinkId) (hl : s.links[l].state ≠ .down)
    (stream : List Byte) : (s.resolve fuel l stream).LinksOk := by
  induction fuel generalizing s stream with
  | zero => exact hs.keepStream l fun h => absurd h hl
  | succ n ih =>
    unfold State.resolve
    split
    next h => exact absurd h hl
    next h =>
      split
      · exact hs.keepStream l fun h => absurd h hl
      · have changed : (s.changeReceiver l .sync).links[l].state = .sync := by
          rw [State.changeReceiver_links, getElem_fin_set_self]
        refine ih ((hs.changeReceiver l .sync).goodFrame l changed _) ?_ _
        rw [State.goodFrame_state, changed]
        decide
      · exact ih hs hl _
    next h =>
      have good (x : FrameBody) : (s.goodFrame l x).links[l].state ≠ .down := by
        rw [State.goodFrame_state, h]; decide
      split
      · exact hs.keepStream l fun h => absurd h hl
      · exact ih hs hl _
      · exact ih (hs.badFrame l _) (State.badFrame_state_ne_down h _) _
      · exact ih (hs.badFrame l _) (State.badFrame_state_ne_down h _) _
      · exact ih (hs.badFrame l _) (State.badFrame_state_ne_down h _) _
      · exact ih (hs.goodFrame l h _) (good _) _

theorem State.LinksOk.receive {s : State} (hs : s.LinksOk) (l : LinkId) (bytes : List Byte) : (s.receive l bytes).LinksOk := by
  unfold State.receive
  split
  · exact hs
  next h => exact hs.resolve _ l h _

theorem State.LinksOk.silenceExpiry {s : State} (hs : s.LinksOk) (l : LinkId) : (s.silenceExpiry l).LinksOk := by
  unfold State.silenceExpiry
  split
  · exact hs
  · exact State.LinksOk.changeReceiver
      (hs.set (r := { s.links[l] with errors := { s.links[l].errors with silence := true } }) (hs l) rfl) l .hunt

theorem State.LinksOk.linkAction {s : State} (hs : s.LinksOk) (l : LinkId) (a : LinkAction) : (s.linkAction l a).LinksOk := by
  unfold State.linkAction
  cases a with
  | enable =>
    dsimp only
    split
    · exact hs.changeReceiver l .hunt
    · exact hs
  | disable =>
    dsimp only
    split
    · exact hs
    · exact State.LinksOk.changeReceiver (s := s.putLink l _)
        (hs.set (r := { s.links[l] with fifo := [] }) ((hs l).withFifo (by simp) _ _ _ _) rfl) l .down
  | reset =>
    have emptied : ((s.putLink l { s.links[l] with fifo := [], errors := noErrors, inProgress := [] }).mirrorWritten l).LinksOk :=
      hs.set (r := { s.links[l] with fifo := [], errors := noErrors, inProgress := [] })
        ⟨by simp, (hs l).2.1, (hs l).2.2.1, fun _ => rfl⟩ rfl
    dsimp only
    split
    · exact emptied
    · exact emptied.changeReceiver l .hunt
  | clear => exact hs.set (r := { s.links[l] with errors := noErrors }) (hs l) rfl

theorem State.LinksOk.warmLink {s : State} (hs : s.LinksOk) (l : LinkId) : (s.warmLink l).LinksOk := by
  unfold State.warmLink
  dsimp only
  split
  · exact hs
  · exact hs.set (r := { s.links[l] with fifo := [], inProgress := [] }) ⟨by simp, (hs l).2.1, (hs l).2.2.1, fun _ => rfl⟩ rfl
  · exact State.LinksOk.changeReceiver (s := s.putLink l _)
      (hs.set (r := { s.links[l] with fifo := [] }) ((hs l).withFifo (by simp) _ _ _ _) rfl) l .hunt

/-- A predicate that every element's step keeps is kept by the repetition over a list. -/
theorem foldl_keeps {α : Type} {P : State → Prop} {f : State → α → State} (xs : List α)
    (h : ∀ (s : State) (x : α), x ∈ xs → P s → P (f s x)) {s : State} (hs : P s) : P (xs.foldl f s) := by
  induction xs generalizing s with
  | nil => exact hs
  | cons x xs ih =>
    exact ih (fun s y hy => h s y (List.mem_cons_of_mem _ hy)) (h s x List.mem_cons_self hs)

/-! ### The commands -/

/-- A take keeps what its beginning and its carrying out keep. -/
theorem State.take_keeps {P : State → Prop} (row : Row) {carry : State → SlotId → State} {s : State}
    (hbegin : ∀ k rest, s.requests.intake = k :: rest → s.mayTake = true → P (carry (s.beginTake k rest) k)) (hs : P s) :
    P (s.take row carry) := by
  unfold State.take
  split
  next k rest h =>
    split
    next hmay => exact hbegin k rest h (by simpa using And.left (by simpa using hmay))
    · exact hs
  · exact hs

theorem State.LinksOk.takeLink {s : State} (hs : s.LinksOk) (a : LinkAction) : (s.take (.link a) (State.takeLink a)).LinksOk := by
  refine State.take_keeps _ (fun k rest _ _ => ?_) hs
  have begun : (s.beginTake k rest).LinksOk := hs.of_touches (s.beginTake_touches k rest) (by decide)
  unfold State.takeLink
  dsimp only
  split
  · exact (begun.linkAction _ a).of_touches (State.done_touches _ k _) (by decide)
  · exact begun.of_touches (State.refuse_touches _ k _) (by decide)

theorem State.LinksOk.warmCompletion {s : State} (hs : s.LinksOk) : s.warmCompletion.LinksOk := by
  have links : s.warmLinks.LinksOk := by
    unfold State.warmLinks
    exact foldl_keeps (P := State.LinksOk) _ (fun _ l _ hu => hu.warmLink l) hs
  have effects : s.warmEffects.LinksOk := by
    unfold State.warmEffects
    refine State.LinksOk.of_touches ?_ (State.warmRequests_touches _) (by decide)
    refine State.LinksOk.of_touches ?_ (State.warmRegisters_touches _) (by decide)
    refine State.LinksOk.of_touches ?_ (State.warmBanks_touches _) (by decide)
    refine State.LinksOk.of_touches ?_ (State.warmWatches_touches _) (by decide)
    exact links.of_touches (State.warmSorter_touches _) (by decide)
  unfold State.warmCompletion
  split
  · unfold State.completeWarm
    refine State.LinksOk.of_touches ?_ (State.heldTests_touches _ _) (by decide)
    refine State.LinksOk.of_touches ?_ (State.endWarm_touches _) (by decide)
    exact effects.of_touches (State.clearCausesButCapture_touches _) (by decide)
  · exact hs

theorem State.LinksOk.sorterTake {s : State} (hs : s.LinksOk) (l : LinkId) : (s.sorterTake l).LinksOk := by
  unfold State.sorterTake
  split
  next x rest _ hfifo =>
    have shorter : rest.length ≤ 4 := by
      have := (hs l).1
      rw [hfifo] at this
      simp only [List.length_cons] at this
      omega
    have popped : (s.putLink l { s.links[l] with fifo := rest }).LinksOk :=
      hs.set (r := { s.links[l] with fifo := rest }) ((hs l).withFifo shorter _ _ _ _) rfl
    exact (popped.of_touches (State.handleFrame_touches _ l x) (by decide)).of_touches (State.tryHandOff_touches _) (by decide)
  · exact hs

theorem State.linksOk_of_reset {s : State} (h : s.links = State.reset.links) : s.LinksOk := by
  intro l
  rw [h]
  simp [State.reset, State.resetReceiver, Receiver.Ok]

theorem State.LinksOk.commandEffect {s : State} (hs : s.LinksOk) (c : Instr) : (commandEffect c s).LinksOk := by
  cases c
  case goodFrame l bytes => exact hs.receive l bytes
  case badFrame l bytes => exact hs.receive l bytes
  case huntCandidate l bytes => exact hs.receive l bytes
  case silenceTimerExpiry l => exact hs.silenceExpiry l
  case sorterTake l => exact hs.sorterTake l
  case linkControlEnable => exact hs.takeLink .enable
  case linkControlDisable => exact hs.takeLink .disable
  case linkControlReset => exact hs.takeLink .reset
  case linkControlClear => exact hs.takeLink .clear
  case warmResetCompletion => exact hs.warmCompletion
  case coldReset => exact State.linksOk_of_reset rfl
  case ready =>
    unfold Machine.commandEffect
    dsimp only
    split
    · exact hs
    · exact State.linksOk_of_reset rfl
  all_goals exact hs.of_touches (commandEffect_touches _ s) (of_decide_eq_true rfl)

/-- Settles O8: the receivers' events, the sorter's take, LINK_CONTROL and the resets one by one; no other command touches a
receiver. -/
theorem stepKeepsLinks : Obligations.StepKeepsLinks :=
  step_keeps State.LinksOk (fun _ _ h => h) fun c _ h => h.commandEffect c

end Sys2Proof.Machine
end

section
/-! SUPPORT. Every step keeps exchange memory canonical and inside the 262,144 bytes of R128. -/

namespace Sys2Proof.Machine

/-! ### Places and lengths -/

theorem slotByte_le (k : SlotId) : slotByte k + 512 ≤ 20480 := by
  have := k.isLt
  unfold slotByte
  omega

theorem pageByte_bounds (p : PageId) : 24576 ≤ pageByte p ∧ pageByte p + 4096 ≤ 262144 := by
  have := p.isLt
  unfold pageByte
  omega

/-- A list of equally long pieces. -/
theorem length_flatMap_of_length {α β : Type} (xs : List α) (f : α → List β) (n : Nat) (h : ∀ x ∈ xs, (f x).length = n) :
    (xs.flatMap f).length = n * xs.length := by
  induction xs with
  | nil => simp
  | cons x xs ih =>
    rw [List.flatMap_cons, List.length_append, h x List.mem_cons_self, ih fun y hy => h y (List.mem_cons_of_mem _ hy),
      List.length_cons, Nat.mul_succ, Nat.add_comm]

theorem Quantity.bytes_length (q : Quantity) (scale : Fin 4) : (q.bytes scale).length = 16 := by
  simp [Quantity.bytes]

theorem NetItem.bytes_length (x : NetItem) (scale : Fin 4) : (x.bytes scale).length = 16 := by
  simp [NetItem.bytes]

theorem RegisterSet.bytes_succ (r : RegisterSet) (first count : Nat) : r.bytes first (count + 1) =
    r.bytes first count ++ (match r.quantities[first + count]? with
      | some q => q.bytes r.scale
      | none => []) := by
  simp only [RegisterSet.bytes, List.range_succ, List.flatMap_append, List.flatMap_cons, List.flatMap_nil, List.append_nil]
    <;> rfl

/-- Sixteen bytes for each quantity that exists. -/
theorem RegisterSet.bytes_length (r : RegisterSet) (first count : Nat) :
    (r.bytes first count).length = 16 * min count (104 - first) := by
  induction count with
  | zero => simp [RegisterSet.bytes]
  | succ n ih =>
    rw [RegisterSet.bytes_succ, List.length_append, ih]
    by_cases h : first + n < 104
    · rw [Vector.getElem?_eq_getElem h]
      simp only [Quantity.bytes_length]
      omega
    · rw [Vector.getElem?_eq_none (by omega)]
      simp only [List.length_nil]
      omega

theorem RegisterSet.netBytes_length (r : RegisterSet) (first count : Nat) :
    (r.netBytes first count).length = 16 * count := by
  rw [RegisterSet.netBytes, length_flatMap_of_length _ _ 16 fun _ _ => NetItem.bytes_length _ _, List.length_range]

theorem closedInOrder_length_le (closed : List (BankId × Word)) : (closedInOrder closed).length ≤ 8 := by
  unfold closedInOrder
  exact (List.length_filterMap_le _ _).trans (by simp)

theorem closedBytes_length (closed : List (BankId × Word)) :
    (closedBytes closed).length = 8 * (closedInOrder closed).length :=
  length_flatMap_of_length _ _ 8 fun _ _ => by simp

theorem closedBytes_length_le (closed : List (BankId × Word)) : (closedBytes closed).length ≤ 64 := by
  have := closedInOrder_length_le closed
  rw [closedBytes_length]
  omega

theorem quantityRange_length_le (first count : Nat) : (quantityRange first count).length ≤ count := by
  have inside : ((quantityRange first count).map Fin.val).Subset (List.range' first count) := by
    intro n hn
    obtain ⟨q, hq, rfl⟩ := List.mem_map.mp hn
    have := (List.mem_filter.mp hq).2
    simp only [Bool.and_eq_true, decide_eq_true_eq] at this
    exact List.mem_range'_1.mpr this
  have distinct : ((quantityRange first count).map Fin.val).Nodup :=
    (List.nodup_finRange 104 |>.filter _).map Fin.val_injective
  simpa using (distinct.subperm inside).length_le

theorem mappingBytes_length (m : Option Mapping) : (mappingBytes m).length = 2 := by
  cases m <;> simp [mappingBytes]

theorem Profile.echo_length (x : Profile) (r : RegisterSet) : (x.echo r).length = 20 := by
  cases hm : x.stagedMapping with
  | none => simp [Profile.echo, hm, mappingBytes_length]
  | some m => simp [Profile.echo, hm, mappingBytes_length]

theorem Timing.bytes_length (x : Timing) : x.bytes.length = 12 := by simp [Timing.bytes]

theorem State.timingEcho_length (s : State) : s.timingEcho.length = 148 := by
  have banks : ((List.finRange 8).flatMap fun b => leBytes 4 s.banks[b].phase.code ++ s.banks[b].timing.bytes).length
      = 16 * (List.finRange 8).length := length_flatMap_of_length _ _ 16 fun _ _ => by simp [Timing.bytes_length]
  simp only [State.timingEcho, List.length_append, banks, Timing.bytes_length, leBytes_length, List.length_finRange]

theorem captureBytes_length (c : Option Capture) : (captureBytes c).length = 16 := by
  rw [captureBytes, length_flatMap_of_length _ _ 4 fun _ _ => by simp, List.length_range]

theorem cancelBytes_length (i : SlotId) (e : Option PendingEntry) (st : SlotState) : (cancelBytes i e st).length = 12 := by
  simp [cancelBytes]

theorem linkBytes_length (before after : Receiver) : (linkBytes before after).length = 24 := by
  simp [linkBytes]

theorem harmonicBytes_length (acc : Vector (BitVec 64) 104) (j : Fin 49) : (harmonicBytes acc j).length = 24 := by
  simp [harmonicBytes]

/-- An interval record has 112 bytes and 24 for each harmonic entry (spec 11.4). -/
theorem RecordHead.bytes_length (h : RecordHead) (acc : Vector (BitVec 64) 104) :
    (h.bytes acc).length = 112 + 24 * (recordOrders acc).length := by
  have fundamental : ((List.finRange 6).flatMap fun q =>
      leBytes 8 acc[(⟨q.val, by omega⟩ : Fin 104)].toNat).length = 8 * (List.finRange 6).length :=
    length_flatMap_of_length _ _ 8 fun _ _ => by simp
  have harmonics : ((recordOrders acc).flatMap (harmonicBytes acc)).length = 24 * (recordOrders acc).length :=
    length_flatMap_of_length _ _ 24 fun j _ => harmonicBytes_length acc j
  simp only [RecordHead.bytes, List.length_append, leBytes_length, wordBytes_length, fundamental, harmonics,
    List.length_finRange, List.length_replicate]

theorem recordOrders_length_le (acc : Vector (BitVec 64) 104) : (recordOrders acc).length ≤ 49 := by
  unfold recordOrders
  exact (List.length_filter_le _ _).trans (by simp)

theorem RecordHead.bytes_length_bounds (h : RecordHead) (acc : Vector (BitVec 64) 104) :
    112 ≤ (h.bytes acc).length ∧ (h.bytes acc).length ≤ 1288 := by
  have := recordOrders_length_le acc
  rw [RecordHead.bytes_length]
  omega

/-! ### The memory under the operations -/

theorem State.MemoryOk.of_mem {s t : State} (hs : s.MemoryOk) (h : t.mem = s.mem) : t.MemoryOk := by
  unfold State.MemoryOk
  rw [h]
  exact hs

theorem State.MemoryOk.of_touches {s t : State} {ps : List Part} (hs : s.MemoryOk) (h : s.Touches ps t)
    (hp : Part.mem ∉ ps) : t.MemoryOk := hs.of_mem (h.mem hp)

/-- Bytes written inside exchange memory. -/
theorem State.MemoryOk.writeBytes {s t : State} (hs : s.MemoryOk) {a : Nat} {bs : List Byte}
    (ht : t.mem = s.mem.writeBytes a bs) (h : bs = [] ∨ a + bs.length ≤ 262144) : t.MemoryOk := by
  unfold State.MemoryOk
  rw [ht]
  refine ⟨Memory.wf_writeBytes hs.1 a bs, fun c hc => ?_⟩
  rcases h with rfl | h
  · exact hs.2 c hc
  · rcases Memory.mem_writeBytes s.mem hc with hc | hc
    · omega
    · exact hs.2 c hc

theorem State.MemoryOk.writeField {s : State} (hs : s.MemoryOk) (k : SlotId) (off : Nat) (v : Word) (h : off ≤ 508) :
    (s.writeField k off v).MemoryOk :=
  hs.writeBytes (s.writeField_mem k off v) (Or.inr (by have := slotByte_le k; simp only [wordBytes_length]; omega))

theorem State.MemoryOk.writeData {s : State} (hs : s.MemoryOk) (k : SlotId) (d : List Byte) (h : d.length ≤ 240000) :
    (s.writeData k d).MemoryOk :=
  hs.writeBytes (s.writeData_mem k d) (Or.inr (by have := slotByte_le k; omega))

theorem State.MemoryOk.writeReply {s : State} (hs : s.MemoryOk) (k : SlotId) (n : Word) (r : Reply)
    (h : r.data.length ≤ 320) : (s.writeReply k n r).MemoryOk :=
  hs.writeBytes (s.writeReply_mem k n r)
    (Or.inr (by have := slotByte_le k; rw [Reply.bytes_length n r h]; omega))

theorem State.MemoryOk.endDeferred {s : State} (hs : s.MemoryOk) (k : SlotId) (st : SlotState) (o : ReplyOutcome)
    (r : Reason) (i : Word) (c : Nat) (d : List Byte) (h : d.length ≤ 240000) :
    (s.endDeferred k st o r i c d).MemoryOk := by
  unfold State.endDeferred
  refine State.MemoryOk.of_touches ?_ (State.endSlot_touches _ k st) (by decide)
  refine State.MemoryOk.of_touches ?_ (State.removePending_touches _ k) (by decide)
  refine State.MemoryOk.writeData ?_ k d h
  refine State.MemoryOk.writeField ?_ k _ _ (by decide)
  refine State.MemoryOk.writeField ?_ k _ _ (by decide)
  refine State.MemoryOk.writeField ?_ k _ _ (by decide)
  exact hs.writeField k _ _ (by decide)

theorem State.MemoryOk.finish {s : State} (hs : s.MemoryOk) (k : SlotId) (st : SlotState) (r : Reply)
    (h : r.data.length ≤ 320) : (s.finish k st r).MemoryOk := by
  unfold State.finish
  exact (hs.writeReply k _ r h).of_touches (State.endSlot_touches _ k st) (by decide)

theorem State.MemoryOk.done {s : State} (hs : s.MemoryOk) (k : SlotId) (r : Reply) (h : r.data.length ≤ 320) :
    (s.done k r).MemoryOk := hs.finish k _ r h

theorem State.MemoryOk.refuse {s : State} (hs : s.MemoryOk) (k : SlotId) (r : Reason) : (s.refuse k r).MemoryOk :=
  hs.finish k _ _ (by simp [refusal])

theorem State.MemoryOk.defer {s : State} (hs : s.MemoryOk) (k : SlotId) (w : Work) (e : Nat) : (s.defer k w e).MemoryOk := by
  unfold State.defer
  refine State.MemoryOk.of_touches ?_ (State.setSlot_touches _ k _) (by decide)
  exact State.MemoryOk.writeReply (s := { s with
    requests := { s.requests with table := s.requests.table ++ [⟨k, w⟩] } }) hs k _ _ (by simp [deferredReply])

theorem State.MemoryOk.loseRebase {s : State} (hs : s.MemoryOk) (p : SetId) : (s.loseRebase p).MemoryOk := by
  unfold State.loseRebase
  split
  · exact State.MemoryOk.endDeferred (s := s.putRegs p _) hs _ _ _ _ _ _ _ (by simp)
  · exact hs

theorem State.MemoryOk.checkReg {s : State} (hs : s.MemoryOk) (p : SetId) (it : RegItem) : (s.checkReg p it).MemoryOk := by
  have reported (w : Word) : (s.report .registers w).MemoryOk := hs.of_touches (s.report_touches _ w) (by decide)
  unfold State.checkReg
  split
  · exact hs
  · exact hs
  · cases it
    case rebase => exact (reported _).loseRebase p
    all_goals exact reported _

theorem State.MemoryOk.checkRegs {s : State} (hs : s.MemoryOk) (p : SetId) (items : List RegItem) :
    (s.checkRegs p items).MemoryOk :=
  foldl_keeps (P := State.MemoryOk) items (fun _ it _ hu => hu.checkReg p it) hs

/-! ### The record writer -/

theorem State.MemoryOk.writePage {s : State} (hs : s.MemoryOk) (p : PageId) (off : Nat) (d : List Byte)
    (h : d = [] ∨ off + d.length ≤ 4096) : (s.writePage p off d).MemoryOk :=
  hs.writeBytes (s.writePage_mem p off d) (h.imp_right fun _ => by have := pageByte_bounds p; omega)

theorem State.MemoryOk.zeroPage {s : State} (hs : s.MemoryOk) (p : PageId) : (s.zeroPage p).MemoryOk := by
  unfold State.MemoryOk
  rw [State.zeroPage_mem]
  exact ⟨Memory.wf_zero hs.1 _ _, fun c hc => hs.2 c (Memory.mem_zero hc)⟩

theorem State.MemoryOk.takePage {s : State} (hs : s.MemoryOk) : s.takePage.MemoryOk := by
  unfold State.takePage
  split
  · exact ((hs.zeroPage _).writePage _ 0 _ (Or.inr (by simp [headerBytes]))).of_touches
      (State.putWriter_touches _ _) (by decide)
  · exact hs

theorem State.MemoryOk.updateHeader {s : State} (hs : s.MemoryOk) (f : Filling) (n : Word) (u : Nat) :
    (s.updateHeader f n u).MemoryOk := by
  have counted := hs.writePage f.page 4 (leBytes 4 (f.count + 1)) (Or.inr (by simp))
  have word (v : State) (hv : v.MemoryOk) (off : Nat) (w : Word) (h : off ≤ 4092) : (v.writePage f.page off (wordBytes w)).MemoryOk :=
    hv.writePage _ off _ (Or.inr (by simp only [wordBytes_length]; omega))
  unfold State.updateHeader
  refine State.MemoryOk.writePage ?_ f.page 20 _ (Or.inr (by simp))
  refine word _ ?_ 12 n (by decide)
  split
  · exact word _ counted 8 n (by decide)
  · exact counted

/-- A record that fits is written inside its page. -/
theorem State.MemoryOk.placeRecord {s : State} (hs : s.MemoryOk) (f : Filling) (n : Word) (r : List Byte)
    (h : r.length ≤ Config.recordArea - f.used) : (s.placeRecord f n r).MemoryOk := by
  have fits : r = [] ∨ 64 + f.used + r.length ≤ 4096 := by
    simp only [Config.recordArea] at h
    rcases Nat.eq_zero_or_pos r.length with h0 | h0
    · exact Or.inl (List.eq_nil_of_length_eq_zero h0)
    · right; omega
  have written := ((hs.writePage f.page (64 + f.used) r fits).updateHeader f n (f.used + r.length))
  unfold State.placeRecord
  dsimp only
  split
  · exact (written.of_touches (State.putWriter_touches _ _) (by decide)).of_touches (State.fillPage_touches _) (by decide)
  · exact written.of_touches (State.putWriter_touches _ _) (by decide)

theorem State.fillPage_filling (s : State) : s.fillPage.writer.filling = none := by
  unfold State.fillPage
  split
  · rfl
  next h => exact h

/-- After the making of room the FILLING page, where there is one, has room for the record (R117). -/
theorem State.makeRoom_fits {s : State} {n : Nat} {f : Filling} (h : (s.makeRoom n).writer.filling = some f) :
    n ≤ Config.recordArea - f.used := by
  unfold State.makeRoom at h
  split at h
  next g hg =>
    split at h
    next hfits =>
      rw [hg] at h
      injection h with h
      exact h ▸ hfits
    · rw [State.fillPage_filling] at h
      cases h
  next hg =>
    rw [hg] at h
    cases h

theorem State.takePage_filling {s : State} {f : Filling} (hs : s.writer.filling = none)
    (h : s.takePage.writer.filling = some f) : ∃ rest, s.writer.freeQueue = f.page :: rest ∧ f = ⟨f.page, 0, 0, 0, 0⟩ := by
  unfold State.takePage at h
  split at h
  next p rest hq =>
    rw [State.putWriter_writer] at h
    injection h with h
    subst h
    exact ⟨rest, hq, rfl⟩
  · rw [hs] at h
    cases h

/-- The page on which a record is placed has room for it. -/
theorem State.room_fits {s : State} {n : Nat} {f : Filling} (hn : n ≤ Config.recordArea)
    (h : (s.makeRoom n).ensurePage.writer.filling = some f) : n ≤ Config.recordArea - f.used := by
  unfold State.ensurePage at h
  split at h
  · exact State.makeRoom_fits h
  next hnone =>
    obtain ⟨_, _, hf⟩ := State.takePage_filling (by simpa using hnone) h
    rw [hf]
    exact hn

theorem State.MemoryOk.writeRecord {s : State} (hs : s.MemoryOk) (b : BankId) (n : Word) (r : List Byte)
    (h : r.length ≤ Config.recordArea) : (s.writeRecord b n r).MemoryOk := by
  have room : (s.makeRoom r.length).MemoryOk := by
    unfold State.makeRoom
    split
    · split
      · exact hs
      · exact hs.of_touches s.fillPage_touches (by decide)
    · exact hs
  have page : (s.makeRoom r.length).ensurePage.MemoryOk := by
    unfold State.ensurePage
    split
    · exact room
    · exact room.takePage
  unfold State.writeRecord
  dsimp only
  split
  next f hf => exact page.placeRecord f n r (State.room_fits h hf)
  · exact page

/-! ### Folding -/

theorem State.MemoryOk.stepEntry {s : State} (hs : s.MemoryOk) (b : BankId) (f : Fold) (e : Fin 6) :
    (s.stepEntry b f e).MemoryOk := by
  have reads : (s.stepReads b f.set e).MemoryOk := by
    unfold State.stepReads
    exact ((hs.checkRegs _ _).checkRegs _ _).of_touches (State.checkAccs_touches _ _ _ _) (by decide)
  have settle (u : State) (hu : u.MemoryOk) (p : SetId) (n : Word) (totals : Vector (BitVec 64) 104) :
      (u.stepSettle p n totals).MemoryOk := by
    have ended : (match u.regs[p].dueRebase with
        | some x => ((u.putRegs p (u.regs[p].settle totals)).regWritten p u.regs[p].rebasesWord).endRebase p n x
        | none => (u.putRegs p (u.regs[p].settle totals)).regWritten p u.regs[p].rebasesWord).MemoryOk := by
      split
      · exact State.MemoryOk.endDeferred (s := (u.putRegs p (u.regs[p].settle totals)).regWritten p u.regs[p].rebasesWord)
          hu _ _ _ _ _ _ _ (by rw [RegisterSet.bytes_length]; omega)
      · exact hu
    unfold State.stepSettle
    dsimp only
    split
    · exact ended.of_touches (State.push_touches _ _ _ _ _ _ _) (by decide)
    · exact ended
  have record (u : State) (hu : u.MemoryOk) (rebased : Bool) : (u.stepRecord b e f rebased).MemoryOk := by
    unfold State.stepRecord
    split
    · refine State.MemoryOk.writeRecord (hu.of_touches (State.checkAccs_touches _ _ _ _) (by decide)) b _ _ ?_
      exact (RecordHead.bytes_length_bounds _ _).2.trans (by decide)
    · exact hu
  unfold State.stepEntry
  refine State.MemoryOk.of_touches ?_ (State.putFold_touches _ b _) (by decide)
  refine State.MemoryOk.of_touches ?_ (State.stepInterval_touches _ _ _) (by decide)
  exact record _ (settle _ (reads.of_touches (State.stepScale_touches _ _ _) (by decide)) _ _ _) _

theorem State.MemoryOk.endClose {s : State} (hs : s.MemoryOk) (e : PendingEntry) : (s.endClose e).MemoryOk :=
  hs.endDeferred _ _ _ _ _ _ _ ((closedBytes_length_le _).trans (by decide))

theorem State.MemoryOk.reportCompletion {s : State} (hs : s.MemoryOk) (b : BankId) (n : Word) :
    (s.reportCompletion b n).MemoryOk := by
  unfold State.reportCompletion
  exact foldl_keeps (P := State.MemoryOk) _ (fun _ e _ hu => hu.endClose e) hs

theorem State.MemoryOk.completeFold {s : State} (hs : s.MemoryOk) (b : BankId) (f : Fold) : (s.completeFold b f).MemoryOk := by
  unfold State.completeFold
  dsimp only
  refine State.MemoryOk.of_touches ?_ (State.pushLost_touches _ b f) (by decide)
  refine State.MemoryOk.of_touches ?_ (State.heldTest_closeEffect _ b).touches (by decide)
  refine State.MemoryOk.of_touches ?_ (State.flush_touches _) (by decide)
  refine State.MemoryOk.reportCompletion ?_ b _
  split
  · exact hs
  · exact hs

/-! ### The host port -/

theorem State.MemoryOk.storeWord {s : State} (hs : s.MemoryOk) (la : BitVec 16) (data : Word) (be : BitVec 4) :
    (s.storeWord la.toNat data be).MemoryOk := by
  have inside := la.isLt
  unfold State.storeWord
  split
  · refine State.MemoryOk.writeBytes (s := s) hs (bs := wordBytes data) rfl (Or.inr ?_)
    simp only [wordBytes_length]
    omega
  · refine State.MemoryOk.writeBytes (s := s.checkWord la.toNat) (hs.of_touches (s.checkWord_touches _) (by decide)) rfl (Or.inr ?_)
    simp only [mergeBytes, List.length_map, List.length_finRange]
    omega

theorem State.legalChange_mem {s u : State} {g : Guarded} {v : Word} (h : s.legalChange g v = some u) : u.mem = s.mem := by
  unfold State.legalChange at h
  cases g with
  | slot k =>
    dsimp only at h
    split at h
    · cases h; rfl
    · split at h
      · cases h; rfl
      · cases h
  | page p =>
    dsimp only at h
    split at h
    · cases h; rfl
    · cases h
  | record i =>
    dsimp only at h
    split at h
    · cases h; rfl
    · cases h

theorem State.MemoryOk.hostWrite {s : State} (hs : s.MemoryOk) (la : BitVec 16) (data : Word) (be : BitVec 4) :
    (s.hostWrite la data be).MemoryOk := by
  unfold State.hostWrite
  split
  · exact hs
  · split
    next g _ =>
      have violation : (s.tagViolation g la data be).MemoryOk := hs.of_touches (s.tagViolation_touches g la data be) (by decide)
      unfold State.guardedWrite
      split
      · exact violation
      · split
        · exact hs
        · split
          next u hu => exact hs.of_mem (State.legalChange_mem hu)
          · exact violation
    · split
      · exact hs.storeWord la data be
      · exact hs.of_touches (s.ownerViolation_touches la data be) (by decide)

/-! ### Takes -/

theorem State.MemoryOk.take {s : State} (hs : s.MemoryOk) (row : Row) {carry : State → SlotId → State}
    (h : ∀ (u : State) (k : SlotId), u.MemoryOk → (carry u k).MemoryOk) : (s.take row carry).MemoryOk :=
  State.take_keeps _ (fun k rest _ _ => h _ k (hs.of_touches (s.beginTake_touches k rest) (by decide))) hs

theorem State.MemoryOk.finishPoint {s : State} (hs : s.MemoryOk) (k : SlotId) (p : PointId) (st : SlotState) (r : Reply) :
    (s.finishPoint k p st r).MemoryOk := by
  unfold State.finishPoint
  exact (hs.checkRegs _ _).finish k st _ (by simp [Profile.echo_length])

theorem State.MemoryOk.takeSetPoint {s : State} (hs : s.MemoryOk) (k : SlotId) : (s.takeSetPoint k).MemoryOk := by
  have reads (p : PointId) (v : Fin 4) : (s.headroomReads p v).MemoryOk := by
    unfold State.headroomReads
    dsimp only
    split
    · exact (hs.checkReg _ _).checkRegs _ _
    · exact hs.checkReg _ _
  unfold State.takeSetPoint
  dsimp only
  split
  · split
    · unfold State.judgePoint
      split
      · exact hs.finishPoint k _ _ _
      · split
        · exact hs.finishPoint k _ _ _
        · dsimp only
          split
          · exact (reads _ _).finishPoint k _ _ _
          · exact ((reads _ _).of_touches (State.writePoint_touches _ _ _) (by decide)).finishPoint k _ _ _
    · exact hs.finishPoint k _ _ _
  · exact hs.refuse k _

theorem State.MemoryOk.takeSetBank {s : State} (hs : s.MemoryOk) (k : SlotId) : (s.takeSetBank k).MemoryOk := by
  unfold State.takeSetBank
  dsimp only
  split
  · split
    · exact hs.refuse k _
    · exact State.MemoryOk.done (s := s.putBank _ _) hs k _ (by simp)
  · exact hs.refuse k _

theorem State.MemoryOk.doneTiming {s : State} (hs : s.MemoryOk) (k : SlotId) (n : Nat) : (s.doneTiming k n).MemoryOk :=
  hs.done k _ (by simp [State.timingEcho_length])

theorem State.MemoryOk.takeSetTiming {s : State} (hs : s.MemoryOk) (k : SlotId) : (s.takeSetTiming k).MemoryOk := by
  unfold State.takeSetTiming
  split
  · exact State.MemoryOk.doneTiming (s := s.writeTiming _) hs k _
  · exact hs.refuse k _

theorem State.MemoryOk.takeStart {s : State} (hs : s.MemoryOk) (k : SlotId) : (s.takeStart k).MemoryOk := by
  unfold State.takeStart
  split
  · split
    · exact hs.refuse k _
    · refine State.MemoryOk.doneTiming ?_ k _
      exact State.MemoryOk.of_touches (s := s.writeTiming _) hs (State.Touches.foldl State.openBank_touches _ _) (by decide)
  · exact hs.refuse k _

theorem State.MemoryOk.takeStop {s : State} (hs : s.MemoryOk) (k : SlotId) : (s.takeStop k).MemoryOk := by
  unfold State.takeStop
  split
  · split
    · exact hs.refuse k _
    · exact State.MemoryOk.of_touches (State.MemoryOk.defer (s := s.writeTiming _) hs k _ _)
        (State.askBanks_touches _ _ _ _) (by decide)
  · exact hs.refuse k _

theorem State.MemoryOk.closeBanks {s : State} (hs : s.MemoryOk) (k : SlotId) (kind : BankWork) (bs : List BankId) :
    (s.closeBanks k kind bs).MemoryOk :=
  (hs.defer k _ _).of_touches (State.askBanks_touches _ _ _ _) (by decide)

theorem State.MemoryOk.takeClose {s : State} (hs : s.MemoryOk) (k : SlotId) : (s.takeClose k).MemoryOk := by
  unfold State.takeClose
  dsimp only
  split
  · exact hs.refuse k _
  · split
    · split
      · exact hs.refuse k _
      · exact hs.closeBanks k _ _
    · split
      · split
        · exact hs.closeBanks k _ _
        · exact hs.refuse k _
      · exact hs.refuse k _

theorem State.MemoryOk.takeReadOpen {s : State} (hs : s.MemoryOk) (k : SlotId) : (s.takeReadOpen k).MemoryOk := by
  unfold State.takeReadOpen
  dsimp only
  split
  · split
    next hcount =>
      split
      · unfold State.readSet
        refine State.MemoryOk.done (hs.of_touches (State.checkAccs_touches _ _ _ _) (by decide)) k _ ?_
        have := quantityRange_length_le (s.param k 0x12 2) (s.param k 0x14 2)
        rw [length_flatMap_of_length _ _ 8 fun _ _ => leBytes_length _ _]
        omega
      · exact hs.refuse k _
    · exact hs.refuse k _
  · exact hs.refuse k _

theorem State.MemoryOk.judgeRead {s : State} (hs : s.MemoryOk) (k : SlotId) (size : Nat) {read : SetId → Nat → Nat → State}
    (h : ∀ p first count, count ≤ 20 → (read p first count).MemoryOk) : (s.judgeRead k size read).MemoryOk := by
  unfold State.judgeRead
  dsimp only
  split
  · split
    next hcount => exact h _ _ _ hcount.2.1
    · exact hs.refuse k _
  · exact hs.refuse k _

theorem State.MemoryOk.takeReadRegisters {s : State} (hs : s.MemoryOk) (k : SlotId) : (s.takeReadRegisters k).MemoryOk := by
  refine hs.judgeRead k _ fun p first count hcount => ?_
  unfold State.readQuantities
  exact (hs.checkRegs p _).done k _ (by simp only [RegisterSet.bytes_length]; omega)

theorem State.MemoryOk.takeReadRegistersNet {s : State} (hs : s.MemoryOk) (k : SlotId) :
    (s.takeReadRegistersNet k).MemoryOk := by
  refine hs.judgeRead k _ fun p first count hcount => ?_
  unfold State.readNet
  exact (hs.checkRegs p _).done k _ (by simp only [RegisterSet.netBytes_length]; omega)

theorem State.MemoryOk.holdRebase {s : State} (hs : s.MemoryOk) (k : SlotId) (p : SetId) (values : List Nat) :
    (s.holdRebase k p values).MemoryOk := by
  unfold State.holdRebase
  dsimp only
  refine State.MemoryOk.of_touches ?_ (State.regWritten_touches _ p _) (by decide)
  exact (hs.defer k _ _).of_touches (State.putRegs_touches _ p _) (by decide)

theorem State.MemoryOk.takeRebase {s : State} (hs : s.MemoryOk) (k : SlotId) : (s.takeRebase k).MemoryOk := by
  unfold State.takeRebase
  dsimp only
  split
  · split
    · split
      · exact hs.refuse k _
      · split
        · exact (hs.checkReg _ _).refuse k _
        · exact (hs.checkReg _ _).holdRebase k _ _
    · exact hs.refuse k _
  · exact hs.refuse k _

theorem State.MemoryOk.takeCancel {s : State} (hs : s.MemoryOk) (k : SlotId) : (s.takeCancel k).MemoryOk := by
  unfold State.takeCancel
  dsimp only
  split
  · unfold State.cancelSlot
    dsimp only
    split
    · refine State.MemoryOk.done ?_ k _ (by simp [cancelBytes_length])
      exact State.MemoryOk.endDeferred (hs.of_touches (s.withdraw_touches _ _) (by decide)) _ _ _ _ _ _ _ (by simp)
    · exact hs.done k _ (by simp [cancelBytes_length])
  · exact hs.refuse k _

theorem State.MemoryOk.takeLink {s : State} (hs : s.MemoryOk) (a : LinkAction) (k : SlotId) : (s.takeLink a k).MemoryOk := by
  unfold State.takeLink
  dsimp only
  split
  · exact (hs.of_touches (s.linkAction_touches _ a) (by decide)).done k _ (by simp [linkBytes_length])
  · exact hs.refuse k _

theorem State.MemoryOk.takeReadCapture {s : State} (hs : s.MemoryOk) (k : SlotId) : (s.takeReadCapture k).MemoryOk := by
  unfold State.takeReadCapture
  split
  · exact hs.done k _ (by simp [captureReply, captureBytes_length])
  · exact hs.refuse k _

theorem State.MemoryOk.takeReadCaptureClear {s : State} (hs : s.MemoryOk) (k : SlotId) :
    (s.takeReadCaptureClear k).MemoryOk := by
  unfold State.takeReadCaptureClear
  split
  · exact State.MemoryOk.done (s := s.putCapture none) hs k _ (by simp [captureReply, captureBytes_length])
  · exact hs.refuse k _

/-! ### The completion of a warm reset -/

theorem State.MemoryOk.warmRequests {s : State} (hs : s.MemoryOk) : s.warmRequests.MemoryOk := by
  have posted : (s.requests.intake.foldl State.refusePosted s).MemoryOk :=
    foldl_keeps (P := State.MemoryOk) _
      (fun u k _ hu => (hu.of_touches (u.checkWord_touches _) (by decide)).finish k _ _ (by simp [resetReply])) hs
  unfold State.warmRequests
  refine State.MemoryOk.of_touches ?_ (State.refreshQuota_touches _) (by decide)
  exact foldl_keeps (P := State.MemoryOk) (s.requests.intake.foldl State.refusePosted s).requests.table
    (fun _ _ _ hu => hu.endDeferred _ _ _ _ _ _ _ ((closedBytes_length_le _).trans (by decide))) posted

theorem State.MemoryOk.warmCompletion {s : State} (hs : s.MemoryOk) : s.warmCompletion.MemoryOk := by
  have before : s.warmLinks.warmSorter.warmWatches.warmBanks.warmRegisters.MemoryOk := by
    refine State.MemoryOk.of_touches ?_ (State.warmRegisters_touches _) (by decide)
    refine State.MemoryOk.of_touches ?_ (State.warmBanks_touches _) (by decide)
    refine State.MemoryOk.of_touches ?_ (State.warmWatches_touches _) (by decide)
    refine State.MemoryOk.of_touches ?_ (State.warmSorter_touches _) (by decide)
    exact hs.of_touches s.warmLinks_touches (by decide)
  unfold State.warmCompletion
  split
  · unfold State.completeWarm
    refine State.MemoryOk.of_touches ?_ (State.heldTests_touches _ _) (by decide)
    refine State.MemoryOk.of_touches ?_ (State.endWarm_touches _) (by decide)
    exact before.warmRequests.of_touches (State.clearCausesButCapture_touches _) (by decide)
  · exact hs

/-! ### The commands -/

theorem State.memoryOk_of_empty {s : State} (h : s.mem = []) : s.MemoryOk := by
  unfold State.MemoryOk
  rw [h]
  exact ⟨Memory.wf_nil, by simp⟩

theorem State.MemoryOk.commandEffect {s : State} (hs : s.MemoryOk) (c : Instr) : (commandEffect c s).MemoryOk := by
  cases c
  case pointStep b =>
    unfold Machine.commandEffect State.pointStep
    dsimp only
    split
    · exact hs.stepEntry b _ _
    · exact hs
  case foldCompletion b =>
    unfold Machine.commandEffect State.foldCompletion
    dsimp only
    split
    · split
      · exact hs
      · exact hs.completeFold b _
    · exact hs
  case hostWrite la data be => exact hs.hostWrite la data be
  case badKind => exact hs.take _ fun _ k hu => hu.refuse k _
  case setPoint => exact hs.take _ fun _ k hu => hu.takeSetPoint k
  case setBank => exact hs.take _ fun _ k hu => hu.takeSetBank k
  case setTiming => exact hs.take _ fun _ k hu => hu.takeSetTiming k
  case start => exact hs.take _ fun _ k hu => hu.takeStart k
  case stop => exact hs.take _ fun _ k hu => hu.takeStop k
  case close => exact hs.take _ fun _ k hu => hu.takeClose k
  case readOpen => exact hs.take _ fun _ k hu => hu.takeReadOpen k
  case readRegisters => exact hs.take _ fun _ k hu => hu.takeReadRegisters k
  case readRegistersNet => exact hs.take _ fun _ k hu => hu.takeReadRegistersNet k
  case rebase => exact hs.take _ fun _ k hu => hu.takeRebase k
  case cancel => exact hs.take _ fun _ k hu => hu.takeCancel k
  case linkControlEnable => exact hs.take _ fun _ k hu => hu.takeLink _ k
  case linkControlDisable => exact hs.take _ fun _ k hu => hu.takeLink _ k
  case linkControlReset => exact hs.take _ fun _ k hu => hu.takeLink _ k
  case linkControlClear => exact hs.take _ fun _ k hu => hu.takeLink _ k
  case readCapture => exact hs.take _ fun _ k hu => hu.takeReadCapture k
  case readCaptureClear => exact hs.take _ fun _ k hu => hu.takeReadCaptureClear k
  case warmResetCompletion => exact hs.warmCompletion
  case coldReset => exact State.memoryOk_of_empty rfl
  case ready =>
    unfold Machine.commandEffect
    dsimp only
    split
    · exact hs
    · exact State.memoryOk_of_empty rfl
  all_goals exact hs.of_touches (commandEffect_touches _ s) (of_decide_eq_true rfl)

/-- Settles O7: every write lies in a slot or inside a page, and no other command touches exchange memory. -/
theorem stepKeepsMemory : Obligations.StepKeepsMemory :=
  step_keeps State.MemoryOk (fun _ _ h => h) fun c _ h => h.commandEffect c

end Sys2Proof.Machine
end

section
/-! SUPPORT. Every step keeps the exception stack in order (R180). -/

namespace Sys2Proof.Machine

/-! ### The unit by itself -/

/-- The tags inside and outside the stack, leaving the top record aside (R180). -/
def ExceptionUnit.TagsOk (e : ExceptionUnit) : Prop :=
  e.top ≤ 64 ∧
  (∀ i : Fin 64, e.top ≤ i.val → e.records[i].tag = .new ∨ e.records[i].tag = .acked) ∧
  (∀ i : Fin 64, i.val < e.top → e.records[i].tag = .empty ∨ e.records[i].tag = .acked)

/-- The top record is NEW (R180). -/
def ExceptionUnit.TopNew (e : ExceptionUnit) : Prop := ∀ i : Fin 64, i.val = e.top → e.records[i].tag = .new

theorem State.stackOk_iff (s : State) : s.StackOk ↔ s.exceptions.TagsOk ∧ s.exceptions.TopNew := by
  simp only [State.StackOk, ExceptionUnit.TagsOk, ExceptionUnit.TopNew, and_assoc]

theorem State.StackOk.of_exceptions {s t : State} (hs : s.StackOk) (h : t.exceptions = s.exceptions) : t.StackOk := by
  rw [State.stackOk_iff] at *
  rw [h]
  exact hs

theorem State.StackOk.of_touches {s t : State} {ps : List Part} (hs : s.StackOk) (h : s.Touches ps t)
    (hp : Part.exceptions ∉ ps) : t.StackOk := hs.of_exceptions (h.exceptions hp)

/-- The pops that follow an acknowledgement: records and count of lost ones stay, the stack pointer does not fall, and the
tags stay in order with a NEW record at the top (R183). -/
theorem ExceptionUnit.pop_spec (n : Nat) (e : ExceptionUnit) (he : e.TagsOk) (hn : 64 - e.top ≤ n) :
    (e.pop n).TagsOk ∧ (e.pop n).TopNew ∧ (e.pop n).records = e.records ∧ (e.pop n).lost = e.lost ∧
      e.top ≤ (e.pop n).top := by
  induction n generalizing e with
  | zero =>
    refine ⟨he, fun i hi => ?_, rfl, rfl, Nat.le_refl _⟩
    have hi : i.val = e.top := hi
    have := i.isLt
    omega
  | succ n ih =>
    obtain ⟨htop, hin, hout⟩ := he
    unfold ExceptionUnit.pop
    split
    next r hr =>
      obtain ⟨hlt, hr⟩ := Vector.getElem?_eq_some_iff.mp hr
      split
      next hacked =>
        have outside : ({ e with top := e.top + 1 } : ExceptionUnit).TagsOk := by
          refine ⟨hlt, fun i hi => hin i (Nat.le_of_succ_le hi), fun i hi => ?_⟩
          rcases Nat.lt_succ_iff_lt_or_eq.mp hi with h | h
          · exact hout i h
          · right
            have : e.records[i] = r := by simp only [Fin.getElem_fin, h]; exact hr
            rw [this, hacked]
        obtain ⟨h1, h2, h3, h4, h5⟩ := ih _ outside (by simp only; omega)
        exact ⟨h1, h2, h3, h4, Nat.le_of_succ_le h5⟩
      next hnew =>
        refine ⟨⟨htop, hin, hout⟩, fun i hi => ?_, rfl, rfl, Nat.le_refl _⟩
        have hi' : e.records[i] = r := by simp only [Fin.getElem_fin, hi]; exact hr
        exact (hin i (Nat.le_of_eq hi.symm)).resolve_right (by rw [hi']; exact hnew)
    next hr =>
      refine ⟨⟨htop, hin, hout⟩, fun i hi => ?_, rfl, rfl, Nat.le_refl _⟩
      have := Vector.getElem?_eq_none_iff.mp hr
      have := i.isLt
      omega

/-- The unit with record `i` marked ACKED. -/
def ExceptionUnit.markAcked (e : ExceptionUnit) (i : Fin 64) : ExceptionUnit :=
  { e with records := e.records.set i { e.records[i] with tag := .acked } }

theorem ExceptionUnit.acknowledge_eq (e : ExceptionUnit) (i : Fin 64) : e.acknowledge i = (e.markAcked i).pop 64 := rfl

theorem ExceptionUnit.TagsOk.markAcked {e : ExceptionUnit} (he : e.TagsOk) (i : Fin 64) : (e.markAcked i).TagsOk := by
  obtain ⟨htop, hin, hout⟩ := he
  refine ⟨htop, fun j hj => ?_, fun j hj => ?_⟩
  · simp only [ExceptionUnit.markAcked, getElem_fin_set]
    split
    · exact Or.inr rfl
    · exact hin j hj
  · simp only [ExceptionUnit.markAcked, getElem_fin_set]
    split
    · exact Or.inr rfl
    · exact hout j hj

/-! ### A push -/

/-- The unit after a push of a record into a stack with room. -/
theorem ExceptionUnit.TagsOk.pushed {e : ExceptionUnit} (he : e.TagsOk) (n : Fin 64) (hn : e.top = n.val + 1)
    (r : ExceptionRecord) (hr : r.tag = .new) :
    ({ e with records := e.records.set n r, top := n.val } : ExceptionUnit).TagsOk ∧
      ({ e with records := e.records.set n r, top := n.val } : ExceptionUnit).TopNew := by
  obtain ⟨htop, hin, hout⟩ := he
  refine ⟨⟨Nat.le_of_lt n.isLt, fun j hj => ?_, fun j hj => ?_⟩, fun j hj => ?_⟩
  · rw [getElem_fin_set]
    split
    · exact Or.inl hr
    next hne => exact hin j (by have := Fin.val_ne_of_ne hne; simp only at hj; omega)
  · have hne : j ≠ n := Fin.ne_of_lt hj
    rw [getElem_fin_set_of_ne _ _ hne]
    exact hout j (by simp only at hj; omega)
  · rw [Fin.ext hj, getElem_fin_set_self]
    exact hr

/-- A push into a full stack: the loss counted in the top record and in the counter (R182). -/
theorem State.push_exceptions_of_top_zero (s : State) (k : ExceptionKind) (a b c d : Word) (v : Vector Word 8)
    (h : s.exceptions.top = 0) : (s.push k a b c d v).exceptions = { s.exceptions with
      records := s.exceptions.records.set (0 : Fin 64) { s.exceptions.records[(0 : Fin 64)] with
        lostAfter := if s.exceptions.records[(0 : Fin 64)].lostAfter = 0xFFFF then 0xFFFF
          else s.exceptions.records[(0 : Fin 64)].lostAfter + 1 }
      lost := s.exceptions.lost + 1 } := by
  unfold State.push
  dsimp only
  rw [dif_neg (by omega)]
  rfl

theorem State.StackOk.push {s : State} (hs : s.StackOk) (k : ExceptionKind) (a b c d : Word) (v : Vector Word 8) :
    (s.push k a b c d v).StackOk := by
  rw [State.stackOk_iff] at *
  obtain ⟨htags, hnew⟩ := hs
  rcases Nat.eq_zero_or_pos s.exceptions.top with h0 | hpos
  · have kept (i : Fin 64) : (s.push k a b c d v).exceptions.records[i].tag = s.exceptions.records[i].tag := by
      rw [s.push_exceptions_of_top_zero k a b c d v h0, getElem_fin_set]
      split
      next hi => rw [hi]
      · rfl
    have htop : (s.push k a b c d v).exceptions.top = s.exceptions.top := by
      rw [s.push_exceptions_of_top_zero k a b c d v h0]
    refine ⟨⟨?_, fun i hi => ?_, fun i hi => ?_⟩, fun i hi => ?_⟩
    · rw [htop]; exact htags.1
    · rw [kept]; exact htags.2.1 i (htop ▸ hi)
    · rw [kept]; exact htags.2.2 i (htop ▸ hi)
    · rw [kept]; exact hnew i (htop ▸ hi)
  · have htop := htags.1
    obtain ⟨n, hn⟩ : ∃ n : Fin 64, s.exceptions.top = n.val + 1 := ⟨⟨s.exceptions.top - 1, by omega⟩, by simp only; omega⟩
    rw [s.push_exceptions_of_room k a b c d v n hn]
    exact htags.pushed n hn _ rfl

/-! ### The commands -/

theorem State.StackOk.dropLate {s : State} (hs : s.StackOk) (l : LinkId) (f : WindowFrame) : (s.dropLate l f).StackOk := by
  unfold State.dropLate
  dsimp only
  split
  · unfold State.resync
    refine State.StackOk.push ?_ _ _ _ _ _ _
    exact hs.of_exceptions rfl
  · exact hs

theorem State.StackOk.arrive {s : State} (hs : s.StackOk) (l : LinkId) (p : PointId) (x : TaggedFrame) :
    (s.arrive l p x).StackOk := by
  have late := hs.dropLate l x.frame
  unfold State.arrive
  dsimp only
  split
  · exact late
  · split
    · split
      · exact late
      · split
        · exact hs
        · split
          · exact hs
          · exact hs.of_touches (s.storeFrame_touches p x) (by decide)
    · split
      · exact hs
      · split
        · exact late
        · split
          · exact hs.of_touches (s.openEntry_touches p x) (by decide)
          · split
            · split
              · exact late
              · exact hs.of_touches (s.forceAndHold_touches l x) (by decide)
            · exact hs

theorem State.StackOk.handleFrame {s : State} (hs : s.StackOk) (l : LinkId) (x : TaggedFrame) :
    (s.handleFrame l x).StackOk := by
  unfold State.handleFrame
  split
  · exact hs
  · exact hs.arrive l _ x

theorem State.StackOk.sorterTake {s : State} (hs : s.StackOk) (l : LinkId) : (s.sorterTake l).StackOk := by
  unfold State.sorterTake
  split
  · exact (State.StackOk.handleFrame (s := s.putLink l _) hs l _).of_touches (State.tryHandOff_touches _) (by decide)
  · exact hs

theorem State.StackOk.release {s : State} (hs : s.StackOk) : s.release.StackOk := by
  have stalled (u : State) (hu : u.StackOk) : u.endStall.StackOk := by
    unfold State.endStall
    split
    · exact State.StackOk.handleFrame (s := { u with sorter := { u.sorter with heldFrame := none } }) hu _ _
    · exact hu
  unfold State.release
  split
  · split
    · refine State.StackOk.of_touches ?_ (State.refreshQuota_touches _) (by decide)
      refine State.StackOk.of_touches ?_ (State.tryHandOff_touches _) (by decide)
      exact stalled _ (hs.of_touches s.dropHanded_touches (by decide))
    · exact hs
  · exact hs

theorem State.StackOk.watchPoint {s : State} (hs : s.StackOk) (q : Seq16) (x : Expected) :
    (State.watchPoint q s x).StackOk := by
  unfold State.watchPoint
  dsimp only
  split
  · split
    · exact State.StackOk.push (s := s.putWatch _ _) hs _ _ _ _ _ _
    · exact hs
  · exact hs

theorem State.StackOk.calculate {s : State} (hs : s.StackOk) : s.calculate.StackOk := by
  unfold State.calculate
  split
  · split
    · exact hs
    · exact foldl_keeps (P := State.StackOk) _ (fun _ x _ hu => hu.watchPoint _ x) hs
  · exact hs

theorem State.StackOk.addWindow {s : State} (hs : s.StackOk) (b : BankId) (a : Fin 2) (q : Seq16) (m : Nat) (c : Calculation) :
    (s.addWindow b a q m c).StackOk := by
  have overlong (u : State) (hu : u.StackOk) (x : Bank) : (u.pushOverlong b x).StackOk := by
    unfold State.pushOverlong
    split
    · exact hu.push _ _ _ _ _ _
    · exact hu
  unfold State.addWindow
  refine overlong _ ?_ _
  refine State.StackOk.of_touches ?_ (State.heldTest_closeEffect _ b).touches (by decide)
  refine State.StackOk.of_touches ?_ (State.putBank_touches _ b _) (by decide)
  exact hs.of_touches (s.addToSet_touches b a q m c) (by decide)

theorem State.StackOk.windowAddition {s : State} (hs : s.StackOk) (b : BankId) : (s.windowAddition b).StackOk := by
  have counted (x : Option Accounting) (m : Nat) : (State.countHanded { s with accounting := x } b m).StackOk :=
    State.StackOk.of_touches (s := { s with accounting := x }) hs (State.countHanded_touches _ b m) (by decide)
  unfold State.windowAddition
  split
  · split
    · split
      · exact hs
      · dsimp only
        split
        · split
          · exact counted _ _
          · exact (counted _ _).addWindow b _ _ _ _
        · exact counted _ _
    · exact hs
  · exact hs

theorem State.StackOk.stepScale {s : State} (hs : s.StackOk) (p : SetId) (n : Word) : (s.stepScale p n).StackOk := by
  unfold State.stepScale
  dsimp only
  split
  · exact State.StackOk.push (s := s.putRegs p _) hs _ _ _ _ _ _
  · exact hs

theorem State.StackOk.stepSettle {s : State} (hs : s.StackOk) (p : SetId) (n : Word) (totals : Vector (BitVec 64) 104) :
    (s.stepSettle p n totals).StackOk := by
  have ended : (match s.regs[p].dueRebase with
      | some x => ((s.putRegs p (s.regs[p].settle totals)).regWritten p s.regs[p].rebasesWord).endRebase p n x
      | none => (s.putRegs p (s.regs[p].settle totals)).regWritten p s.regs[p].rebasesWord).StackOk := by
    split
    · unfold State.endRebase
      exact State.StackOk.of_touches (s := (s.putRegs p (s.regs[p].settle totals)).regWritten p s.regs[p].rebasesWord) hs
        (State.endDeferred_touches _ _ _ _ _ _ _ _) (by decide)
    · exact hs
  unfold State.stepSettle
  dsimp only
  split
  · exact ended.push _ _ _ _ _ _
  · exact ended

/-- The parts of a point step that no push reaches. -/
theorem State.stepRecord_exceptions (s : State) (b : BankId) (e : Fin 6) (f : Fold) (rebased : Bool) :
    (s.stepRecord b e f rebased).exceptions = s.exceptions := by
  unfold State.stepRecord
  split
  · exact ((State.writeRecord_recordEffect _ b _ _).touches.exceptions (by decide)).trans
      ((s.checkAccs_touches b _ _).exceptions (by decide))
  · rfl

theorem State.stepReads_exceptions (s : State) (b : BankId) (i : Fin 2) (e : Fin 6) :
    (s.stepReads b i e).exceptions = s.exceptions := by
  unfold State.stepReads
  exact ((State.checkAccs_touches _ b i _).exceptions (by decide)).trans
    (((State.checkRegs_touches _ _ _).exceptions (by decide)).trans ((s.checkRegs_touches _ _).exceptions (by decide)))

theorem State.StackOk.stepEntry {s : State} (hs : s.StackOk) (b : BankId) (f : Fold) (e : Fin 6) :
    (s.stepEntry b f e).StackOk := by
  unfold State.stepEntry
  refine State.StackOk.of_touches ?_ (State.putFold_touches _ b _) (by decide)
  refine State.StackOk.of_touches ?_ (State.stepInterval_touches _ _ _) (by decide)
  refine State.StackOk.of_exceptions ?_ (State.stepRecord_exceptions _ b e f _)
  exact ((hs.of_exceptions (s.stepReads_exceptions b f.set e)).stepScale _ _).stepSettle _ _ _

theorem State.StackOk.completeFold {s : State} (hs : s.StackOk) (b : BankId) (f : Fold) : (s.completeFold b f).StackOk := by
  have lost (u : State) (hu : u.StackOk) : (u.pushLost b f).StackOk := by
    unfold State.pushLost
    split
    · exact hu
    · exact hu.push _ _ _ _ _ _
  unfold State.completeFold
  dsimp only
  refine lost _ ?_
  refine State.StackOk.of_touches ?_ (State.heldTest_closeEffect _ b).touches (by decide)
  refine State.StackOk.of_touches ?_ (State.flush_touches _) (by decide)
  refine State.StackOk.of_touches ?_ (State.reportCompletion_touches _ b _) (by decide)
  split
  · exact hs
  · exact hs

theorem State.StackOk.tagViolation {s : State} (hs : s.StackOk) (g : Guarded) (la : BitVec 16) (data : Word) (be : BitVec 4) :
    (s.tagViolation g la data be).StackOk := by
  unfold State.tagViolation
  dsimp only
  exact (State.StackOk.of_touches (s := State.putWatchCounters s _) hs (State.copyBlock_touches _ _) (by decide)).push
    _ _ _ _ _ _

theorem State.StackOk.ownerViolation {s : State} (hs : s.StackOk) (la : BitVec 16) (data : Word) (be : BitVec 4) :
    (s.ownerViolation la data be).StackOk := by
  unfold State.ownerViolation
  dsimp only
  split
  · refine State.StackOk.push ?_ _ _ _ _ _ _
    refine State.StackOk.of_touches ?_ (State.copyBlock_touches _ _) (by decide)
    exact hs
  · exact hs

/-- An acknowledgement keeps the stack in order, and does not lower its pointer (R183). -/
theorem State.StackOk.acknowledge {s : State} (hs : s.StackOk) (i : Fin 64) :
    (s.putExceptions (s.exceptions.acknowledge i)).StackOk ∧ s.exceptions.top ≤ (s.exceptions.acknowledge i).top := by
  obtain ⟨htags, -⟩ := s.stackOk_iff.mp hs
  obtain ⟨h1, h2, -, -, h5⟩ := ExceptionUnit.pop_spec 64 _ (htags.markAcked i) (by omega)
  exact ⟨(State.stackOk_iff _).mpr ⟨h1, h2⟩, h5⟩

theorem State.StackOk.legalChange {s u : State} (hs : s.StackOk) {g : Guarded} {v : Word} (h : s.legalChange g v = some u) :
    u.StackOk := by
  unfold State.legalChange at h
  cases g with
  | slot k =>
    dsimp only at h
    split at h
    · cases h; exact hs
    · split at h
      · cases h; exact hs
      · cases h
  | page p =>
    dsimp only at h
    split at h
    · cases h; exact hs
    · cases h
  | record i =>
    dsimp only at h
    split at h
    · cases h; exact (hs.acknowledge i).1
    · cases h

theorem State.StackOk.hostWrite {s : State} (hs : s.StackOk) (la : BitVec 16) (data : Word) (be : BitVec 4) :
    (s.hostWrite la data be).StackOk := by
  unfold State.hostWrite
  split
  · exact hs
  · split
    · unfold State.guardedWrite
      split
      · exact hs.tagViolation _ la data be
      · split
        · exact hs
        · split
          next hu => exact hs.legalChange hu
          · exact hs.tagViolation _ la data be
    · split
      · exact hs.of_touches (s.storeWord_touches _ data be) (by decide)
      · exact hs.ownerViolation la data be

theorem State.stackOk_of_reset {s : State} (h : s.exceptions = State.reset.exceptions) : s.StackOk := by
  unfold State.StackOk
  rw [h]
  refine ⟨Nat.le_refl _, fun i hi => absurd hi (by simp [State.reset]), fun i _ => ?_, fun i hi => ?_⟩
  · simp [State.reset, State.resetRecord]
  · exact absurd hi (by have := i.isLt; simp only [State.reset]; omega)

theorem State.StackOk.commandEffect {s : State} (hs : s.StackOk) (c : Instr) : (commandEffect c s).StackOk := by
  cases c
  case sorterTake l => exact hs.sorterTake l
  case release => exact hs.release
  case calculation => exact hs.calculate
  case windowAddition b => exact hs.windowAddition b
  case pointStep b =>
    unfold Machine.commandEffect State.pointStep
    dsimp only
    split
    · exact hs.stepEntry b _ _
    · exact hs
  case foldCompletion b =>
    unfold Machine.commandEffect State.foldCompletion
    dsimp only
    split
    · split
      · exact hs
      · exact hs.completeFold b _
    · exact hs
  case hostWrite la data be => exact hs.hostWrite la data be
  case coldReset => exact State.stackOk_of_reset rfl
  case ready =>
    unfold Machine.commandEffect
    dsimp only
    split
    · exact hs
    · exact State.stackOk_of_reset rfl
  all_goals exact hs.of_touches (commandEffect_touches _ s) (of_decide_eq_true rfl)

/-- Settles O14: pushes and acknowledgements keep the order, and no other operation touches the stack. -/
theorem stepKeepsStack : Obligations.StepKeepsStack :=
  step_keeps State.StackOk (fun _ _ h => h) fun c _ h => h.commandEffect c

end Sys2Proof.Machine
end

section
/-! SUPPORT. Every step keeps page states, free queue, returns and the FILLING page in agreement (R113 to R117). -/

namespace Sys2Proof.Machine

/-! ### The writer by itself -/

/-- Page states, free queue, returns and the FILLING page agree (R113, R114). -/
def Writer.Agrees (w : Writer) : Prop :=
  w.freeQueue.Nodup ∧ (∀ p : PageId, p ∈ w.freeQueue ↔ w.pages[p] = .free) ∧
  w.returns.Nodup ∧ (∀ p : PageId, p ∈ w.returns ↔ w.pages[p] = .returned) ∧
  ∀ p : PageId, w.pages[p] = .filling ↔ w.filling.map Filling.page = some p

/-- The FILLING page holds a record at least and room for one at least (R115, R117). -/
def Writer.RoomOk (w : Writer) : Prop :=
  ∀ f, w.filling = some f → 1 ≤ f.count ∧ 112 * f.count ≤ f.used ∧ f.used ≤ 3920

theorem State.pagesOk_iff (s : State) : s.PagesOk ↔ s.writer.Agrees ∧ s.writer.RoomOk := by
  simp only [State.PagesOk, Writer.Agrees, Writer.RoomOk, and_assoc]

theorem State.PagesOk.of_writer {s t : State} (hs : s.PagesOk) (h : t.writer = s.writer) : t.PagesOk := by
  rw [State.pagesOk_iff] at *
  rw [h]
  exact hs

theorem State.PagesOk.of_touches {s t : State} {ps : List Part} (hs : s.PagesOk) (h : s.Touches ps t)
    (hp : Part.writer ∉ ps) : t.PagesOk := hs.of_writer (h.writer hp)

/-- Counters and fill position play no part in the agreement. -/
theorem Writer.Agrees.of_pages {w v : Writer} (h : w.Agrees) (hpages : v.pages = w.pages)
    (hqueue : v.freeQueue = w.freeQueue) (hreturns : v.returns = w.returns)
    (hfilling : v.filling.map Filling.page = w.filling.map Filling.page) : v.Agrees := by
  unfold Writer.Agrees
  rw [hpages, hqueue, hreturns, hfilling]
  exact h

/-- The FILLING page becomes FILLED (R117, R122). -/
theorem Writer.Agrees.fill {w : Writer} (h : w.Agrees) {f : Filling} (hf : w.filling = some f) :
    ({ w with pages := w.pages.set f.page .filled, filling := none } : Writer).Agrees := by
  obtain ⟨hnodup, hfree, hreturns, hreturned, hfilling⟩ := h
  have was : w.pages[f.page] = .filling := (hfilling f.page).mpr (by simp [hf])
  refine ⟨hnodup, fun p => ?_, hreturns, fun p => ?_, fun p => ?_⟩
  · rw [getElem_fin_set]
    split
    next hp => simp only [hfree, hp, was, reduceCtorEq]
    · exact hfree p
  · rw [getElem_fin_set]
    split
    next hp => simp only [hreturned, hp, was, reduceCtorEq]
    · exact hreturned p
  · rw [getElem_fin_set]
    split
    · simp
    next hp =>
      rw [hfilling, hf]
      simp [Ne.symm hp]

/-- The head of the free queue becomes the FILLING page (R115). -/
theorem Writer.Agrees.take {w : Writer} (h : w.Agrees) (hnone : w.filling = none) {p : PageId} {rest : List PageId}
    (hq : w.freeQueue = p :: rest) (f : Filling) (hf : f.page = p) (seq loss : Word) :
    ({ w with pages := w.pages.set p .filling, freeQueue := rest, filling := some f, pageSeq := seq
              gapLoss := loss } : Writer).Agrees := by
  obtain ⟨hnodup, hfree, hreturns, hreturned, hfilling⟩ := h
  rw [hq, List.nodup_cons] at hnodup
  have was : w.pages[p] = .free := (hfree p).mp (by simp [hq])
  refine ⟨hnodup.2, fun i => ?_, hreturns, fun i => ?_, fun i => ?_⟩
  · rw [getElem_fin_set]
    split
    next hi => simp only [hi, hnodup.1, reduceCtorEq]
    next hi =>
      rw [← hfree i, hq]
      simp [hi]
  · rw [getElem_fin_set]
    split
    next hi => simp only [hreturned, hi, was, reduceCtorEq]
    · exact hreturned i
  · rw [getElem_fin_set]
    split
    next hi => simp [hi, hf]
    next hi =>
      rw [hfilling, hnone]
      simp [hf, Ne.symm hi]

/-- The oldest return becomes FREE at the tail of the free queue (R120). -/
theorem Writer.Agrees.freeReturn {w : Writer} (h : w.Agrees) {p : PageId} {rest : List PageId} (hr : w.returns = p :: rest) :
    ({ w with pages := w.pages.set p .free, freeQueue := w.freeQueue ++ [p], returns := rest } : Writer).Agrees := by
  obtain ⟨hnodup, hfree, hreturns, hreturned, hfilling⟩ := h
  rw [hr, List.nodup_cons] at hreturns
  have was : w.pages[p] = .returned := (hreturned p).mp (by simp [hr])
  have absent : p ∉ w.freeQueue := by simp [hfree, was]
  refine ⟨?_, fun i => ?_, hreturns.2, fun i => ?_, fun i => ?_⟩
  · exact hnodup.append (List.nodup_singleton p) (by simpa using absent)
  · rw [getElem_fin_set]
    split
    next hi => simp [hi]
    next hi => simp [hi, hfree]
  · rw [getElem_fin_set]
    split
    next hi => simp only [hi, hreturns.1, reduceCtorEq]
    next hi =>
      rw [← hreturned i, hr]
      simp [hi]
  · rw [getElem_fin_set]
    split
    next hi => rw [← hfilling, hi, was]; simp
    · exact hfilling i

/-- A FILLED page becomes RETURNED, its return behind the others (R120, R136). -/
theorem Writer.Agrees.giveBack {w : Writer} (h : w.Agrees) {p : PageId} (hp : w.pages[p] = .filled) :
    ({ w with pages := w.pages.set p .returned, returns := w.returns ++ [p] } : Writer).Agrees := by
  obtain ⟨hnodup, hfree, hreturns, hreturned, hfilling⟩ := h
  have absent : p ∉ w.returns := by simp [hreturned, hp]
  refine ⟨hnodup, fun i => ?_, ?_, fun i => ?_, fun i => ?_⟩
  · rw [getElem_fin_set]
    split
    next hi => simp only [hfree, hi, hp, reduceCtorEq]
    · exact hfree i
  · exact hreturns.append (List.nodup_singleton p) (by simpa using absent)
  · rw [getElem_fin_set]
    split
    next hi => simp [hi]
    next hi => simp [hi, hreturned]
  · rw [getElem_fin_set]
    split
    next hi => rw [← hfilling, hi, hp]; simp
    · exact hfilling i

/-! ### The writer's operations -/

theorem State.writePage_touches (s : State) (p : PageId) (off : Nat) (d : List Byte) :
    s.Touches [.mem, .exchangeMarks] (s.writePage p off d) := by
  unfold State.writePage; exact s.memory_touches _ _ _

theorem State.zeroPage_touches (s : State) (p : PageId) : s.Touches [.mem, .exchangeMarks] (s.zeroPage p) := by
  unfold State.zeroPage; exact s.memory_touches _ _ _

theorem State.updateHeader_touches (s : State) (f : Filling) (n : Word) (u : Nat) :
    s.Touches [.mem, .exchangeMarks] (s.updateHeader f n u) := by
  unfold State.updateHeader
  dsimp only
  refine .trans ?_ (State.writePage_touches _ _ _ _)
  refine .trans ?_ (State.writePage_touches _ _ _ _)
  exact .ite ((s.writePage_touches _ _ _).trans (State.writePage_touches _ _ _ _)) (s.writePage_touches _ _ _)

theorem State.fillPage_writer_of_some {s : State} {f : Filling} (h : s.writer.filling = some f) :
    s.fillPage.writer = { s.writer with pages := s.writer.pages.set f.page .filled, filling := none } := by
  unfold State.fillPage
  rw [h]
  rfl

theorem State.fillPage_of_none {s : State} (h : s.writer.filling = none) : s.fillPage = s := by
  unfold State.fillPage
  rw [h]

theorem State.takePage_writer_of_cons {s : State} {p : PageId} {rest : List PageId} (h : s.writer.freeQueue = p :: rest) :
    s.takePage.writer = { s.writer with
      pages := s.writer.pages.set p .filling, freeQueue := rest, filling := some ⟨p, 0, 0, 0, 0⟩
      pageSeq := s.writer.pageSeq + 1, gapLoss := 0 } := by
  unfold State.takePage
  rw [h]
  rfl

theorem State.takePage_of_nil {s : State} (h : s.writer.freeQueue = []) : s.takePage = s := by
  unfold State.takePage
  rw [h]

/-- The FILLING page after a record of this length and interval number (R116). -/
def Filling.withRecord (f : Filling) (n : Word) (length : Nat) : Filling :=
  { f with used := f.used + length, count := f.count + 1, first := if f.count = 0 then n else f.first, last := n }

/-- The state with a record on its page and the page header updated, before the test of the room left (R116). -/
def State.recordPlaced (s : State) (f : Filling) (n : Word) (r : List Byte) : State :=
  ((s.writePage f.page (64 + f.used) r).updateHeader f n (f.used + r.length)).putWriter
    { s.writer with filling := some (f.withRecord n r.length) }

theorem State.placeRecord_eq (s : State) (f : Filling) (n : Word) (r : List Byte) : s.placeRecord f n r =
    if Config.recordArea - (f.used + r.length) < Config.shortestRecord then (s.recordPlaced f n r).fillPage
    else s.recordPlaced f n r := by
  have kept : ((s.writePage f.page (64 + f.used) r).updateHeader f n (f.used + r.length)).writer = s.writer :=
    ((State.updateHeader_touches _ f n _).writer (by decide)).trans ((s.writePage_touches _ _ _).writer (by decide))
  unfold State.placeRecord State.recordPlaced Filling.withRecord
  dsimp only
  rw [kept]

theorem State.recordPlaced_writer (s : State) (f : Filling) (n : Word) (r : List Byte) :
    (s.recordPlaced f n r).writer = { s.writer with filling := some (f.withRecord n r.length) } := rfl

/-- A record on the FILLING page keeps the agreement; a page without room for one more is filled (R116, R117). -/
theorem State.PagesOk.placeRecord {s : State} (h : s.writer.Agrees) {f : Filling} (hf : s.writer.filling = some f)
    (hcount : 112 * f.count ≤ f.used) (n : Word) (r : List Byte) (hr : 112 ≤ r.length) : (s.placeRecord f n r).PagesOk := by
  have agrees : (s.recordPlaced f n r).writer.Agrees :=
    h.of_pages rfl rfl rfl (by simp [State.recordPlaced_writer, hf, Filling.withRecord])
  rw [State.placeRecord_eq, State.pagesOk_iff]
  split
  · rw [State.fillPage_writer_of_some (s := s.recordPlaced f n r) rfl]
    exact ⟨agrees.fill rfl, fun _ hg => by cases hg⟩
  next hroom =>
    refine ⟨agrees, fun g hg => ?_⟩
    cases hg
    simp only [Config.recordArea, Config.shortestRecord] at hroom
    simp only [Filling.withRecord]
    omega

theorem State.PagesOk.fillPage {s : State} (hs : s.PagesOk) : s.fillPage.PagesOk := by
  cases hf : s.writer.filling with
  | none => rw [State.fillPage_of_none hf]; exact hs
  | some f =>
    rw [State.pagesOk_iff] at *
    rw [State.fillPage_writer_of_some hf]
    exact ⟨hs.1.fill hf, fun _ hg => by cases hg⟩

theorem State.PagesOk.makeRoom {s : State} (hs : s.PagesOk) (n : Nat) : (s.makeRoom n).PagesOk := by
  unfold State.makeRoom
  split
  · split
    · exact hs
    · exact hs.fillPage
  · exact hs

/-- A page that is FILLING once one has been sought: agreeing, with its records' bytes inside its fill position. -/
theorem State.ensurePage_agrees {s : State} (hs : s.PagesOk) : s.ensurePage.writer.Agrees ∧
    ∀ f, s.ensurePage.writer.filling = some f → 112 * f.count ≤ f.used := by
  obtain ⟨hagrees, hroom⟩ := s.pagesOk_iff.mp hs
  unfold State.ensurePage
  split
  · exact ⟨hagrees, fun f hf => (hroom f hf).2.1⟩
  next hnone =>
    have hnone : s.writer.filling = none := by simpa using hnone
    cases hq : s.writer.freeQueue with
    | nil =>
      rw [State.takePage_of_nil hq]
      exact ⟨hagrees, fun f hf => (hroom f hf).2.1⟩
    | cons p rest =>
      rw [State.takePage_writer_of_cons hq]
      refine ⟨hagrees.take hnone hq _ rfl _ _, fun f hf => ?_⟩
      cases hf
      exact Nat.le_refl _

theorem State.PagesOk.writeRecord {s : State} (hs : s.PagesOk) (b : BankId) (n : Word) (r : List Byte) (hr : 112 ≤ r.length) :
    (s.writeRecord b n r).PagesOk := by
  obtain ⟨hagrees, hbytes⟩ := State.ensurePage_agrees (hs.makeRoom r.length)
  unfold State.writeRecord
  dsimp only
  split
  next f hf => exact State.PagesOk.placeRecord hagrees hf (hbytes f hf) n r hr
  next hnone =>
    rw [State.pagesOk_iff]
    refine ⟨hagrees.of_pages rfl rfl rfl rfl, fun f hf => ?_⟩
    cases hnone.symm.trans hf

/-! ### The commands -/

theorem State.PagesOk.stepEntry {s : State} (hs : s.PagesOk) (b : BankId) (f : Fold) (e : Fin 6) :
    (s.stepEntry b f e).PagesOk := by
  have reads : (s.stepReads b f.set e).PagesOk := by
    unfold State.stepReads
    refine State.PagesOk.of_touches ?_ (State.checkAccs_touches _ _ _ _) (by decide)
    refine State.PagesOk.of_touches ?_ (State.checkRegs_touches _ _ _) (by decide)
    exact hs.of_touches (s.checkRegs_touches _ _) (by decide)
  have settle (u : State) (hu : u.PagesOk) (p : SetId) (n : Word) (totals : Vector (BitVec 64) 104) :
      (u.stepSettle p n totals).PagesOk := by
    have ended : (match u.regs[p].dueRebase with
        | some x => ((u.putRegs p (u.regs[p].settle totals)).regWritten p u.regs[p].rebasesWord).endRebase p n x
        | none => (u.putRegs p (u.regs[p].settle totals)).regWritten p u.regs[p].rebasesWord).PagesOk := by
      split
      · unfold State.endRebase
        refine State.PagesOk.of_touches ?_ (State.endDeferred_touches _ _ _ _ _ _ _ _) (by decide)
        exact hu.of_writer rfl
      · exact hu.of_writer rfl
    unfold State.stepSettle
    dsimp only
    split
    · exact ended.of_touches (State.push_touches _ _ _ _ _ _ _) (by decide)
    · exact ended
  have record (u : State) (hu : u.PagesOk) (rebased : Bool) : (u.stepRecord b e f rebased).PagesOk := by
    unfold State.stepRecord
    split
    · exact (hu.of_touches (u.checkAccs_touches _ _ _) (by decide)).writeRecord b _ _ (RecordHead.bytes_length_bounds _ _).1
    · exact hu
  unfold State.stepEntry
  refine State.PagesOk.of_touches ?_ (State.putFold_touches _ b _) (by decide)
  refine State.PagesOk.of_touches ?_ (State.stepInterval_touches _ _ _) (by decide)
  exact record _ (settle _ (reads.of_touches (State.stepScale_touches _ _ _) (by decide)) _ _ _) _

theorem State.PagesOk.completeFold {s : State} (hs : s.PagesOk) (b : BankId) (f : Fold) : (s.completeFold b f).PagesOk := by
  unfold State.completeFold
  dsimp only
  refine State.PagesOk.of_touches ?_ (State.pushLost_touches _ b f) (by decide)
  refine State.PagesOk.of_touches ?_ (State.heldTest_closeEffect _ b).touches (by decide)
  have reported (u : State) (hu : u.PagesOk) (n : Word) : (u.reportCompletion b n).flush.PagesOk := by
    have := hu.of_touches (u.reportCompletion_touches b n) (by decide)
    unfold State.flush
    split
    · exact this.fillPage
    · exact this
  refine reported _ ?_ _
  split
  · exact hs
  · exact hs

theorem State.PagesOk.legalChange {s u : State} (hs : s.PagesOk) {g : Guarded} {v : Word} (h : s.legalChange g v = some u) :
    u.PagesOk := by
  unfold State.legalChange at h
  cases g with
  | slot k =>
    dsimp only at h
    split at h
    · cases h; exact hs
    · split at h
      · cases h; exact hs
      · cases h
  | page p =>
    dsimp only at h
    split at h
    next hp =>
      cases h
      obtain ⟨hagrees, hroom⟩ := s.pagesOk_iff.mp hs
      exact (State.pagesOk_iff _).mpr ⟨hagrees.giveBack hp.1, hroom⟩
    · cases h
  | record i =>
    dsimp only at h
    split at h
    · cases h; exact hs
    · cases h

theorem State.PagesOk.hostWrite {s : State} (hs : s.PagesOk) (la : BitVec 16) (data : Word) (be : BitVec 4) :
    (s.hostWrite la data be).PagesOk := by
  have violation (g : Guarded) : (s.tagViolation g la data be).PagesOk :=
    hs.of_touches (s.tagViolation_touches g la data be) (by decide)
  unfold State.hostWrite
  split
  · exact hs
  · split
    · unfold State.guardedWrite
      split
      · exact violation _
      · split
        · exact hs
        · split
          next hu => exact hs.legalChange hu
          · exact violation _
    · split
      · exact hs.of_touches (s.storeWord_touches _ data be) (by decide)
      · exact hs.of_touches (s.ownerViolation_touches la data be) (by decide)

theorem State.PagesOk.returnTake {s : State} (hs : s.PagesOk) : s.returnTake.PagesOk := by
  cases hr : s.writer.returns with
  | nil => rw [State.returnTake_of_nil hr]; exact hs
  | cons p rest =>
    obtain ⟨hagrees, hroom⟩ := s.pagesOk_iff.mp hs
    rw [State.returnTake_of_cons hr]
    exact (State.pagesOk_iff _).mpr ⟨hagrees.freeReturn hr, hroom⟩

theorem State.pagesOk_of_reset {s : State} (h : s.writer = State.reset.writer) : s.PagesOk := by
  rw [State.pagesOk_iff, h]
  refine ⟨⟨List.nodup_finRange 58, fun p => ?_, List.nodup_nil, fun p => ?_, fun p => ?_⟩, fun f hf => by cases hf⟩
  · simp [State.reset, State.resetWriter]
  · simp [State.reset, State.resetWriter]
  · simp [State.reset, State.resetWriter]

theorem State.PagesOk.commandEffect {s : State} (hs : s.PagesOk) (c : Instr) : (commandEffect c s).PagesOk := by
  cases c
  case pointStep b =>
    unfold Machine.commandEffect State.pointStep
    dsimp only
    split
    · exact hs.stepEntry b _ _
    · exact hs
  case foldCompletion b =>
    unfold Machine.commandEffect State.foldCompletion
    dsimp only
    split
    · split
      · exact hs
      · exact hs.completeFold b _
    · exact hs
  case hostWrite la data be => exact hs.hostWrite la data be
  case returnTake => exact hs.returnTake
  case coldReset => exact State.pagesOk_of_reset rfl
  case ready =>
    unfold Machine.commandEffect
    dsimp only
    split
    · exact hs
    · exact State.pagesOk_of_reset rfl
  all_goals exact hs.of_touches (commandEffect_touches _ s) (of_decide_eq_true rfl)

/-- Settles O12: a record written or lost, the flush, a page given back and a return taken keep the agreement, and no other
operation touches the writer. -/
theorem stepKeepsPages : Obligations.StepKeepsPages :=
  step_keeps State.PagesOk (fun _ _ h => h) fun c _ h => h.commandEffect c

end Sys2Proof.Machine
end

section
/-! SUPPORT. The request area of a slot, as the request unit reads it, through the reads and the writes of a take. -/

namespace Sys2Proof.Machine

/-! ### Error marks -/

/-- The mark of a word after the marks of some words were dropped. -/
theorem lookup_filter_fst {α β : Type} [DecidableEq α] (l : List (α × β)) (keep : α → Bool) (a : α) :
    (l.filter fun m => keep m.1).lookup a = if keep a = true then l.lookup a else none := by
  induction l with
  | nil => simp
  | cons m l ih =>
    obtain ⟨x, y⟩ := m
    by_cases hx : a = x
    · subst hx
      by_cases hk : keep a = true
      · simp [hk]
      · simp [hk, ih]
    · have hne : (a == x) = false := by simpa using hx
      by_cases hk : keep x = true
      · simp [hk, List.lookup_cons, hne, ih]
      · simp [hk, List.lookup_cons, hne, ih]

theorem State.wordsWritten_lookup (s : State) (lo hi w : Nat) : (s.wordsWritten lo hi).ecc.exchange.lookup w =
    if lo ≤ w ∧ w < hi then none else s.ecc.exchange.lookup w := by
  unfold State.wordsWritten
  simp only [lookup_filter_fst (keep := fun n => !(decide (lo ≤ n) && decide (n < hi)))]
  by_cases h : lo ≤ w ∧ w < hi
  · simp [h]
  · rw [if_neg h, if_pos (by simp; omega)]

theorem State.rewrite_lookup (s u : State) (w : Nat) : (s.rewrite u).ecc.exchange.lookup w =
    if s.imageWord w = u.imageWord w then u.ecc.exchange.lookup w else none := by
  unfold State.rewrite
  simp only [lookup_filter_fst (keep := fun n => s.imageWord n == u.imageWord n), beq_iff_eq]

/-! ### Ordinary words -/

/-- A word of a slot body or of a record page: no image of a block's state (R128). -/
def ordinaryWord (w : Nat) : Prop := 1024 ≤ w ∧ (w < 5120 → (w - 1024) % 128 ≠ 0) ∧ (w < 5120 ∨ 6144 ≤ w)

theorem State.imageWord_of_ordinary (s : State) {w : Nat} (h : ordinaryWord w) : s.imageWord w = none := by
  obtain ⟨hlow, hslot, hstack⟩ := h
  unfold State.imageWord
  rw [if_neg (by omega)]
  by_cases hw : w < 5120
  · rw [if_pos hw, if_neg (hslot hw)]
  · rw [if_neg hw, if_neg (by omega)]

theorem State.word_of_ordinary (s : State) {w : Nat} (h : ordinaryWord w) : s.word w = s.mem.word (4 * w) := by
  unfold State.word
  rw [s.imageWord_of_ordinary h]
  rfl

theorem ordinaryWord_slot (k : SlotId) {j : Nat} (hlow : 1 ≤ j) (hhigh : j < 128) : ordinaryWord (slotWord k + j) := by
  have := k.isLt
  unfold ordinaryWord slotWord
  omega

/-- From `s` to `t` a word of exchange memory reads as before, and is as sound as before: the same bytes, and the same mark or a
single-bit error corrected. -/
def State.SameWord (s t : State) (w : Nat) : Prop :=
  t.mem.word (4 * w) = s.mem.word (4 * w) ∧
    (t.ecc.exchange.lookup w = s.ecc.exchange.lookup w ∨
      s.ecc.exchange.lookup w = some .single ∧ t.ecc.exchange.lookup w = none)

namespace State.SameWord

variable {s t u : State} {w : Nat}

theorem refl (s : State) (w : Nat) : s.SameWord s w := ⟨rfl, Or.inl rfl⟩

theorem trans (h : s.SameWord t w) (h' : t.SameWord u w) : s.SameWord u w := by
  obtain ⟨hm, he⟩ := h
  obtain ⟨hm', he'⟩ := h'
  refine ⟨hm'.trans hm, ?_⟩
  rcases he with he | ⟨hs, ht⟩
  · rw [he] at he'
    exact he'
  · rcases he' with he' | ⟨hbad, -⟩
    · exact Or.inr ⟨hs, he'.trans ht⟩
    · rw [ht] at hbad
      cases hbad

theorem wordAsRead (h : s.SameWord t w) (hw : ordinaryWord w) : t.wordAsRead w = s.wordAsRead w := by
  obtain ⟨hm, he⟩ := h
  unfold State.wordAsRead
  rw [t.word_of_ordinary hw, s.word_of_ordinary hw, hm]
  rcases he with he | ⟨hs, ht⟩
  · rw [he]
  · rw [hs, ht]

theorem badWord (h : s.SameWord t w) : t.badWord w = s.badWord w := by
  obtain ⟨-, he⟩ := h
  unfold State.badWord
  rcases he with he | ⟨hs, ht⟩
  · rw [he]
  · rw [hs, ht]

/-- A change of a block's state rewrites no ordinary word. -/
theorem rewrite (s u : State) (hm : u.mem = s.mem) (he : u.ecc.exchange = s.ecc.exchange) (hw : ordinaryWord w) :
    s.SameWord (s.rewrite u) w := by
  refine ⟨by rw [State.rewrite_mem, hm], Or.inl ?_⟩
  rw [State.rewrite_lookup, s.imageWord_of_ordinary hw, u.imageWord_of_ordinary hw, if_pos rfl, he]

/-- Bytes written elsewhere. -/
theorem writeBytes (s : State) {a lo hi : Nat} {bs : List Byte} (hm : 4 * w + 4 ≤ a ∨ a + bs.length ≤ 4 * w)
    (hw : w < lo ∨ hi ≤ w) : s.SameWord ({ s with mem := s.mem.writeBytes a bs }.wordsWritten lo hi) w := by
  refine ⟨?_, Or.inl ?_⟩
  · unfold Memory.word
    rw [State.wordsWritten_mem, Memory.bytes_writeBytes_of_disjoint _ _ hm]
  · rw [State.wordsWritten_lookup, if_neg (by omega)]

theorem report (s : State) (st : Store) (v : Word) (hw : ordinaryWord w) : s.SameWord (s.report st v) w := by
  have hlow := hw.1
  have put (c : Option Capture) : s.SameWord (s.putCapture c) w := by
    refine ⟨rfl, Or.inl ?_⟩
    unfold State.putCapture
    rw [State.wordsWritten_lookup, if_neg (by omega)]
  unfold State.report
  split
  · exact put _
  · exact put _

/-- A read through ECC leaves an ordinary word as it reads, the word read included (R138). -/
theorem checkWord (s : State) (v : Nat) (hw : ordinaryWord w) : s.SameWord (s.checkWord v) w := by
  unfold State.checkWord
  split
  · exact refl s w
  next hsingle =>
    have written : s.SameWord (s.wordsWritten v (v + 1)) w := by
      refine ⟨rfl, ?_⟩
      rw [State.wordsWritten_lookup]
      by_cases h : v ≤ w ∧ w < v + 1
      · rw [if_pos h]
        have : v = w := by omega
        exact Or.inr ⟨this ▸ hsingle, rfl⟩
      · rw [if_neg h]
        exact Or.inl rfl
    exact written.trans (rewrite (s.wordsWritten v (v + 1)) _ rfl rfl hw)
  · exact report s _ _ hw

end State.SameWord

/-! ### The request area -/

/-- From `s` to `t` the request area of slot `k` reads as before, word by word (R150). -/
def State.SameArea (s t : State) (k : SlotId) : Prop := ∀ j, 1 ≤ j → j < 32 → s.SameWord t (slotWord k + j)

namespace State.SameArea

variable {s t u : State} {k : SlotId}

theorem refl (s : State) (k : SlotId) : s.SameArea s k := fun _ _ _ => .refl s _

theorem trans (h : s.SameArea t k) (h' : t.SameArea u k) : s.SameArea u k := fun j hlow hhigh =>
  (h j hlow hhigh).trans (h' j hlow hhigh)

theorem of_ordinary (h : ∀ w, ordinaryWord w → s.SameWord t w) (k : SlotId) : s.SameArea t k := fun j hlow hhigh =>
  h _ (ordinaryWord_slot k hlow (by omega))

/-- Only what a check of exchange memory reads and rewrites. -/
theorem checkWords (s : State) (ws : List Nat) (k : SlotId) : s.SameArea (s.checkWords ws) k := by
  unfold State.checkWords
  induction ws generalizing s with
  | nil => exact refl s k
  | cons w ws ih => exact (of_ordinary (fun _ hw => .checkWord s w hw) k).trans (ih _)

theorem beginTake (s : State) (k : SlotId) (rest : List SlotId) : s.SameArea (s.beginTake k rest) k := by
  unfold State.beginTake
  exact checkWords ({ s with requests := { s.requests with intake := rest, quotaCount := s.requests.quotaCount + 1 } } : State)
    _ k

/-- Bytes written in the reply area of a slot, the same or another. -/
theorem writeReplyArea (s : State) (i : SlotId) {off : Nat} {bs : List Byte} {lo hi : Nat} (hoff : 128 ≤ off)
    (hlength : off + bs.length ≤ 512) (hlo : 32 ≤ lo) (hhi : hi ≤ 128) (k : SlotId) :
    s.SameArea ({ s with mem := s.mem.writeBytes (slotByte i + off) bs }.wordsWritten (slotWord i + lo) (slotWord i + hi)) k := by
  intro j hlow hhigh
  have := i.isLt
  have := k.isLt
  refine .writeBytes s ?_ ?_
  · unfold slotByte slotWord
    omega
  · unfold slotWord
    omega

variable (h : s.SameArea t k)

include h

theorem requestWord {j : Nat} (hlow : 1 ≤ j) (hhigh : j < 32) : t.requestWord k j = s.requestWord k j :=
  (h j hlow hhigh).wordAsRead (ordinaryWord_slot k hlow (by omega))

theorem param (off n : Nat) (hlow : 4 ≤ off) (hhigh : off < 128) : t.param k off n = s.param k off n := by
  unfold State.param
  rw [h.requestWord (by omega) (by omega)]

theorem optionWord : t.optionWord k = s.optionWord k := h.param _ _ (by decide) (by decide)

theorem optionBit (i : Nat) : t.optionBit k i = s.optionBit k i := by
  unfold State.optionBit
  rw [h.optionWord]

theorem requestKind : t.requestKind k = s.requestKind k := by
  unfold State.requestKind
  rw [h.param _ _ (by decide) (by decide)]

theorem serial : t.serial k = s.serial k := h.requestWord (by decide) (by decide)

theorem parameterWords (kind : Kind) : t.parameterWords k kind = s.parameterWords k kind := by
  cases kind
  case rebase =>
    unfold State.parameterWords
    dsimp only
    rw [h.param _ _ (by decide) (by decide)]
  all_goals rfl

theorem requestWords : t.requestWords k = s.requestWords k := by
  unfold State.requestWords
  rw [h.requestKind]
  cases s.requestKind k with
  | none => rfl
  | some kind => simp only [h.parameterWords kind]

end State.SameArea

/-- The words that a take reads lie in the request area. -/
theorem State.mem_requestWords {s : State} {k : SlotId} {w : Nat} (h : w ∈ s.requestWords k) :
    ∃ j, 1 ≤ j ∧ j < 32 ∧ w = slotWord k + j := by
  have parameters (kind : Kind) : ∀ j ∈ s.parameterWords k kind, 1 ≤ j ∧ j < 32 := by
    intro j hj
    cases kind
    case rebase =>
      simp only [State.parameterWords, List.mem_append, List.mem_cons, List.not_mem_nil, or_false] at hj
      rcases hj with hj | hj
      · omega
      · split at hj
        next hcount =>
          obtain ⟨n, hn, rfl⟩ := List.mem_map.mp hj
          have := List.mem_range.mp hn
          omega
        · cases hj
    case readCapture => cases hj
    all_goals
      simp only [State.parameterWords, List.mem_cons, List.not_mem_nil, or_false] at hj
      omega
  obtain ⟨j, hj, rfl⟩ := List.mem_map.mp h
  refine ⟨j, ?_⟩
  simp only [List.mem_append, List.mem_cons, List.not_mem_nil, or_false] at hj
  rcases hj with hj | hj
  · omega
  · split at hj
    next kind _ =>
      rcases List.mem_cons.mp hj with rfl | hj
      · omega
      · exact ⟨(parameters kind j hj).1, (parameters kind j hj).2, rfl⟩
    · cases hj

theorem State.SameArea.requestBad {s t : State} {k : SlotId} (h : s.SameArea t k) : t.requestBad k = s.requestBad k := by
  unfold State.requestBad
  rw [h.requestWords, Bool.eq_iff_iff, List.any_eq_true, List.any_eq_true]
  refine exists_congr fun w => and_congr_right fun hw => ?_
  obtain ⟨j, hlow, hhigh, rfl⟩ := State.mem_requestWords hw
  rw [(h j hlow hhigh).badWord]

theorem mapM_congr_of_mem {α β : Type} {f g : α → Option β} {l : List α} (h : ∀ a ∈ l, f a = g a) : l.mapM f = l.mapM g := by
  induction l with
  | nil => rfl
  | cons a l ih =>
    rw [List.mapM_cons, List.mapM_cons, h a List.mem_cons_self, ih fun b hb => h b (List.mem_cons_of_mem a hb)]

namespace State.SameArea

variable {s t : State} {k : SlotId} (h : s.SameArea t k)

include h

theorem pointRequest : t.pointRequest k = s.pointRequest k := by
  have := h.param 0x12 1 (by decide) (by decide)
  have := h.param 0x13 1 (by decide) (by decide)
  have := h.param 0x14 1 (by decide) (by decide)
  have := h.param 0x15 1 (by decide) (by decide)
  have := h.param 0x16 1 (by decide) (by decide)
  have := h.param 0x17 1 (by decide) (by decide)
  have := h.requestWord (j := 6) (by decide) (by decide)
  have := h.requestWord (j := 7) (by decide) (by decide)
  simp only [State.pointRequest, h.optionWord, *]

theorem timingRequest : t.timingRequest k = s.timingRequest k := by
  have := h.param 0x10 4 (by decide) (by decide)
  have := h.param 0x14 4 (by decide) (by decide)
  have := h.param 0x18 4 (by decide) (by decide)
  have := h.param 0x1C 4 (by decide) (by decide)
  have := h.param 0x20 4 (by decide) (by decide)
  have := h.param 0x24 4 (by decide) (by decide)
  simp only [State.timingRequest, h.optionWord, *]

theorem rebaseValue {i : Nat} (hi : i < 12) : t.rebaseValue k i = s.rebaseValue k i := by
  unfold State.rebaseValue
  rw [h.requestWord (by omega) (by omega), h.requestWord (by omega) (by omega)]

theorem rebaseValues : t.rebaseValues k = s.rebaseValues k := by
  unfold State.rebaseValues
  simp only [h.param 0x12 2 (by decide) (by decide), h.param 0x14 2 (by decide) (by decide), h.optionWord]
  split
  next hcount =>
    have same (i : Nat) (hi : i ∈ List.range (s.param k 0x14 2)) : t.rebaseValue k i = s.rebaseValue k i :=
      h.rebaseValue (by have := List.mem_range.mp hi; omega)
    exact mapM_congr_of_mem same
  · rfl

end State.SameArea

/-! ### Writes of the request unit -/

namespace State.SameArea

theorem of_same {s t : State} (hm : t.mem = s.mem) (he : t.ecc.exchange = s.ecc.exchange) (k : SlotId) : s.SameArea t k :=
  fun _ _ _ => ⟨by rw [hm], Or.inl (by rw [he])⟩

theorem rewritten (s u : State) (hm : u.mem = s.mem) (he : u.ecc.exchange = s.ecc.exchange) (k : SlotId) :
    s.SameArea (s.rewrite u) k := .of_ordinary (fun _ hw => .rewrite s u hm he hw) k

theorem writeField (s : State) (i k : SlotId) {off : Nat} (v : Word) (hlow : 128 ≤ off) (hhigh : off ≤ 508) :
    s.SameArea (s.writeField i off v) k := by
  unfold State.writeField
  rw [Nat.add_assoc]
  exact .writeReplyArea s i hlow (by simp only [wordBytes_length]; omega) (by omega) (by omega) k

theorem writeData (s : State) (i k : SlotId) {d : List Byte} (h : d.length ≤ 320) : s.SameArea (s.writeData i d) k := by
  unfold State.writeData
  rw [Nat.add_assoc]
  exact .writeReplyArea s i (off := 192) (lo := 48) (by decide) (by omega) (by decide) (by omega) k

theorem writeReply (s : State) (i k : SlotId) (n : Word) {r : Reply} (h : r.data.length ≤ 320) :
    s.SameArea (s.writeReply i n r) k := by
  unfold State.writeReply
  exact .writeReplyArea s i (off := 128) (lo := 32) (hi := 128) (by decide) (by rw [Reply.bytes_length n r h]) (by decide)
    (by decide) k

theorem setSlot (s : State) (i k : SlotId) (st : SlotState) : s.SameArea (s.setSlot i st) k := by
  unfold State.setSlot State.putRequests
  refine rewritten s _ ?_ ?_ k
  · rfl
  · rfl

theorem endSlot (s : State) (i k : SlotId) (st : SlotState) : s.SameArea (s.endSlot i st) k := by
  unfold State.endSlot
  exact .trans (.setSlot s i k st) (.of_same rfl rfl k)

theorem removePending (s : State) (i k : SlotId) : s.SameArea (s.removePending i) k := .of_same rfl rfl k

theorem endDeferred (s : State) (i k : SlotId) (st : SlotState) (o : ReplyOutcome) (r : Reason) (n : Word) (c : Nat)
    {d : List Byte} (h : d.length ≤ 320) : s.SameArea (s.endDeferred i st o r n c d) k := by
  unfold State.endDeferred
  refine .trans ?_ (removePending _ i k)
  refine .trans ?_ (endSlot _ i k st)
  refine .trans ?_ (writeData _ i k h)
  refine .trans ?_ (writeField _ i k _ (by decide) (by decide))
  refine .trans ?_ (writeField _ i k _ (by decide) (by decide))
  refine .trans ?_ (writeField _ i k _ (by decide) (by decide))
  exact writeField s i k _ (by decide) (by decide)

theorem regWritten (s : State) (p : SetId) (which : RegItem → Bool) (k : SlotId) : s.SameArea (s.regWritten p which) k :=
  .of_same rfl rfl k

theorem putRegs (s : State) (p : SetId) (r : RegisterSet) (k : SlotId) : s.SameArea (s.putRegs p r) k := .of_same rfl rfl k

/-- The end of a lost REBASE writes its slot's reply area alone (R110). -/
theorem loseRebase (s : State) (p : SetId) (k : SlotId) : s.SameArea (s.loseRebase p) k := by
  unfold State.loseRebase
  split
  · exact .trans (.putRegs s p _ k) (.endDeferred _ _ k _ _ _ _ _ (by simp))
  · exact .refl s k

theorem loseReg (s : State) (p : SetId) (it : RegItem) (k : SlotId) : s.SameArea (s.loseReg p it) k := by
  unfold State.loseReg
  cases it
  case rebase => exact .trans (.loseRebase s p k) (.regWritten _ p _ k)
  all_goals exact .trans (.putRegs s p _ k) (.regWritten _ p _ k)

/-- A check of the register store leaves every request area as it reads (R108). -/
theorem checkReg (s : State) (p : SetId) (it : RegItem) (k : SlotId) : s.SameArea (s.checkReg p it) k := by
  unfold State.checkReg
  split
  · exact .refl s k
  · unfold State.countCorrected State.putWatchCounters
    refine .trans (of_same rfl rfl k : s.SameArea (s.regWritten p fun x => x == it) k) (rewritten _ _ ?_ ?_ k)
    · rfl
    · rfl
  · exact .trans (.of_ordinary (fun _ hw => .report s _ _ hw) k) (loseReg _ p it k)

end State.SameArea

end Sys2Proof.Machine
end

section
/-! SUPPORT. Closes: the parts that a close start changes, and what keeps a predicate through asks and held-close tests. -/

namespace Sys2Proof.Machine

/-! ### The close start, part by part -/

theorem State.closeStart_regs (s : State) (b : BankId) (a : Fin 2) (h : HeldClose) : (s.closeStart b a h).regs =
    tabulate 41 fun p => if bankOfSet p = b then s.regs[p].makeDue else s.regs[p] := by
  have hregs := (s.applyStaged_touches b).regs (by decide)
  have written : ∀ u : State, u.regs = s.regs → (u.makeDue b).regs =
      tabulate 41 fun p => if bankOfSet p = b then s.regs[p].makeDue else s.regs[p] := by
    intro u hu
    unfold State.makeDue
    rw [← hu]
  unfold State.closeStart
  exact written _ hregs

theorem State.closeStart_banks (s : State) (b : BankId) (a : Fin 2) (h : HeldClose) :
    (s.closeStart b a h).banks = s.banks.set b ((s.applyStaged b).turnedBank b a h) := by
  have hbanks := (s.applyStaged_touches b).banks (by decide)
  rw [← hbanks]
  rfl

/-- The fold that a close start begins (R81). -/
def State.begunFold (s : State) (b : BankId) (a : Fin 2) (h : HeldClose) : Fold :=
  { set := a, interval := s.banks[b].interval, causes := h.causes, position := 0, lost := 0, lostCounter := 0 }

theorem State.closeStart_folds (s : State) (b : BankId) (a : Fin 2) (h : HeldClose) :
    (s.closeStart b a h).folds = s.folds.set b (some (s.begunFold b a h)) := by
  have hfolds := (s.applyStaged_touches b).folds (by decide)
  rw [← hfolds]
  rfl

/-- A pending entry after the report of a close start (R83, R154). -/
def PendingEntry.started (e : PendingEntry) (b : BankId) (n : Word) (waiters : List (SlotId × WaitCause)) : PendingEntry :=
  if waiters.any fun w => w.1 == e.slot then { e with work := e.work.beginFold b n } else e

theorem State.closeStart_table (s : State) (b : BankId) (a : Fin 2) (h : HeldClose) : (s.closeStart b a h).requests.table =
    s.requests.table.map fun e => e.started b s.banks[b].interval h.waiters := by
  have htable := (s.applyStaged_touches b).table (by decide)
  rw [← htable]
  rfl

/-- The held-close test: nothing, or the close start of an OPEN bank with a held close that may start (R78, R80). -/
theorem State.heldTest_cases (s : State) (b : BankId) : s.heldTest b = s ∨ ∃ a h, s.control.warm = false ∧
    s.banks[b].phase = .opened a ∧ s.banks[b].held = some h ∧ s.banks[b].mayStart = true ∧
    s.heldTest b = s.closeStart b a h := by
  cases hw : s.control.warm with
  | true => exact Or.inl (s.heldTest_of_warm hw b)
  | false =>
    cases hm : s.banks[b].mayStart with
    | false => exact Or.inl (State.heldTest_of_not_mayStart hm)
    | true =>
      right
      have may := hm
      unfold Bank.mayStart at may
      split at may
      next a h hp hh => exact ⟨a, h, rfl, hp, hh, rfl, State.heldTest_of_mayStart hw hp hh hm⟩
      · cases may

/-- An ask changes the held close alone. -/
theorem Bank.ask_eq (x : Bank) (cause : Causes) (waiter : List (SlotId × WaitCause)) : x.ask cause waiter =
    { x with
      held :=
        if x.takesClose = true then some ⟨x.heldCauses.union cause, (x.held.map HeldClose.waiters).getD [] ++ waiter⟩
        else x.held } := by
  unfold Bank.ask Bank.heldCauses
  split
  · cases hheld : x.held with
    | none => simp [Causes.union, State.noCauses]
    | some h => rfl
  · rfl

/-! ### The end of a fold -/

/-- The bank leaves its fold, and CLOSE is latched under NOTIFY (R82). -/
def State.foldEnded (s : State) (b : BankId) : State :=
  let s := (s.putBank b { s.banks[b] with phase := s.banks[b].phase.folded }).putFold b none
  if s.banks[b].notify then s.latch .close else s

theorem State.completeFold_eq (s : State) (b : BankId) (f : Fold) : s.completeFold b f =
    ((((s.foldEnded b).reportCompletion b f.interval).flush).heldTest b).pushLost b f := rfl

theorem State.foldEnded_touches (s : State) (b : BankId) :
    s.Touches [.banks, .folds, .latched, .exchangeMarks] (s.foldEnded b) := by
  unfold State.foldEnded
  dsimp only
  have left : s.Touches [.banks, .folds, .latched, .exchangeMarks]
      ((s.putBank b { s.banks[b] with phase := s.banks[b].phase.folded }).putFold b none) :=
    (s.putBank_touches b _).seq (State.putFold_touches _ b none) (by decide) (by decide)
  exact .ite (left.trans ((State.latch_touches _ .close).mono (by decide))) left

theorem State.foldEnded_banks (s : State) (b : BankId) :
    (s.foldEnded b).banks = s.banks.set b { s.banks[b] with phase := s.banks[b].phase.folded } := by
  unfold State.foldEnded
  dsimp only
  split
  · rfl
  · rfl

theorem State.foldEnded_folds (s : State) (b : BankId) : (s.foldEnded b).folds = s.folds.set b none := by
  unfold State.foldEnded
  dsimp only
  split
  · rfl
  · rfl

/-! ### Predicates that closes keep -/

/-- The parts beside the banks that a window addition touches: no close depends on them. -/
def Part.besideAddition : List Part := [.accounting, .bankCounters, .exceptions, .latched, .exchangeMarks]

/-- A predicate of the parts `core` that an ask and a close start keep. -/
structure KeptByCloses (P : State → Prop) (core : List Part) : Prop where
  beside : ∀ p ∈ core, p ∉ Part.besideAddition
  frame : ∀ {s t : State} {qs : List Part}, P s → s.Touches qs t → (∀ p ∈ core, p ∉ qs) → P t
  ask : ∀ (s : State) (b : BankId) (cause : Causes) (waiter : List (SlotId × WaitCause)), cause.isEmpty = false → P s →
    P (s.putBank b (s.banks[b].ask cause waiter))
  start : ∀ (s : State) (b : BankId) (a : Fin 2) (h : HeldClose), s.banks[b].phase = .opened a →
    s.banks[b].held = some h → P s → P (s.closeStart b a h)

theorem State.putBank_self_touches (s : State) (b : BankId) : s.Touches [.exchangeMarks] (s.putBank b s.banks[b]) := by
  have same : s.banks.set b s.banks[b] = s.banks := Vector.set_getElem_self b.isLt
  unfold State.putBank
  rw [same]
  exact .of_eq _ rfl

namespace KeptByCloses

variable {P : State → Prop} {core : List Part} (hP : KeptByCloses P core)

include hP

theorem aside {s t : State} (hs : P s) {qs : List Part} (h : s.Touches qs t) (hqs : ∀ p ∈ qs, p ∈ Part.besideAddition) : P t :=
  hP.frame hs h fun p hp hmem => hP.beside p hp (hqs p hmem)

theorem heldTest {s : State} (hs : P s) (b : BankId) : P (s.heldTest b) := by
  rcases s.heldTest_cases b with h | ⟨a, h, -, hphase, hheld, -, heq⟩
  · rw [h]
    exact hs
  · rw [heq]
    exact hP.start s b a h hphase hheld hs

theorem heldTests {s : State} (hs : P s) (bs : List BankId) : P (bs.foldl State.heldTest s) :=
  foldl_keeps (P := P) bs (fun _ b _ hu => hP.heldTest hu b) hs

theorem askClose {s : State} (hs : P s) (b : BankId) {cause : Causes} (hcause : cause.isEmpty = false)
    (waiter : List (SlotId × WaitCause)) : P (s.askClose b cause waiter) := by
  unfold State.askClose
  exact hP.heldTest (hP.ask s b cause waiter hcause hs) b

theorem askBanks {s : State} (hs : P s) (bs : List BankId) {cause : Causes} (hcause : cause.isEmpty = false)
    (waiter : SlotId × WaitCause) : P (s.askBanks bs cause waiter) := by
  unfold State.askBanks
  exact foldl_keeps (P := P) bs (fun _ b _ hu => hP.askClose hu b hcause _) hs

theorem tariffAt {s : State} (hs : P s) (b : BankId) : P (s.tariffAt b) := by
  unfold State.tariffAt
  split
  · exact hP.askClose hs b rfl []
  · exact hP.aside hs (State.putBankCounters_touches s _) (by decide)

theorem tariffEvent {s : State} (hs : P s) : P ((List.finRange 8).foldl State.tariffAt s) :=
  foldl_keeps (P := P) _ (fun _ b _ hu => hP.tariffAt hu b) hs

theorem askTiming {s : State} (hs : P s) (b : BankId) : P (s.putBank b s.banks[b].askTiming) := by
  unfold Bank.askTiming
  split
  · exact hP.aside hs (s.putBank_self_touches b) (by decide)
  next h => exact hP.ask s b _ [] (by simpa using h) hs

/-- A window addition keeps what the addition into the set keeps (R65, R75 to R78). -/
theorem windowAddition {s : State} (hs : P s) (b : BankId)
    (hadd : ∀ (u : State) (i : Fin 2) (q : Seq16) (m : Nat) (c : Calculation), P u → P (u.addToSet b i q m c)) :
    P (s.windowAddition b) := by
  have marked (a : Option Accounting) (m : Nat) : P ({ s with accounting := a }.countHanded b m) :=
    hP.aside (hP.aside hs (.of_eq (t := { s with accounting := a }) [.accounting] rfl) (by decide))
      (State.countHanded_touches _ b m) (by decide)
  have missed (u : State) (hu : P u) : P u.countNotAccounted := hP.aside hu u.countNotAccounted_touches (by decide)
  have added (u : State) (hu : P u) (i : Fin 2) (q : Seq16) (m : Nat) (c : Calculation) : P (u.addWindow b i q m c) := by
    unfold State.addWindow
    exact hP.aside (hP.heldTest (hP.askTiming (hadd u i q m c hu) b) b) (State.pushOverlong_touches _ b _) (by decide)
  unfold State.windowAddition
  split
  · split
    · split
      · exact hs
      · dsimp only
        split
        · split
          · exact missed _ (marked _ _)
          · exact added _ (marked _ _) _ _ _ _
        · exact missed _ (marked _ _)
    · exact hs
  · exact hs

end KeptByCloses

end Sys2Proof.Machine
end

section
/-! SUPPORT. The register sets: what each operation on one keeps, and every step with them. -/

namespace Sys2Proof.Machine

/-! ### Quantities and scales -/

/-- A quantity's register and residue are within R90 at a scale. -/
def Quantity.InRange (q : Quantity) (scale : Fin 4) : Prop := q.register < registerLimit ∧ q.residue < residueLimit scale

theorem lostQuantity_inRange (scale : Fin 4) : lostQuantity.InRange scale :=
  ⟨by simp [lostQuantity, registerLimit], by simp [lostQuantity, residueLimit]⟩

theorem residueLimit_pos (scale : Fin 4) : 0 < residueLimit scale := Nat.pow_pos (by decide)

theorem residueLimit_eq_mul {old new : Fin 4} (h : old ≤ new) :
    residueLimit new = 10 ^ (new.val - old.val) * residueLimit old := by
  have hval : old.val ≤ new.val := h
  unfold residueLimit
  rw [← Nat.pow_add]
  congr 1
  omega

theorem Quantity.InRange.raise {q : Quantity} {old new : Fin 4} (hq : q.InRange old) (h : old < new) :
    (q.raise old (new.val - old.val)).InRange new := by
  obtain ⟨hregister, hresidue⟩ := hq
  refine ⟨Nat.lt_of_le_of_lt (Nat.div_le_self _ _) hregister, ?_⟩
  rw [residueLimit_eq_mul (Nat.le_of_lt h)]
  have digits : q.register % 10 ^ (new.val - old.val) < 10 ^ (new.val - old.val) := Nat.mod_lt _ (Nat.pow_pos (by decide))
  calc q.register % 10 ^ (new.val - old.val) * residueLimit old + q.residue
      < (q.register % 10 ^ (new.val - old.val) + 1) * residueLimit old := by rw [Nat.succ_mul]; omega
    _ ≤ 10 ^ (new.val - old.val) * residueLimit old := Nat.mul_le_mul_right _ digits

theorem Quantity.lower_inRange (q : Quantity) (new : Fin 4) (k : Nat) : (q.lower new k).InRange new :=
  ⟨Nat.mod_lt _ (by decide), Nat.mod_lt _ (residueLimit_pos new)⟩

theorem Quantity.InRange.addTotal {q : Quantity} {scale : Fin 4} (hq : q.InRange scale) (total : Nat) :
    (q.addTotal scale total).InRange scale := by
  unfold Quantity.addTotal
  split
  · exact hq
  next hvalid =>
    split
    · exact hq
    next hoverflow =>
      refine ⟨?_, Nat.mod_lt _ (residueLimit_pos scale)⟩
      unfold Quantity.overflows at hoverflow
      simp only [Bool.not_eq_true', Bool.not_eq_false, Bool.not_eq_true, Bool.and_eq_false_iff, decide_eq_false_iff_not]
        at hvalid hoverflow
      rw [hvalid] at hoverflow
      simpa using hoverflow

/-! ### One register set -/

/-- A register set within R90; BP's has scale 0 and no staged scale. -/
def RegisterSet.OkFor (r : RegisterSet) (p : SetId) : Prop := r.Ok ∧ (p = 40 → r.scale = 0 ∧ r.staged = none)

theorem State.registersOk_iff (s : State) : s.RegistersOk ↔ ∀ p : SetId, s.regs[p].OkFor p := by
  constructor
  · rintro ⟨hok, hscale, hstaged⟩ p
    exact ⟨hok p, fun hp => hp ▸ ⟨hscale, hstaged⟩⟩
  · intro h
    exact ⟨fun p => (h p).1, ((h 40).2 rfl).1, ((h 40).2 rfl).2⟩

namespace RegisterSet.OkFor

variable {r : RegisterSet} {p : SetId} (h : r.OkFor p)

include h

theorem inRange (q : QuantityId) : r.quantities[q].InRange r.scale := h.1.1 q

/-- Other quantities in range. -/
theorem withQuantities {qs : Vector Quantity 104} (hq : ∀ q : QuantityId, qs[q].InRange r.scale) :
    { r with quantities := qs }.OkFor p := ⟨⟨hq, h.1.2⟩, h.2⟩

theorem withoutStaged : { r with staged := none }.OkFor p :=
  ⟨⟨h.1.1, fun _ hx => (by cases hx), h.1.2.2⟩, fun hp => ⟨(h.2 hp).1, rfl⟩⟩

/-- The pending REBASE gone, or as it was. -/
theorem keepRebase {o : Option PendingRebase} (ho : ∀ x, o = some x → r.rebase = some x) : { r with rebase := o }.OkFor p :=
  ⟨⟨h.1.1, h.1.2.1, fun x hx => h.1.2.2 x (ho x hx)⟩, h.2⟩

theorem withoutRebase : { r with rebase := none }.OkFor p := h.keepRebase fun _ hx => (by cases hx)

theorem withLastFolded (n : Word) : { r with lastFolded := n }.OkFor p := h

theorem lost : { r with scale := 0, staged := none, quantities := Vector.replicate 104 lostQuantity }.OkFor p := by
  refine ⟨⟨fun q => ?_, fun _ hx => (by cases hx), h.1.2.2⟩, fun _ => ⟨rfl, rfl⟩⟩
  rw [show (Vector.replicate 104 lostQuantity)[q] = lostQuantity by simp]
  exact lostQuantity_inRange 0

theorem withRebase {x : PendingRebase} (hx : 1 ≤ x.values.length ∧ x.values.length ≤ 12 ∧ x.first + x.values.length ≤ 104 ∧
    ∀ v ∈ x.values, v < registerLimit) : { r with rebase := some x }.OkFor p := by
  refine ⟨⟨h.1.1, h.1.2.1, fun y hy => ?_⟩, h.2⟩
  cases hy
  exact hx

theorem makeDue : r.makeDue.OkFor p := by
  obtain ⟨⟨hq, hstaged, hrebase⟩, hbp⟩ := h
  refine ⟨⟨hq, fun x hx => ?_, fun x hx => ?_⟩, fun hp => ?_⟩
  · obtain ⟨y, hy, rfl⟩ := Option.map_eq_some_iff.mp hx
    exact hstaged y hy
  · obtain ⟨y, hy, rfl⟩ := Option.map_eq_some_iff.mp hx
    exact hrebase y hy
  · unfold RegisterSet.makeDue
    exact ⟨(hbp hp).1, by rw [(hbp hp).2]; rfl⟩

theorem stageScale (v : Fin 4) (hp : p ≠ 40) : (r.stageScale v).OkFor p := by
  refine ⟨⟨h.1.1, fun x hx => ?_, h.1.2.2⟩, fun hbp => absurd hbp hp⟩
  unfold RegisterSet.stageScale at hx ⊢
  dsimp only at hx ⊢
  split at hx
  · cases hx
  next hne =>
    cases hx
    exact hne

theorem rescale (new : Fin 4) (hp : p ≠ 40) : (r.rescale new).OkFor p := by
  refine ⟨⟨fun q => ?_, fun _ hx => (by cases hx), h.1.2.2⟩, fun hbp => absurd hbp hp⟩
  unfold RegisterSet.rescale RegisterSet.mapQuantities
  simp only [getElem_fin_tabulate]
  split
  next hlt => exact (h.inRange q).raise hlt
  · exact Quantity.lower_inRange _ _ _

theorem scalePart : r.scalePart.OkFor p := by
  unfold RegisterSet.scalePart
  split
  next v hv =>
    split
    · exact h.withoutStaged
    · refine h.rescale v fun hp => ?_
      unfold RegisterSet.dueScale at hv
      rw [(h.2 hp).2] at hv
      cases hv
  · exact h

/-- A due rebase gives its quantities values of 16 digits (R94, R101). -/
theorem value_lt {x : PendingRebase} (hx : r.dueRebase = some x) {q v : Nat} (hv : x.valueFor q = some v) :
    v < registerLimit := by
  have hpending : r.rebase = some x := by
    unfold RegisterSet.dueRebase at hx
    split at hx
    next y hy =>
      split at hx
      · rw [hy]
        exact hx
      · cases hx
    · cases hx
  obtain ⟨-, -, -, hvalues⟩ := h.1.2.2 x hpending
  unfold PendingRebase.valueFor at hv
  split at hv
  · exact hvalues v (List.mem_of_getElem? hv)
  · cases hv

theorem settle (totals : Vector (BitVec 64) 104) : (r.settle totals).OkFor p := by
  have quantities : (r.mapQuantities fun i q =>
      q.settle r.scale (r.dueRebase.bind fun x => x.valueFor i.val) totals[i].toNat).OkFor p := by
    refine h.withQuantities fun q => ?_
    rw [getElem_fin_tabulate]
    unfold Quantity.settle
    dsimp only
    split
    next v hv =>
      obtain ⟨x, hx, hv⟩ := Option.bind_eq_some_iff.mp hv
      exact ⟨h.value_lt hx hv, residueLimit_pos _⟩
    · exact (h.inRange q).addTotal _
  unfold RegisterSet.settle
  refine quantities.keepRebase fun x hx => ?_
  split at hx
  · cases hx
  · exact hx

end RegisterSet.OkFor

/-! ### The register store -/

namespace State.RegistersOk

variable {s t : State}

theorem of_touches (hs : s.RegistersOk) {ps : List Part} (h : s.Touches ps t) (hp : Part.regs ∉ ps) : t.RegistersOk := by
  unfold State.RegistersOk
  rw [h.regs hp]
  exact hs

theorem okFor (hs : s.RegistersOk) (p : SetId) : s.regs[p].OkFor p := s.registersOk_iff.mp hs p

theorem of_regs {rs : Vector RegisterSet 41} (hr : ∀ p : SetId, rs[p].OkFor p) (ht : t.regs = rs) : t.RegistersOk :=
  t.registersOk_iff.mpr fun p => ht ▸ hr p

theorem putRegs (hs : s.RegistersOk) {p : SetId} {r : RegisterSet} (hr : r.OkFor p) : (s.putRegs p r).RegistersOk := by
  refine of_regs (rs := s.regs.set p r) (fun i => ?_) rfl
  rw [getElem_fin_set]
  split
  next h => exact h ▸ hr
  · exact hs.okFor i

theorem regWritten (hs : s.RegistersOk) (p : SetId) (which : RegItem → Bool) : (s.regWritten p which).RegistersOk := hs

theorem endDeferred (hs : s.RegistersOk) (k : SlotId) (st : SlotState) (o : ReplyOutcome) (r : Reason) (n : Word) (c : Nat)
    (d : List Byte) : (s.endDeferred k st o r n c d).RegistersOk :=
  hs.of_touches (s.endDeferred_touches k st o r n c d) (by decide)

/-- A lost word leaves its set in range (R109, R110). -/
theorem loseReg (hs : s.RegistersOk) (p : SetId) (it : RegItem) : (s.loseReg p it).RegistersOk := by
  have lost (q : QuantityId) : { s.regs[p] with quantities := s.regs[p].quantities.set q lostQuantity }.OkFor p := by
    refine (hs.okFor p).withQuantities fun i => ?_
    rw [getElem_fin_set]
    split
    · exact lostQuantity_inRange _
    · exact (hs.okFor p).inRange i
  unfold State.loseReg
  cases it with
  | register q => exact (hs.putRegs (lost q)).regWritten p _
  | residue q => exact (hs.putRegs (lost q)).regWritten p _
  | state q => exact (hs.putRegs (lost q)).regWritten p _
  | scale => exact (hs.putRegs (hs.okFor p).lost).regWritten p _
  | staged => exact (hs.putRegs (hs.okFor p).withoutStaged).regWritten p _
  | lastFolded => exact (hs.putRegs ((hs.okFor p).withLastFolded 0)).regWritten p _
  | rebase =>
    refine regWritten ?_ p _
    unfold State.loseRebase
    split
    · exact (hs.putRegs (hs.okFor p).withoutRebase).endDeferred _ _ _ _ _ _ _
    · exact hs

theorem checkReg (hs : s.RegistersOk) (p : SetId) (it : RegItem) : (s.checkReg p it).RegistersOk := by
  unfold State.checkReg
  split
  · exact hs
  · exact hs
  · refine loseReg ?_ p it
    exact hs.of_touches (s.report_checked _ _).touches (by decide)

theorem checkRegs (hs : s.RegistersOk) (p : SetId) (items : List RegItem) : (s.checkRegs p items).RegistersOk := by
  unfold State.checkRegs
  exact foldl_keeps (P := State.RegistersOk) items (fun _ it _ hu => hu.checkReg p it) hs

end State.RegistersOk

/-- Asks leave the register store; a close start makes items due (R95). -/
theorem State.registersOk_keptByCloses : KeptByCloses State.RegistersOk [.regs] where
  beside := by decide
  frame hs h hcore := hs.of_touches h (hcore _ (by decide))
  ask s b cause waiter _ hs := hs.of_touches (s.putBank_touches b _) (by decide)
  start s b a h _ _ hs := by
    refine .of_regs (fun p => ?_) (s.closeStart_regs b a h)
    rw [getElem_fin_tabulate]
    split
    · exact (hs.okFor p).makeDue
    · exact hs.okFor p

namespace State.RegistersOk

variable {s : State}

/-! ### A point step -/

theorem stepReads (hs : s.RegistersOk) (b : BankId) (i : Fin 2) (e : Fin 6) : (s.stepReads b i e).RegistersOk := by
  unfold State.stepReads
  exact ((hs.checkRegs _ _).checkRegs _ _).of_touches (State.checkAccs_touches _ b i _) (by decide)

theorem stepScale (hs : s.RegistersOk) (p : SetId) (n : Word) : (s.stepScale p n).RegistersOk := by
  have put : (s.putRegs p s.regs[p].scalePart).RegistersOk := hs.putRegs (hs.okFor p).scalePart
  unfold State.stepScale
  dsimp only
  split
  · exact put.of_touches (State.push_pushed _ _ _ _ _ _ _).touches (by decide)
  · exact put

theorem stepSettle (hs : s.RegistersOk) (p : SetId) (n : Word) (totals : Vector (BitVec 64) 104) :
    (s.stepSettle p n totals).RegistersOk := by
  have settled : ((s.putRegs p (s.regs[p].settle totals)).regWritten p s.regs[p].rebasesWord).RegistersOk :=
    hs.putRegs ((hs.okFor p).settle totals)
  have ended : (match s.regs[p].dueRebase with
      | some x => ((s.putRegs p (s.regs[p].settle totals)).regWritten p s.regs[p].rebasesWord).endRebase p n x
      | none => (s.putRegs p (s.regs[p].settle totals)).regWritten p s.regs[p].rebasesWord).RegistersOk := by
    split
    · exact settled.endDeferred _ _ _ _ _ _ _
    · exact settled
  unfold State.stepSettle
  dsimp only
  split
  · exact ended.of_touches (State.push_pushed _ _ _ _ _ _ _).touches (by decide)
  · exact ended

theorem stepRecord (hs : s.RegistersOk) (b : BankId) (e : Fin 6) (f : Fold) (rebased : Bool) :
    (s.stepRecord b e f rebased).RegistersOk := by
  unfold State.stepRecord
  split
  · exact (hs.of_touches (s.checkAccs_touches b _ _) (by decide)).of_touches
      (State.writeRecord_recordEffect _ b _ _).touches (by decide)
  · exact hs

theorem stepInterval (hs : s.RegistersOk) (p : SetId) (n : Word) : (s.stepInterval p n).RegistersOk := by
  unfold State.stepInterval
  exact (hs.putRegs ((hs.okFor p).withLastFolded n)).regWritten p _

theorem stepEntry (hs : s.RegistersOk) (b : BankId) (f : Fold) (e : Fin 6) : (s.stepEntry b f e).RegistersOk := by
  unfold State.stepEntry
  refine of_touches ?_ (State.putFold_touches _ b _) (by decide)
  exact ((((hs.stepReads b f.set e).stepScale _ _).stepSettle _ _ _).stepRecord b e f _).stepInterval _ _

/-! ### The takes -/

theorem beginTake (hs : s.RegistersOk) (k : SlotId) (rest : List SlotId) : (s.beginTake k rest).RegistersOk :=
  hs.of_touches (s.beginTake_touches k rest) (by decide)

theorem finish (hs : s.RegistersOk) (k : SlotId) (st : SlotState) (r : Reply) : (s.finish k st r).RegistersOk :=
  hs.of_touches (s.finish_touches k st r) (by decide)

theorem refuse (hs : s.RegistersOk) (k : SlotId) (r : Reason) : (s.refuse k r).RegistersOk :=
  hs.of_touches (s.refuse_touches k r) (by decide)

theorem done (hs : s.RegistersOk) (k : SlotId) (r : Reply) : (s.done k r).RegistersOk :=
  hs.of_touches (s.done_touches k r) (by decide)

theorem finishPoint (hs : s.RegistersOk) (k : SlotId) (p : PointId) (st : SlotState) (r : Reply) :
    (s.finishPoint k p st r).RegistersOk := by
  unfold State.finishPoint
  exact (hs.checkRegs _ _).finish k st _

theorem headroomReads (hs : s.RegistersOk) (p : PointId) (v : Fin 4) : (s.headroomReads p v).RegistersOk := by
  unfold State.headroomReads
  dsimp only
  split
  · exact (hs.checkReg _ _).checkRegs _ _
  · exact hs.checkReg _ _

theorem setOf_ne_bp (p : PointId) : setOf p ≠ 40 := by
  intro h
  have := congrArg Fin.val h
  have := p.isLt
  simp only [setOf] at *
  omega

theorem writePoint (hs : s.RegistersOk) (p : PointId) (r : PointRequest) : (s.writePoint p r).RegistersOk := by
  unfold State.writePoint
  dsimp only
  split
  · exact hs.putRegs ((hs.okFor _).stageScale r.scale (setOf_ne_bp p))
  · exact hs.putRegs ((hs.okFor _).stageScale r.scale (setOf_ne_bp p))

theorem takeSetPoint (hs : s.RegistersOk) (k : SlotId) : (s.takeSetPoint k).RegistersOk := by
  unfold State.takeSetPoint State.judgePoint
  dsimp only
  split
  · split
    · split
      · exact hs.finishPoint k _ _ _
      · split
        · exact hs.finishPoint k _ _ _
        · split
          · exact (hs.headroomReads _ _).finishPoint k _ _ _
          · exact ((hs.headroomReads _ _).writePoint _ _).finishPoint k _ _ _
    · exact hs.finishPoint k _ _ _
  · exact hs.refuse k _

theorem judgeRead (hs : s.RegistersOk) (k : SlotId) (size : Nat) {read : SetId → Nat → Nat → State}
    (hread : ∀ p first count, (read p first count).RegistersOk) : (s.judgeRead k size read).RegistersOk := by
  unfold State.judgeRead
  dsimp only
  split
  · split
    · exact hread _ _ _
    · exact hs.refuse k _
  · exact hs.refuse k _

theorem readQuantities (hs : s.RegistersOk) (k : SlotId) (p : SetId) (first count : Nat) :
    (s.readQuantities k p first count).RegistersOk := by
  unfold State.readQuantities
  exact (hs.checkRegs _ _).done k _

theorem readNet (hs : s.RegistersOk) (k : SlotId) (p : SetId) (first count : Nat) :
    (s.readNet k p first count).RegistersOk := by
  unfold State.readNet
  exact (hs.checkRegs _ _).done k _

end State.RegistersOk

/-! ### The values of a REBASE -/

theorem unpackDecimal_lt {bs : List Byte} {v : Nat} (h : unpackDecimal bs = some v) : v < 100 ^ bs.length := by
  induction bs generalizing v with
  | nil => cases h; decide
  | cons b bs ih =>
    unfold unpackDecimal at h
    split at h
    next hdigits =>
      obtain ⟨u, hu, rfl⟩ := Option.map_eq_some_iff.mp h
      have := ih hu
      rw [List.length_cons, Nat.pow_succ]
      omega
    · cases h

/-- The values that a list of tests all gave. -/
theorem mapM_eq_some {α β : Type} {f : α → Option β} {l : List α} {ys : List β} (h : l.mapM f = some ys) :
    ys.length = l.length ∧ ∀ y ∈ ys, ∃ a ∈ l, f a = some y := by
  induction l generalizing ys with
  | nil =>
    rw [List.mapM_nil] at h
    cases h
    exact ⟨rfl, fun y hy => by cases hy⟩
  | cons a l ih =>
    rw [List.mapM_cons] at h
    obtain ⟨y, hy, h⟩ := Option.bind_eq_some_iff.mp h
    obtain ⟨zs, hzs, h⟩ := Option.bind_eq_some_iff.mp h
    cases h
    obtain ⟨hlength, hmem⟩ := ih hzs
    refine ⟨by rw [List.length_cons, List.length_cons, hlength], fun x hx => ?_⟩
    rcases List.mem_cons.mp hx with rfl | hx
    · exact ⟨a, List.mem_cons_self, hy⟩
    · obtain ⟨c, hc, hfc⟩ := hmem x hx
      exact ⟨c, List.mem_cons_of_mem a hc, hfc⟩

theorem State.rebaseValue_lt {s : State} {k : SlotId} {i v : Nat} (h : s.rebaseValue k i = some v) : v < registerLimit := by
  have := unpackDecimal_lt h
  simpa [registerLimit] using this

theorem State.rebaseValues_ok {s : State} {k : SlotId} {values : List Nat} (h : s.rebaseValues k = some values) :
    1 ≤ values.length ∧ values.length ≤ 12 ∧ s.param k 0x12 2 + values.length ≤ 104 ∧
      ∀ v ∈ values, v < registerLimit := by
  unfold State.rebaseValues at h
  dsimp only at h
  split at h
  next hcount =>
    obtain ⟨hlow, hhigh, hsum, -⟩ := hcount
    obtain ⟨hlength, hmem⟩ := mapM_eq_some h
    rw [List.length_range] at hlength
    rw [hlength]
    refine ⟨hlow, hhigh, hsum, fun v hv => ?_⟩
    obtain ⟨i, -, hi⟩ := hmem v hv
    exact State.rebaseValue_lt hi
  · cases h

namespace State.RegistersOk

variable {s : State}

theorem holdRebase (hs : s.RegistersOk) (k : SlotId) (p : SetId) {values : List Nat}
    (hv : 1 ≤ values.length ∧ values.length ≤ 12 ∧ s.param k 0x12 2 + values.length ≤ 104 ∧
      ∀ v ∈ values, v < registerLimit) :
    (s.holdRebase k p values).RegistersOk := by
  unfold State.holdRebase
  have deferred : (s.defer k (.rebase p) s.banks[bankOfSet p].rebaseEstimate).RegistersOk :=
    hs.of_touches (s.defer_touches k _ _) (by decide)
  exact (deferred.putRegs ((deferred.okFor p).withRebase hv)).regWritten p _

theorem takeRebase (hs : s.RegistersOk) (k : SlotId) : (s.takeRebase k).RegistersOk := by
  unfold State.takeRebase
  dsimp only
  split
  · split
    next values hvalues =>
      split
      · exact hs.refuse k _
      · have checked := hs.checkReg ⟨s.param k 0x10 2, by assumption⟩ .rebase
        split
        · exact checked.refuse k _
        · refine checked.holdRebase k _ ?_
          rw [(State.SameArea.checkReg s _ .rebase k).param 0x12 2 (by decide) (by decide)]
          exact State.rebaseValues_ok hvalues
    · exact hs.refuse k _
  · exact hs.refuse k _

theorem withdraw (hs : s.RegistersOk) (k : SlotId) (w : Work) : (s.withdraw k w).RegistersOk := by
  cases w with
  | banks kind out closed =>
    unfold State.withdraw
    exact foldl_keeps (P := State.RegistersOk) out
      (fun u o _ hu => hu.of_touches (u.putBank_touches o.1 _) (by decide)) hs
  | rebase p => exact hs.putRegs (hs.okFor p).withoutRebase

theorem takeCancel (hs : s.RegistersOk) (k : SlotId) : (s.takeCancel k).RegistersOk := by
  unfold State.takeCancel State.cancelSlot
  dsimp only
  split
  · split
    · exact ((hs.withdraw _ _).endDeferred _ _ _ _ _ _ _).done k _
    · exact hs.done k _
  · exact hs.refuse k _

theorem takeStart (hs : s.RegistersOk) (k : SlotId) : (s.takeStart k).RegistersOk := by
  unfold State.takeStart
  split
  · split
    · exact hs.refuse k _
    · unfold State.doneTiming
      refine .done ?_ k _
      exact foldl_keeps (P := State.RegistersOk) _ (fun u b _ hu => hu.of_touches (u.openBank_touches b) (by decide))
        (hs.of_touches (s.writeTiming_touches _) (by decide))
  · exact hs.refuse k _

theorem takeStop (hs : s.RegistersOk) (k : SlotId) : (s.takeStop k).RegistersOk := by
  unfold State.takeStop
  split
  · split
    · exact hs.refuse k _
    · refine registersOk_keptByCloses.askBanks ?_ _ rfl _
      exact (hs.of_touches (s.writeTiming_touches _) (by decide)).of_touches (State.defer_touches _ k _ _) (by decide)
  · exact hs.refuse k _

theorem closeBanks (hs : s.RegistersOk) (k : SlotId) (kind : BankWork) (bs : List BankId) :
    (s.closeBanks k kind bs).RegistersOk := by
  unfold State.closeBanks
  exact registersOk_keptByCloses.askBanks (hs.of_touches (s.defer_touches k _ _) (by decide)) _ rfl _

theorem takeClose (hs : s.RegistersOk) (k : SlotId) : (s.takeClose k).RegistersOk := by
  unfold State.takeClose
  dsimp only
  split
  · exact hs.refuse k _
  · split
    · split
      · exact hs.refuse k _
      · exact hs.closeBanks k _ _
    · split
      · split
        · exact hs.closeBanks k _ _
        · exact hs.refuse k _
      · exact hs.refuse k _

theorem take (hs : s.RegistersOk) (row : Row) {carry : State → SlotId → State}
    (hcarry : ∀ (u : State) (k : SlotId), u.RegistersOk → (carry u k).RegistersOk) : (s.take row carry).RegistersOk :=
  State.take_keeps _ (fun k rest _ _ => hcarry _ k (hs.beginTake k rest)) hs

/-! ### Every command -/

theorem of_reset {s : State} (h : s.regs = State.reset.regs) : s.RegistersOk := by
  refine RegistersOk.of_regs (rs := Vector.replicate 41 State.resetRegisterSet) (fun p => ?_) h
  rw [show (Vector.replicate 41 State.resetRegisterSet)[p] = State.resetRegisterSet by simp]
  refine ⟨⟨fun q => ?_, fun _ hx => (by cases hx), fun _ hx => (by cases hx)⟩, fun _ => ⟨rfl, rfl⟩⟩
  simp [State.resetRegisterSet, registerLimit, residueLimit]

theorem warmRegisters (hs : s.RegistersOk) : s.warmRegisters.RegistersOk := by
  refine .of_regs (rs := tabulate 41 fun p => { s.regs[p] with rebase := none }) (fun p => ?_) rfl
  rw [getElem_fin_tabulate]
  exact (hs.okFor p).withoutRebase

theorem warmCompletion (hs : s.RegistersOk) : s.warmCompletion.RegistersOk := by
  have effects : s.warmEffects.RegistersOk := by
    unfold State.warmEffects
    refine of_touches (warmRegisters ?_) (State.warmRequests_touches _) (by decide)
    refine of_touches ?_ (State.warmBanks_touches _) (by decide)
    refine of_touches ?_ (State.warmWatches_touches _) (by decide)
    refine of_touches ?_ (State.warmSorter_touches _) (by decide)
    exact hs.of_touches s.warmLinks_touches (by decide)
  unfold State.warmCompletion
  split
  · unfold State.completeWarm
    refine registersOk_keptByCloses.heldTests ?_ _
    refine of_touches ?_ (State.endWarm_touches _) (by decide)
    exact effects.of_touches (State.clearCausesButCapture_touches _) (by decide)
  · exact hs

theorem completeFold (hs : s.RegistersOk) (b : BankId) (f : Fold) : (s.completeFold b f).RegistersOk := by
  rw [State.completeFold_eq]
  refine of_touches ?_ (State.pushLost_touches _ b f) (by decide)
  refine registersOk_keptByCloses.heldTest ?_ b
  refine of_touches ?_ (State.flush_touches _) (by decide)
  refine of_touches ?_ (State.reportCompletion_touches _ b _) (by decide)
  exact hs.of_touches (s.foldEnded_touches b) (by decide)

theorem commandEffect (hs : s.RegistersOk) (c : Instr) : (commandEffect c s).RegistersOk := by
  cases c
  case windowAddition b =>
    exact registersOk_keptByCloses.windowAddition hs b fun u i q m x hu =>
      hu.of_touches (u.addToSet_touches b i q m x) (by decide)
  case tariffEvent =>
    unfold Machine.commandEffect
    exact registersOk_keptByCloses.tariffEvent hs
  case pointStep b =>
    unfold Machine.commandEffect State.pointStep
    dsimp only
    split
    · exact hs.stepEntry b _ _
    · exact hs
  case foldCompletion b =>
    unfold Machine.commandEffect State.foldCompletion
    dsimp only
    split
    · split
      · exact hs
      · exact hs.completeFold b _
    · exact hs
  case setPoint => exact hs.take _ fun _ k hu => hu.takeSetPoint k
  case start => exact hs.take _ fun _ k hu => hu.takeStart k
  case stop => exact hs.take _ fun _ k hu => hu.takeStop k
  case close => exact hs.take _ fun _ k hu => hu.takeClose k
  case readRegisters => exact hs.take _ fun _ k hu => hu.judgeRead k _ (hu.readQuantities k)
  case readRegistersNet => exact hs.take _ fun _ k hu => hu.judgeRead k _ (hu.readNet k)
  case rebase => exact hs.take _ fun _ k hu => hu.takeRebase k
  case cancel => exact hs.take _ fun _ k hu => hu.takeCancel k
  case warmResetCompletion => exact hs.warmCompletion
  case coldReset => exact State.RegistersOk.of_reset rfl
  case ready =>
    unfold Machine.commandEffect
    dsimp only
    split
    · exact hs
    · exact State.RegistersOk.of_reset rfl
  all_goals exact hs.of_touches (commandEffect_touches _ s) (of_decide_eq_true rfl)

end State.RegistersOk

/-! ### The stored value -/

theorem Quantity.stored_raise (q : Quantity) {old new : Fin 4} (h : old < new) :
    (q.raise old (new.val - old.val)).stored new = q.stored old := by
  unfold Quantity.stored Quantity.raise
  dsimp only
  rw [residueLimit_eq_mul (Nat.le_of_lt h), ← Nat.mul_assoc, ← Nat.add_assoc, ← Nat.add_mul, Nat.mul_comm (q.register / _),
    Nat.div_add_mod]

/-- A decrease that pushes no digit out keeps the stored value (R100). -/
theorem Quantity.stored_lower {q : Quantity} {old new : Fin 4} (h : new ≤ old) (hq : q.InRange old)
    (hroom : q.register < 10 ^ (16 - (old.val - new.val))) : (q.lower new (old.val - new.val)).stored new = q.stored old := by
  obtain ⟨-, hresidue⟩ := hq
  have digits : q.residue / residueLimit new < 10 ^ (old.val - new.val) := by
    rw [Nat.div_lt_iff_lt_mul (residueLimit_pos new), ← residueLimit_eq_mul h]
    exact hresidue
  have fits : q.register * 10 ^ (old.val - new.val) + q.residue / residueLimit new < registerLimit := by
    have hpow : 10 ^ (16 - (old.val - new.val)) * 10 ^ (old.val - new.val) = registerLimit := by
      rw [← Nat.pow_add, registerLimit]
      congr 1
      omega
    calc q.register * 10 ^ (old.val - new.val) + q.residue / residueLimit new
        < (q.register + 1) * 10 ^ (old.val - new.val) := by rw [Nat.succ_mul]; omega
      _ ≤ registerLimit := hpow ▸ Nat.mul_le_mul_right _ hroom
  unfold Quantity.stored Quantity.lower
  dsimp only
  rw [Nat.mod_eq_of_lt fits, residueLimit_eq_mul h, Nat.add_mul, Nat.add_assoc, Nat.mul_comm (q.residue / _), Nat.div_add_mod,
    Nat.mul_assoc]

/-- Settles O37: digits move between register and residue, and the headroom test finds a VALID quantity that would lose one. -/
theorem scaleChangeKeepsStoredValue : Obligations.ScaleChangeKeepsStoredValue := by
  intro r v hok hne hroom
  have okFor : r.OkFor 0 := ⟨hok, fun h => absurd h (by decide)⟩
  refine ⟨rfl, rfl, (okFor.rescale v (by decide)).1, fun q => ?_⟩
  have quantity : (r.rescale v).quantities[q] =
      if r.scale < v then r.quantities[q].raise r.scale (v.val - r.scale.val)
      else r.quantities[q].lower v (r.scale.val - v.val) := by
    unfold RegisterSet.rescale RegisterSet.mapQuantities
    simp only [getElem_fin_tabulate]
  rw [quantity]
  by_cases hlt : r.scale < v
  · rw [if_pos hlt]
    exact ⟨rfl, fun _ => Quantity.stored_raise _ hlt⟩
  · rw [if_neg hlt]
    have hlow : v < r.scale := lt_of_le_of_ne (not_lt.mp hlt) hne
    refine ⟨rfl, fun hvalid => Quantity.stored_lower (le_of_lt hlow) (okFor.inRange q) ?_⟩
    have passes := List.find?_eq_none.mp (hroom hlow) q (List.mem_finRange q)
    unfold Quantity.failsHeadroom at passes
    simp only [Bool.and_eq_true, decide_eq_true_eq, not_and, not_le] at passes
    exact passes hvalid

/-- Settles O13: every operation on a register set keeps it within R90, and no command stages a scale for BP. -/
theorem stepKeepsRegisters : Obligations.StepKeepsRegisters :=
  step_keeps State.RegistersOk (fun _ _ h => h) fun c _ h => h.commandEffect c

end Sys2Proof.Machine
end

section
/-! SUPPORT. The alignment queue: its order under every operation of the sorter, and every step with it. -/

namespace Sys2Proof.Machine

/-! ### Entries -/

/-- The timer runs in an OPEN entry alone, and a handed entry is complete. -/
def Entry.Ok (e : Entry) : Prop := (e.timer.isSome = true ↔ e.completion = none) ∧ (e.handed = true → e.completion ≠ none)

/-- A change of an entry that keeps its place in the queue. -/
structure Entry.Kept (e f : Entry) : Prop where
  seq : f.seq = e.seq
  handed : f.handed = e.handed
  ok : e.Ok → f.Ok

/-- The sequence of an entry and whether it is handed: its place in the queue. -/
def Entry.place (e : Entry) : Seq16 × Bool := (e.seq, e.handed)

theorem Entry.Kept.place {e f : Entry} (h : e.Kept f) : f.place = e.place := Prod.ext h.seq h.handed

theorem Entry.Kept.refl (e : Entry) : e.Kept e := ⟨rfl, rfl, id⟩

theorem Entry.complete_kept (e : Entry) (c : Completion) : e.Kept (e.complete c) := by
  unfold Entry.complete
  split
  next h =>
    refine ⟨rfl, rfl, fun hok => ⟨by simp, fun _ => by simp⟩⟩
  · exact .refl e

theorem Entry.store_kept (e : Entry) (p : PointId) (t : TaggedFrame) : e.Kept (e.store p t) := by
  unfold Entry.store
  dsimp only
  split
  · obtain ⟨hseq, hhanded, hok⟩ := Entry.complete_kept { e with
      expected := e.expected.map fun (x : Expected) => if x.point = p then { x with frame := some t } else x } .allArrived
    exact ⟨hseq, hhanded, hok⟩
  · exact ⟨rfl, rfl, id⟩

/-- The entry of a window's first frame, before the test that completes it. -/
def State.openedEntry (s : State) (p : PointId) (t : TaggedFrame) : Entry :=
  { seq := t.frame.seq, expected := s.expectedNow p t, completion := none, handed := false, timer := some s.sorter.timeout }

theorem State.newEntry_spec (s : State) (p : PointId) (t : TaggedFrame) :
    (s.newEntry p t).seq = t.frame.seq ∧ (s.newEntry p t).handed = false ∧ (s.newEntry p t).Ok := by
  have fresh : (s.openedEntry p t).Ok := ⟨by simp [State.openedEntry], fun h => by cases h⟩
  unfold State.newEntry
  dsimp only
  split
  · obtain ⟨hseq, hhanded, hok⟩ := Entry.complete_kept (s.openedEntry p t) .allArrived
    exact ⟨hseq, hhanded, hok fresh⟩
  · exact ⟨rfl, rfl, fresh⟩

/-! ### The place of a sequence in the queue -/

theorem entriesBefore_append_entriesBehind (l : List Entry) (q : Seq16) : entriesBefore l q ++ entriesBehind l q = l :=
  List.takeWhile_append_dropWhile

theorem newer_of_mem_entriesBefore {l : List Entry} {q : Seq16} {e : Entry} (h : e ∈ entriesBefore l q) :
    newer q e.seq = true :=
  List.mem_takeWhile_imp (p := fun e : Entry => newer q e.seq) h

theorem entriesBefore_cons_of_newer {e : Entry} {q : Seq16} (h : newer q e.seq = true) (rest : List Entry) :
    entriesBefore (e :: rest) q = e :: entriesBefore rest q := List.takeWhile_cons_of_pos (p := fun e : Entry => newer q e.seq) h

theorem entriesBehind_cons_of_newer {e : Entry} {q : Seq16} (h : newer q e.seq = true) (rest : List Entry) :
    entriesBehind (e :: rest) q = entriesBehind rest q := List.dropWhile_cons_of_pos (p := fun e : Entry => newer q e.seq) h

theorem entriesBefore_cons_of_not_newer {e : Entry} {q : Seq16} (h : ¬newer q e.seq = true) (rest : List Entry) :
    entriesBefore (e :: rest) q = [] := List.takeWhile_cons_of_neg (p := fun e : Entry => newer q e.seq) h

theorem entriesBehind_cons_of_not_newer {e : Entry} {q : Seq16} (h : ¬newer q e.seq = true) (rest : List Entry) :
    entriesBehind (e :: rest) q = e :: rest := List.dropWhile_cons_of_neg (p := fun e : Entry => newer q e.seq) h

/-- The entries of the queue with one opened in its place are the old ones and the new one. -/
theorem mem_insert {l : List Entry} {q : Seq16} {n e : Entry} (h : e ∈ entriesBefore l q ++ n :: entriesBehind l q) :
    e ∈ l ∨ e = n := by
  rw [← entriesBefore_append_entriesBehind l q]
  simp only [List.mem_append, List.mem_cons] at h ⊢
  grind

/-! ### The sorter in order -/

/-- The queue of a sorter is in order while accounting is BUSY or not. -/
structure Sorter.InOrder (x : Sorter) (busy : Bool) : Prop where
  length_le : x.queue.length ≤ 4
  ordered : x.queue.Pairwise fun e f => newer f.seq e.seq = true
  tail_free : ∀ e ∈ x.queue.tail, e.handed = false
  any_handed : x.queue.any Entry.handed = busy
  entries : ∀ e ∈ x.queue, e.Ok
  newer_last : busy = false → ∀ e ∈ x.queue, ∀ r, x.lastHanded = some r → newer e.seq r = true
  mark : x.resyncMark = true → busy = true ∧ x.lastHanded = none
  late_le : x.consecutiveLate ≤ 63

theorem State.queueOk_iff (s : State) : s.QueueOk ↔
    s.sorter.InOrder s.accounting.isSome ∧ (s.sorter.heldFrame ≠ none → s.sorter.queue.length = 4) := by
  have idle : s.accounting = none ↔ s.accounting.isSome = false := by simp
  have busy : s.accounting ≠ none ↔ s.accounting.isSome = true := by simp [Option.isSome_iff_ne_none]
  constructor
  · rintro ⟨h1, h2, h3, h4, h5, h6, h7, h8, h9⟩
    exact ⟨⟨h1, h2, h3, h4, h5, fun h => h6 (idle.mpr h), fun h => ⟨busy.mp (h7 h).1, (h7 h).2⟩, h8⟩, h9⟩
  · rintro ⟨⟨h1, h2, h3, h4, h5, h6, h7, h8⟩, h9⟩
    exact ⟨h1, h2, h3, h4, h5, fun h => h6 (idle.mp h), fun h => ⟨busy.mpr (h7 h).1, (h7 h).2⟩, h8, h9⟩

theorem Sorter.inOrder_of_empty {x : Sorter} (hq : x.queue = []) (hm : x.resyncMark = false) (hl : x.consecutiveLate ≤ 63) :
    x.InOrder false where
  length_le := by rw [hq]; exact Nat.zero_le _
  ordered := hq ▸ .nil
  tail_free := by rw [hq]; exact fun e he => (by cases he)
  any_handed := by rw [hq]; rfl
  entries := by rw [hq]; exact fun e he => (by cases he)
  newer_last := by rw [hq]; exact fun _ e he => (by cases he)
  mark := by rw [hm]; exact fun h => (by cases h)
  late_le := hl

namespace Sorter.InOrder

variable {x : Sorter} {busy : Bool} (h : x.InOrder busy)

include h

/-- The parts of the sorter beside the queue, its last handed sequence and its marks do not matter. -/
theorem congr {y : Sorter} (hqueue : y.queue = x.queue) (hlast : y.lastHanded = x.lastHanded)
    (hmark : y.resyncMark = x.resyncMark) (hlate : y.consecutiveLate ≤ 63) : y.InOrder busy :=
  { length_le := hqueue ▸ h.length_le, ordered := hqueue ▸ h.ordered, tail_free := hqueue ▸ h.tail_free
    any_handed := hqueue ▸ h.any_handed, entries := hqueue ▸ h.entries
    newer_last := fun hb => by rw [hqueue, hlast]; exact h.newer_last hb
    mark := fun hm => by rw [hlast]; exact h.mark (hmark ▸ hm)
    late_le := hlate }

/-- A change of entries, each in its place. -/
theorem replace {q : List Entry} (hq : q.map Entry.place = x.queue.map Entry.place) (hok : ∀ e ∈ q, e.Ok) :
    { x with queue := q }.InOrder busy where
  length_le := by
    rw [← List.length_map (f := Entry.place), hq, List.length_map]
    exact h.length_le
  ordered := by
    have ordered : (x.queue.map Entry.place).Pairwise fun e f => newer f.1 e.1 = true := List.pairwise_map.mpr h.ordered
    rw [← hq] at ordered
    exact List.pairwise_map.mp ordered
  tail_free := by
    have free : ∀ p ∈ (x.queue.map Entry.place).tail, p.2 = false := by
      rw [← List.map_tail]
      exact List.forall_mem_map.mpr h.tail_free
    rw [← hq, ← List.map_tail] at free
    exact List.forall_mem_map.mp free
  any_handed := by
    have any : (x.queue.map Entry.place).any Prod.snd = busy := by
      rw [List.any_map]
      exact h.any_handed
    rw [← hq, List.any_map] at any
    exact any
  entries := hok
  newer_last := fun hb => by
    have newerLast : ∀ p ∈ x.queue.map Entry.place, ∀ r, x.lastHanded = some r → newer p.1 r = true :=
      List.forall_mem_map.mpr (h.newer_last hb)
    rw [← hq] at newerLast
    exact List.forall_mem_map.mp newerLast
  mark := h.mark
  late_le := h.late_le

/-- The same change at every entry. -/
theorem map {f : Entry → Entry} (hf : ∀ e : Entry, e.Kept (f e)) : { x with queue := x.queue.map f }.InOrder busy := by
  refine h.replace ?_ ?_
  · rw [List.map_map]
    exact List.map_congr_left fun e _ => (hf e).place
  · exact List.forall_mem_map.mpr fun e he => (hf e).ok (h.entries e he)

theorem head {e : Entry} {rest : List Entry} (hq : x.queue = e :: rest) {f : Entry} (hf : e.Kept f) :
    { x with queue := f :: rest }.InOrder busy := by
  refine h.replace ?_ fun g hg => ?_
  · rw [hq, List.map_cons, List.map_cons, hf.place]
  · have entries := h.entries
    rw [hq] at entries
    rcases List.mem_cons.mp hg with rfl | hg
    · exact hf.ok (entries e List.mem_cons_self)
    · exact entries g (List.mem_cons_of_mem e hg)

/-- While accounting is BUSY the head is handed, and no other entry. -/
theorem handed_cons {e : Entry} {rest : List Entry} (hq : x.queue = e :: rest) :
    e.handed = busy ∧ ∀ f ∈ rest, f.handed = false := by
  have free := h.tail_free
  have any := h.any_handed
  rw [hq] at free any
  have none : rest.any Entry.handed = false := List.any_eq_false.mpr fun f hf => by rw [free f hf]; decide
  rw [List.any_cons, none, Bool.or_false] at any
  exact ⟨any, free⟩

theorem find?_handed : x.queue.find? Entry.handed = if busy = true then x.queue.head? else none := by
  cases hq : x.queue with
  | nil => simp
  | cons e rest =>
    obtain ⟨hhead, hrest⟩ := h.handed_cons hq
    rw [List.find?_cons, hhead]
    cases busy with
    | true => rfl
    | false =>
      exact List.find?_eq_none.mpr fun f hf => by rw [hrest f hf]; decide

/-- An entry opened at its place (R21, R22). -/
theorem insert {n : Entry} {q : Seq16} (hseq : n.seq = q) (hfree : n.handed = false) (hok : n.Ok)
    (hroom : x.queue.length < 4) (hplace : placeable x.queue q = true)
    (hhorizon : ∀ e, x.queue.find? Entry.handed = some e → newer q e.seq = true)
    (hlast : busy = false → ∀ r, x.lastHanded = some r → newer q r = true) :
    { x with queue := entriesBefore x.queue q ++ n :: entriesBehind x.queue q }.InOrder busy where
  length_le := by
    have split := congrArg List.length (entriesBefore_append_entriesBehind x.queue q)
    rw [List.length_append] at split
    simp only [List.length_append, List.length_cons]
    omega
  ordered := by
    have ordered := h.ordered
    rw [← entriesBefore_append_entriesBehind x.queue q, List.pairwise_append] at ordered
    obtain ⟨hbefore, hbehind, hcross⟩ := ordered
    refine List.pairwise_append.mpr ⟨hbefore, List.pairwise_cons.mpr ⟨fun f hf => ?_, hbehind⟩, fun e he f hf => ?_⟩
    · rw [hseq]
      exact List.all_eq_true.mp hplace f hf
    · rcases List.mem_cons.mp hf with rfl | hf
      · rw [hseq]
        exact newer_of_mem_entriesBefore he
      · exact hcross e he f hf
  tail_free := by
    cases hq : x.queue with
    | nil => simp [entriesBefore, entriesBehind]
    | cons e rest =>
      obtain ⟨-, hrest⟩ := h.handed_cons hq
      by_cases hnewer : newer q e.seq = true
      · rw [entriesBefore_cons_of_newer hnewer, entriesBehind_cons_of_newer hnewer]
        intro f hf
        rcases mem_insert hf with hf | rfl
        · exact hrest f hf
        · exact hfree
      · rw [entriesBefore_cons_of_not_newer hnewer, entriesBehind_cons_of_not_newer hnewer]
        intro f hf
        rcases List.mem_cons.mp hf with rfl | hf
        · have notHanded := mt (hhorizon f) hnewer
          rw [hq, List.find?_cons] at notHanded
          cases hhanded : f.handed with
          | false => rfl
          | true => simp [hhanded] at notHanded
        · exact hrest f hf
  any_handed := by
    have any := h.any_handed
    rw [← entriesBefore_append_entriesBehind x.queue q, List.any_append] at any
    rw [List.any_append, List.any_cons, hfree, Bool.false_or]
    exact any
  entries := fun e he => by
    rcases mem_insert he with he | rfl
    · exact h.entries e he
    · exact hok
  newer_last := fun hb e he r hr => by
    rcases mem_insert he with he | rfl
    · exact h.newer_last hb e he r hr
    · rw [hseq]
      exact hlast hb r hr
  mark := h.mark
  late_le := h.late_le

/-- A resync leaves the handed entry alone (R35). -/
theorem resync : { x with
    queue := x.queue.filter Entry.handed, resyncMark := x.resyncMark || x.queue.any Entry.handed, lastHanded := none
    consecutiveLate := 0 }.InOrder busy where
  length_le := Nat.le_trans (List.length_filter_le _ _) h.length_le
  ordered := h.ordered.filter _
  tail_free := by
    cases hq : x.queue with
    | nil => simp
    | cons e rest =>
      obtain ⟨-, hrest⟩ := h.handed_cons hq
      have none : rest.filter Entry.handed = [] := List.filter_eq_nil_iff.mpr fun f hf => by rw [hrest f hf]; decide
      intro f hf
      rw [List.filter_cons, none] at hf
      split at hf
      · cases hf
      · cases hf
  any_handed := by
    rw [List.any_filter]
    simpa using h.any_handed
  entries := fun e he => h.entries e (List.mem_of_mem_filter he)
  newer_last := fun _ _ _ _ hr => by cases hr
  mark := fun hm => ⟨by
    rcases Bool.or_eq_true_iff.mp hm with hm | hm
    · exact (h.mark hm).1
    · exact h.any_handed.symm.trans hm, rfl⟩
  late_le := Nat.zero_le _

/-- The handed head leaves the queue (R33, R36). -/
theorem release {e : Entry} {rest : List Entry} (hq : x.queue = e :: rest) : { x with
    queue := rest, lastHanded := if x.resyncMark = true then x.lastHanded else some e.seq
    resyncMark := false }.InOrder false where
  length_le := by
    have := h.length_le
    rw [hq, List.length_cons] at this
    dsimp only
    omega
  ordered := (List.pairwise_cons.mp (hq ▸ h.ordered)).2
  tail_free := fun f hf => (h.handed_cons hq).2 f (List.mem_of_mem_tail hf)
  any_handed := List.any_eq_false.mpr fun f hf => by rw [(h.handed_cons hq).2 f hf]; decide
  entries := fun f hf => h.entries f (by rw [hq]; exact List.mem_cons_of_mem e hf)
  newer_last := fun _ f hf r hr => by
    dsimp only at hr
    split at hr
    next hm =>
      rw [(h.mark hm).2] at hr
      cases hr
    · cases hr
      exact (List.pairwise_cons.mp (hq ▸ h.ordered)).1 f hf
  mark := fun hm => by cases hm
  late_le := h.late_le

/-- A complete head is handed (R31). -/
theorem handOff (hidle : busy = false) {e : Entry} {rest : List Entry} (hq : x.queue = e :: rest)
    (hcomplete : e.completion.isSome = true) : { x with queue := { e with handed := true } :: rest }.InOrder true where
  length_le := by
    have := h.length_le
    rwa [hq] at this
  ordered := by
    have := h.ordered
    rw [hq] at this
    exact List.pairwise_cons.mpr (List.pairwise_cons.mp this)
  tail_free := (h.handed_cons hq).2
  any_handed := rfl
  entries := fun f hf => by
    have entries := h.entries
    rw [hq] at entries
    rcases List.mem_cons.mp hf with rfl | hf
    · exact ⟨(entries e List.mem_cons_self).1, fun _ => Option.isSome_iff_ne_none.mp hcomplete⟩
    · exact entries f (List.mem_cons_of_mem e hf)
  newer_last := fun hb => by cases hb
  mark := fun hm => by
    have := (h.mark hm).1
    rw [hidle] at this
    cases this
  late_le := h.late_le

end Sorter.InOrder

/-! ### The arrival of a frame -/

/-- The parts of the sorter that the order of its queue depends on. -/
def Part.ofOrder : List Part := [.queue, .lastHanded, .heldFrame, .consecutiveLate, .resyncMark]

theorem State.handedEntry_eq (s : State) : s.handedEntry = s.sorter.queue.find? Entry.handed := rfl

/-- A frame that is not behind the horizon is newer than the handed entry (R22). -/
theorem State.newer_handed {s : State} {q : Seq16} (h : ¬s.behindHorizon q = true) {e : Entry} (he : s.handedEntry = some e) :
    newer q e.seq = true := by
  unfold State.behindHorizon State.horizon at h
  rw [he] at h
  simpa using h

/-- With no entry handed it is newer than the last handed sequence (R22). -/
theorem State.newer_lastHanded {s : State} {q : Seq16} (h : ¬s.behindHorizon q = true) (he : s.handedEntry = none) {r : Seq16}
    (hr : s.sorter.lastHanded = some r) : newer q r = true := by
  unfold State.behindHorizon State.horizon at h
  rw [he] at h
  dsimp only at h
  rw [hr] at h
  simpa using h

namespace State.QueueOk

variable {s t : State}

theorem inOrder (hs : s.QueueOk) : s.sorter.InOrder s.accounting.isSome := (s.queueOk_iff.mp hs).1

theorem of_inOrder (h : s.sorter.InOrder s.accounting.isSome) (hheld : s.sorter.heldFrame = none) : s.QueueOk :=
  s.queueOk_iff.mpr ⟨h, fun hne => absurd hheld hne⟩

/-- The parts of the queue's order as they were, and accounting BUSY or IDLE as it was. -/
theorem of_touches_busy (hs : s.QueueOk) {ps : List Part} (h : s.Touches ps t) (hp : ∀ p ∈ Part.ofOrder, p ∉ ps)
    (hbusy : t.accounting.isSome = s.accounting.isSome) : t.QueueOk := by
  have same (p : Part) (hmem : p ∈ Part.ofOrder) : p.Same s t := h.same (hp p hmem)
  have hqueue : t.sorter.queue = s.sorter.queue := same .queue (by decide)
  have hlast : t.sorter.lastHanded = s.sorter.lastHanded := same .lastHanded (by decide)
  have hmark : t.sorter.resyncMark = s.sorter.resyncMark := same .resyncMark (by decide)
  have hlate : t.sorter.consecutiveLate = s.sorter.consecutiveLate := same .consecutiveLate (by decide)
  have hheld : t.sorter.heldFrame = s.sorter.heldFrame := same .heldFrame (by decide)
  obtain ⟨horder, hfull⟩ := s.queueOk_iff.mp hs
  rw [State.queueOk_iff, hbusy, hqueue, hheld]
  exact ⟨horder.congr hqueue hlast hmark (hlate ▸ horder.late_le), hfull⟩

theorem of_touches (hs : s.QueueOk) {ps : List Part} (h : s.Touches ps t) (hp : ∀ p ∈ Part.accounting :: Part.ofOrder, p ∉ ps) :
    t.QueueOk :=
  hs.of_touches_busy h (fun p hmem => hp p (List.mem_cons_of_mem _ hmem)) (by rw [h.accounting (hp _ List.mem_cons_self)])

/-- A sorter in order put back, with no frame held. -/
theorem putSorter (x : Sorter) (hx : x.InOrder s.accounting.isSome) (hheld : x.heldFrame = none) : (s.putSorter x).QueueOk :=
  of_inOrder hx hheld

variable (h : s.sorter.InOrder s.accounting.isSome) (hheld : s.sorter.heldFrame = none)

include h hheld

theorem dropLate (l : LinkId) (f : WindowFrame) : (s.dropLate l f).QueueOk := by
  unfold State.dropLate
  dsimp only
  split
  · unfold State.resync
    dsimp only
    refine of_touches ?_ (State.push_pushed _ _ _ _ _ _ _).touches (by decide)
    exact putSorter _ (h.resync.congr rfl rfl rfl (Nat.zero_le _)) hheld
  next hn =>
    refine putSorter _ (h.congr rfl rfl rfl ?_) hheld
    have := h.late_le
    dsimp only
    omega

theorem openEntry (p : PointId) (t : TaggedFrame) (hbehind : ¬s.behindHorizon t.frame.seq = true)
    (hplace : placeable s.sorter.queue t.frame.seq = true) (hroom : s.sorter.queue.length < 4) : (s.openEntry p t).QueueOk := by
  obtain ⟨hseq, hfree, hok⟩ := s.newEntry_spec p t
  have opened := h.insert hseq hfree hok hroom hplace (fun e he => State.newer_handed hbehind he) fun hidle r hr => by
    refine State.newer_lastHanded hbehind ?_ hr
    rw [State.handedEntry_eq, h.find?_handed, hidle]
    rfl
  exact putSorter _ (opened.congr rfl rfl rfl (Nat.zero_le _)) hheld

theorem storeFrame (p : PointId) (t : TaggedFrame) : (s.storeFrame p t).QueueOk := by
  have stored := h.map (f := fun e => if e.seq = t.frame.seq then e.store p t else e) fun e => by
    split
    · exact e.store_kept p t
    · exact .refl e
  exact putSorter _ (stored.congr rfl rfl rfl (Nat.zero_le _)) hheld

/-- A frame is held only over a full queue (R29). -/
theorem forceAndHold (l : LinkId) (t : TaggedFrame) (hfull : s.sorter.queue.length = 4) : (s.forceAndHold l t).QueueOk := by
  unfold State.forceAndHold
  split
  next e rest hq =>
    rw [State.queueOk_iff]
    refine ⟨(h.head hq (e.complete_kept .forced)).congr rfl rfl rfl h.late_le, fun _ => ?_⟩
    rw [hq] at hfull
    exact hfull
  · exact of_inOrder h hheld

theorem arrive (l : LinkId) (p : PointId) (t : TaggedFrame) : (s.arrive l p t).QueueOk := by
  have counted (x : Sorter) (hqueue : x.queue = s.sorter.queue) (hlast : x.lastHanded = s.sorter.lastHanded)
      (hmark : x.resyncMark = s.sorter.resyncMark) (hlate : x.consecutiveLate = s.sorter.consecutiveLate)
      (hfree : x.heldFrame = s.sorter.heldFrame) : (s.putSorter x).QueueOk :=
    putSorter x (h.congr hqueue hlast hmark (hlate ▸ h.late_le)) (hfree.trans hheld)
  have late := dropLate h hheld l t.frame
  unfold State.arrive
  dsimp only
  split
  · exact late
  next hbehind =>
    split
    · split
      · exact late
      · split
        · exact counted _ rfl rfl rfl rfl rfl
        · split
          · exact counted _ rfl rfl rfl rfl rfl
          · exact storeFrame h hheld p t
    · split
      · exact counted _ rfl rfl rfl rfl rfl
      · split
        · exact late
        next hplace =>
          split
          next hroom => exact openEntry h hheld p t hbehind (by simpa using hplace) hroom
          next hfull =>
            split
            · split
              · exact late
              · exact forceAndHold h hheld l t (by have := h.length_le; omega)
            · exact of_inOrder h hheld

theorem handleFrame (l : LinkId) (t : TaggedFrame) : (s.handleFrame l t).QueueOk := by
  unfold State.handleFrame
  split
  · exact putSorter _ (h.congr rfl rfl rfl h.late_le) hheld
  · exact arrive h hheld l _ t

end State.QueueOk

/-! ### Operations that keep accounting BUSY or IDLE -/

theorem State.calculate_busy (s : State) : s.calculate.accounting.isSome = s.accounting.isSome := by
  unfold State.calculate
  split
  next a e ha _ =>
    split
    · rfl
    · rw [ha]
      dsimp only
      rw [(State.Touches.foldl (State.watchPoint_touches e.seq) e.expected _).accounting (by decide)]
      rfl
  · rfl

theorem State.addWindow_accounting (s : State) (b : BankId) (a : Fin 2) (q : Seq16) (m : Nat) (c : Calculation) :
    (s.addWindow b a q m c).accounting = s.accounting := by
  unfold State.addWindow
  dsimp only
  rw [(State.pushOverlong_touches _ b _).accounting (by decide), (State.heldTest_closeEffect _ b).touches.accounting (by decide),
    (State.putBank_touches _ b _).accounting (by decide), (s.addToSet_touches b a q m c).accounting (by decide)]

theorem State.windowAddition_busy (s : State) (b : BankId) : (s.windowAddition b).accounting.isSome = s.accounting.isSome := by
  unfold State.windowAddition
  split
  next a e ha _ =>
    split
    next c _ =>
      split
      · rfl
      · rw [ha]
        dsimp only
        have counted (m : Nat) : ({ s with accounting := some { a with added := a.added.set b true } }.countHanded b m).accounting =
            some { a with added := a.added.set b true } := (State.countHanded_touches _ b m).accounting (by decide)
        split
        · split
          · rw [(State.countNotAccounted_touches _).accounting (by decide), counted]
            rfl
          · rw [State.addWindow_accounting, counted]
            rfl
        · rw [(State.countNotAccounted_touches _).accounting (by decide), counted]
          rfl
    · rfl
  · rfl

theorem State.openBank_busy (s : State) (b : BankId) : (s.openBank b).accounting.isSome = s.accounting.isSome := by
  have before : ∀ x o, (((s.applyStaged b).putBank b x).setWritten b o).accounting = s.accounting := fun x o =>
    (s.applyStaged_touches b).accounting (by decide)
  unfold State.openBank
  dsimp only
  split
  next a ha =>
    split
    · rw [← before, ha]
      rfl
    · rw [before]
  · rw [before]

namespace State.QueueOk

variable {s : State} (hs : s.QueueOk)

include hs

theorem tryHandOff : s.tryHandOff.QueueOk := by
  unfold State.tryHandOff
  split
  next e rest hq hidle =>
    split
    next hcomplete =>
      obtain ⟨horder, hheld⟩ := s.queueOk_iff.mp hs
      have complete : e.completion.isSome = true := (Bool.and_eq_true_iff.mp hcomplete).1
      rw [State.queueOk_iff]
      refine ⟨(horder.handOff (by rw [hidle]; rfl) hq complete).congr rfl rfl rfl horder.late_le, fun hne => ?_⟩
      have length := hheld hne
      rw [hq] at length
      exact length
    · exact hs
  · exact hs

theorem sorterTake (l : LinkId) : (s.sorterTake l).QueueOk := by
  unfold State.sorterTake
  split
  next t rest hheld _ => exact (handleFrame (s := s.putLink l { s.links[l] with fifo := rest }) hs.inOrder hheld l t).tryHandOff
  · exact hs

theorem alignmentExpiry (q : Seq16) : (s.alignmentExpiry q).QueueOk := by
  obtain ⟨horder, hheld⟩ := s.queueOk_iff.mp hs
  have expired := horder.map (f := fun e => if e.seq = q ∧ e.timer.isSome then e.complete .timeout else e) fun e => by
    split
    · exact e.complete_kept .timeout
    · exact .refl e
  unfold State.alignmentExpiry
  refine tryHandOff ((State.queueOk_iff _).mpr ⟨expired, fun hne => ?_⟩)
  rw [List.length_map]
  exact hheld hne

/-- The handed entry leaves; until the held frame is handled afresh the queue has room (R33). -/
theorem dropHanded_inOrder (hbusy : s.accounting.isSome = true) :
    s.dropHanded.sorter.InOrder s.dropHanded.accounting.isSome := by
  have order := hs.inOrder
  unfold State.dropHanded
  split
  next e rest hq => exact order.release hq
  next hq =>
    have any := order.any_handed
    rw [hq, hbusy] at any
    cases any

theorem endStall_dropHanded (hbusy : s.accounting.isSome = true) : s.dropHanded.endStall.QueueOk := by
  have order := hs.dropHanded_inOrder hbusy
  unfold State.endStall
  split
  next held _ =>
    exact handleFrame (s := { s.dropHanded with sorter := { s.dropHanded.sorter with heldFrame := none } })
      (order.congr rfl rfl rfl order.late_le) rfl held.link held.item
  next hheld => exact of_inOrder order hheld

theorem release : s.release.QueueOk := by
  unfold State.release
  split
  next a ha =>
    split
    · exact (hs.endStall_dropHanded (by rw [ha]; rfl)).tryHandOff
    · exact hs
  · exact hs

theorem markChange (p : PointId) : (s.markChange p).QueueOk := by
  obtain ⟨horder, hheld⟩ := s.queueOk_iff.mp hs
  have marked := horder.map (f := fun e => if e.handed then e else { e with
      expected := e.expected.map fun (x : Expected) => if x.point = p then { x with changeMark := true } else x }) fun e => by
    split
    · exact .refl e
    · exact ⟨rfl, rfl, id⟩
  refine (State.queueOk_iff _).mpr ⟨marked, fun hne => ?_⟩
  unfold State.markChange
  rw [List.length_map]
  exact hheld hne

/-! ### Every command -/

theorem calculate : s.calculate.QueueOk := hs.of_touches_busy s.calculate_touches (by decide) s.calculate_busy

theorem windowAddition (b : BankId) : (s.windowAddition b).QueueOk :=
  hs.of_touches_busy (s.windowAddition_touches b) (by decide) (s.windowAddition_busy b)

theorem openBank (b : BankId) : (s.openBank b).QueueOk :=
  hs.of_touches_busy (s.openBank_touches b) (by decide) (s.openBank_busy b)

theorem take (row : Row) {carry : State → SlotId → State} (hcarry : ∀ (u : State) (k : SlotId), u.QueueOk → (carry u k).QueueOk) :
    (s.take row carry).QueueOk :=
  State.take_keeps _ (fun k rest _ _ => hcarry _ k (hs.of_touches (s.beginTake_touches k rest) (by decide))) hs

theorem refuse (k : SlotId) (r : Reason) : (s.refuse k r).QueueOk := hs.of_touches (s.refuse_touches k r) (by decide)

theorem finishPoint (k : SlotId) (p : PointId) (st : SlotState) (r : Reply) : (s.finishPoint k p st r).QueueOk :=
  hs.of_touches (s.finishPoint_touches k p st r) (by decide)

theorem writePoint (p : PointId) (r : PointRequest) : (s.writePoint p r).QueueOk := by
  have marked : (if s.profiles[p].mask = r.mask ∧ s.profiles[p].invert = r.invert then s else s.markChange p).QueueOk := by
    split
    · exact hs
    · exact hs.markChange p
  unfold State.writePoint
  exact marked.of_touches (((State.putProfile_touches _ p _).seq (State.putRegs_touches _ _ _)
    (rs := [.profiles, .regs, .exchangeMarks, .registerMarks]) (by decide) (by decide)).trans
    ((State.regWritten_touches _ _ _).mono (by decide))) (by decide)

theorem takeSetPoint (k : SlotId) : (s.takeSetPoint k).QueueOk := by
  unfold State.takeSetPoint State.judgePoint
  dsimp only
  split
  · split
    · split
      · exact hs.finishPoint k _ _ _
      · split
        · exact hs.finishPoint k _ _ _
        · have read : ∀ v, (s.headroomReads ⟨s.param k 0x10 2, by assumption⟩ v).QueueOk := fun v =>
            hs.of_touches (s.headroomReads_touches _ v) (by decide)
          split
          · exact (read _).finishPoint k _ _ _
          · exact ((read _).writePoint _ _).finishPoint k _ _ _
    · exact hs.finishPoint k _ _ _
  · exact hs.refuse k _

theorem takeStart (k : SlotId) : (s.takeStart k).QueueOk := by
  unfold State.takeStart
  split
  · split
    · exact hs.refuse k _
    · refine of_touches ?_ (State.doneTiming_touches _ k _) (by decide)
      exact foldl_keeps (P := State.QueueOk) _ (fun u b _ hu => hu.openBank b)
        (hs.of_touches (s.writeTiming_touches _) (by decide))
  · exact hs.refuse k _

omit hs in
theorem warmSorter (hidle : s.accounting = none) : s.warmSorter.QueueOk := by
  refine of_inOrder ?_ rfl
  rw [show s.warmSorter.accounting = s.accounting from rfl, hidle]
  exact Sorter.inOrder_of_empty rfl rfl (Nat.zero_le _)

theorem warmCompletion : s.warmCompletion.QueueOk := by
  unfold State.warmCompletion
  split
  next hquiet =>
    have idle : s.warmLinks.accounting = none := by
      rw [s.warmLinks_touches.accounting (by decide)]
      have := (Bool.and_eq_true_iff.mp (Bool.and_eq_true_iff.mp hquiet).2).1
      simpa using this
    have effects : s.warmEffects.QueueOk := by
      unfold State.warmEffects
      refine of_touches ?_ (State.warmRequests_touches _) (by decide)
      refine of_touches ?_ (State.warmRegisters_touches _) (by decide)
      refine of_touches ?_ (State.warmBanks_touches _) (by decide)
      exact (warmSorter idle).of_touches (State.warmWatches_touches _) (by decide)
    unfold State.completeWarm
    refine of_touches ?_ (State.heldTests_touches _ _) (by decide)
    refine of_touches ?_ (State.endWarm_touches _) (by decide)
    exact effects.of_touches (State.clearCausesButCapture_touches _) (by decide)
  · exact hs

omit hs in
theorem of_reset (hsorter : s.sorter = State.reset.sorter) (hidle : s.accounting = none) : s.QueueOk := by
  rw [State.queueOk_iff, hsorter, hidle]
  exact ⟨Sorter.inOrder_of_empty rfl rfl (Nat.zero_le _), fun hne => absurd rfl hne⟩

theorem commandEffect (c : Instr) : (commandEffect c s).QueueOk := by
  cases c
  case sorterTake l => exact hs.sorterTake l
  case alignmentTimerExpiry q => exact hs.alignmentExpiry q
  case calculation => exact hs.calculate
  case windowAddition b => exact hs.windowAddition b
  case release => exact hs.release
  case setPoint => exact hs.take _ fun _ k hu => hu.takeSetPoint k
  case start => exact hs.take _ fun _ k hu => hu.takeStart k
  case warmResetCompletion => exact hs.warmCompletion
  case coldReset => exact of_reset rfl rfl
  case ready =>
    unfold Machine.commandEffect
    dsimp only
    split
    · exact hs
    · exact of_reset rfl rfl
  all_goals exact hs.of_touches (commandEffect_touches _ s) (of_decide_eq_true rfl)

end State.QueueOk

/-- Settles O9: every operation of the sorter keeps its queue in order, a release between its drop of the head and its end of
the stall included. -/
theorem stepKeepsQueue : Obligations.StepKeepsQueue :=
  step_keeps State.QueueOk (fun _ _ h => h) fun c _ h => h.commandEffect c

end Sys2Proof.Machine
end

section
/-! SUPPORT. The banks and their folds: what a check, an addition, a record and a step of a fold change in them. -/

namespace Sys2Proof.Machine

/-! ### The record writer leaves folds, but for a loss -/

/-- The parts that the placing of a record touches. -/
def Part.ofPlacing : List Part := [.writer, .latched, .mem, .exchangeMarks]

theorem State.takePage_touches (s : State) : s.Touches Part.ofPlacing s.takePage := by
  unfold State.takePage
  split
  · exact (((s.zeroPage_touches _).trans (State.writePage_touches _ _ _ _)).seq (State.putWriter_touches _ _) (by decide) (by decide))
  · exact .refl s _

theorem State.makeRoom_touches (s : State) (n : Nat) : s.Touches Part.ofPlacing (s.makeRoom n) := by
  unfold State.makeRoom
  split
  · exact .ite (.refl s _) (s.fillPage_touches.mono (by decide))
  · exact .refl s _

theorem State.ensurePage_touches (s : State) : s.Touches Part.ofPlacing s.ensurePage := by
  unfold State.ensurePage
  exact .ite (.refl s _) s.takePage_touches

theorem State.placeRecord_touches (s : State) (f : Filling) (n : Word) (r : List Byte) :
    s.Touches Part.ofPlacing (s.placeRecord f n r) := by
  have placed : s.Touches Part.ofPlacing (s.recordPlaced f n r) := by
    unfold State.recordPlaced
    exact ((s.writePage_touches _ _ _).trans (State.updateHeader_touches _ f n _)).seq (State.putWriter_touches _ _) (by decide)
      (by decide)
  rw [State.placeRecord_eq]
  exact .ite (placed.trans ((State.fillPage_touches _).mono (by decide))) placed

/-- A fold after the loss of a record (R118). -/
def Fold.lose (f : Fold) (n : Word) : Fold := { f with lost := f.lost + 1, lostCounter := n }

theorem State.writeRecord_folds (s : State) (b : BankId) (n : Word) (r : List Byte) :
    (s.writeRecord b n r).folds = s.folds ∨
      ∃ m : Word, (s.writeRecord b n r).folds = s.folds.set b (s.folds[b].map fun f => f.lose m) := by
  have readied : ((s.makeRoom r.length).ensurePage).folds = s.folds :=
    ((State.ensurePage_touches _).folds (by decide)).trans ((s.makeRoom_touches _).folds (by decide))
  unfold State.writeRecord
  dsimp only
  split
  · exact Or.inl (((State.placeRecord_touches _ _ n r).folds (by decide)).trans readied)
  · right
    refine ⟨((s.makeRoom r.length).ensurePage).writer.lost + 1, ?_⟩
    rw [← readied]
    rfl

/-! ### Changes of one bank's sets -/

/-- The bank with set `i` replaced. -/
def Bank.withSet (x : Bank) (i : Fin 2) (y : AccSet) : Bank := { x with sets := x.sets.set i y }

/-- A read of an accounting word leaves the banks, or rewrites a lost word (R72). -/
theorem State.checkAcc_banks (s : State) (w : AccWord) : (s.checkAcc w).banks = s.banks ∨
    (s.checkAcc w).banks =
      s.banks.set w.bank (s.banks[w.bank].withSet w.set (s.banks[w.bank].sets[w.set].loseWord w.item)) := by
  unfold State.checkAcc
  split
  · exact Or.inl rfl
  · exact Or.inl rfl
  · right
    have hbanks : ((s.report .accounting w.location).accWritten w).banks = s.banks :=
      (s.report_checked .accounting w.location).banks
    dsimp only
    rw [← hbanks]
    rfl

/-- A predicate of the banks and folds that a lost word keeps is kept by the checks of the accounting table. -/
theorem State.checkAccs_keeps {P : Vector Bank 8 → Vector (Option Fold) 8 → Prop}
    (hlose : ∀ bs fs, P bs fs → ∀ (b : BankId) (i : Fin 2) (it : AccItem),
      P (bs.set b (bs[b].withSet i (bs[b].sets[i].loseWord it))) fs)
    {s : State} (hs : P s.banks s.folds) (b : BankId) (i : Fin 2) (items : List AccItem) :
    P (s.checkAccs b i items).banks (s.checkAccs b i items).folds := by
  unfold State.checkAccs
  refine foldl_keeps (P := fun u : State => P u.banks u.folds) items (fun u it _ hu => ?_) hs
  have hfolds : (u.checkAcc ⟨b, i, it⟩).folds = u.folds := (u.checkAcc_accChecked _).touches.folds (by decide)
  rw [hfolds]
  rcases u.checkAcc_banks ⟨b, i, it⟩ with h | h
  · rw [h]
    exact hu
  · rw [h]
    exact hlose _ _ hu b i it

/-- The banks after the addition of a window into a set: a window added to the set as the checks leave it (R65 to R68). -/
theorem State.addToSet_banks (s : State) (b : BankId) (a : Fin 2) (q : Seq16) (m : Nat) (c : Calculation) :
    ∃ items more : List AccItem, ∃ later : Bool,
      (s.addToSet b a q m c).banks = ((s.checkAccs b a items).checkAccs b a more).banks.set b
        (((s.checkAccs b a items).checkAccs b a more).banks[b].withSet a
          ((((s.checkAccs b a items).checkAccs b a more).banks[b].sets[a]).add b q m later c)) ∧
      (s.addToSet b a q m c).folds = s.folds := by
  refine ⟨_, _, _, rfl, ?_⟩
  exact (s.addToSet_touches b a q m c).folds (by decide)

/-! ### A bank and its fold -/

/-- A bank agrees with its fold. -/
structure Bank.OkWith (x : Bank) (f : Option Fold) (b : BankId) : Prop where
  agrees : foldAgrees x.phase f
  held : ∀ h, x.held = some h → x.takesClose = true ∧ h.causes.isEmpty = false
  previous : ∀ a p, x.phase.accumulating = some a → x.previous = some p → p ≠ a
  folding : ∀ g, f = some g → x.previous = some g.set ∧ g.position ≤ 6
  balance : ∀ i : Fin 2, x.sets[i].balance.isSome = (b == 0)

theorem State.bankOk_iff (s : State) (b : BankId) : s.BankOk b ↔ s.banks[b].OkWith s.folds[b] b :=
  ⟨fun ⟨h1, h2, h3, h4, h5⟩ => ⟨h1, h2, h3, h4, h5⟩, fun ⟨h1, h2, h3, h4, h5⟩ => ⟨h1, h2, h3, h4, h5⟩⟩

/-- Banks and folds that agree at every bank. -/
def BanksAgree (bs : Vector Bank 8) (fs : Vector (Option Fold) 8) : Prop := ∀ b : BankId, bs[b].OkWith fs[b] b

theorem State.banksOk_iff (s : State) : s.BanksOk ↔ BanksAgree s.banks s.folds := forall_congr' s.bankOk_iff

namespace BanksAgree

variable {bs : Vector Bank 8} {fs : Vector (Option Fold) 8} (h : BanksAgree bs fs)

include h

theorem set {b : BankId} {x : Bank} {f : Option Fold} (hx : x.OkWith f b) : BanksAgree (bs.set b x) (fs.set b f) := by
  intro i
  rw [getElem_fin_set, getElem_fin_set]
  by_cases hi : i = b
  · rw [if_pos hi, if_pos hi, hi]
    exact hx
  · rw [if_neg hi, if_neg hi]
    exact h i

theorem setBank {b : BankId} {x : Bank} (hx : x.OkWith fs[b] b) : BanksAgree (bs.set b x) fs := by
  have := h.set hx
  rwa [show fs.set b fs[b] = fs from Vector.set_getElem_self b.isLt] at this

theorem setFold {b : BankId} {f : Option Fold} (hf : bs[b].OkWith f b) : BanksAgree bs (fs.set b f) := by
  have := h.set hf
  rwa [show bs.set b bs[b] = bs from Vector.set_getElem_self b.isLt] at this

end BanksAgree

/-! ### Operations on one bank -/

theorem AccSet.mapEntry_balance (x : AccSet) (e : Fin 6) (f : PointEntry → PointEntry) (g : BalanceEntry → BalanceEntry) :
    (x.mapEntry e f g).balance.isSome = x.balance.isSome := by
  unfold AccSet.mapEntry
  split
  · rfl
  · exact Option.isSome_map

theorem AccSet.loseWord_balance (x : AccSet) (it : AccItem) : (x.loseWord it).balance.isSome = x.balance.isSome := by
  have zeroed : (x.zeroWord it).balance.isSome = x.balance.isSome := by
    cases it
    case interval => rfl
    case start => rfl
    case last => rfl
    case span => rfl
    case causes => rfl
    all_goals exact AccSet.mapEntry_balance x _ _ _
  unfold AccSet.loseWord
  split
  · exact (AccSet.mapEntry_balance _ _ _ _).trans zeroed
  · exact Option.isSome_map.trans zeroed

theorem AccSet.add_balance (x : AccSet) (b : BankId) (q : Seq16) (m : Nat) (later : Bool) (c : Calculation) :
    (x.add b q m later c).balance.isSome = x.balance.isSome := by
  unfold AccSet.add AccSet.damageAll
  dsimp only
  split
  · exact Option.isSome_map.trans Option.isSome_map
  · exact Option.isSome_map

theorem State.zeroSet_balance (balance : Bool) : (State.zeroSet balance).balance.isSome = balance := by
  cases balance
  · rfl
  · rfl

theorem otherSet_ne (a : Fin 2) : otherSet a ≠ a := by
  revert a
  decide

theorem otherSet_otherSet (a : Fin 2) : otherSet (otherSet a) = a := by
  revert a
  decide

theorem Causes.union_isEmpty_of_right (a : Causes) {b : Causes} (h : b.isEmpty = false) : (a.union b).isEmpty = false := by
  revert h
  cases a
  cases b
  simp only [Causes.isEmpty, Causes.union, Bool.not_eq_eq_eq_not, Bool.not_false, Bool.or_eq_true]
  grind

namespace Bank.OkWith

variable {x : Bank} {f : Option Fold} {b : BankId} (h : x.OkWith f b)

include h

/-- A bank that takes no close holds none. -/
theorem held_none (ht : x.takesClose = false) : x.held = none := by
  cases hheld : x.held with
  | none => rfl
  | some c =>
    have := (h.held c hheld).1
    rw [ht] at this
    cases this

theorem withSet (i : Fin 2) {y : AccSet} (hy : y.balance.isSome = x.sets[i].balance.isSome) : (x.withSet i y).OkWith f b where
  agrees := h.agrees
  held := h.held
  previous := h.previous
  folding := h.folding
  balance := fun j => by
    unfold Bank.withSet
    dsimp only
    rw [getElem_fin_set]
    split
    · rw [hy, h.balance i]
    · exact h.balance j

/-- Another held close. -/
theorem withHeld {o : Option HeldClose} (ho : ∀ c, o = some c → x.takesClose = true ∧ c.causes.isEmpty = false) :
    { x with held := o }.OkWith f b :=
  { agrees := h.agrees, held := ho, previous := h.previous, folding := h.folding, balance := h.balance }

theorem ask {cause : Causes} (hcause : cause.isEmpty = false) (waiter : List (SlotId × WaitCause)) :
    (x.ask cause waiter).OkWith f b := by
  rw [Bank.ask_eq]
  refine h.withHeld fun c hc => ?_
  split at hc
  next ht =>
    cases hc
    exact ⟨ht, Causes.union_isEmpty_of_right _ hcause⟩
  · exact h.held c hc

theorem withdraw (k : SlotId) : (x.withdraw k).OkWith f b := by
  unfold Bank.withdraw
  split
  next c hc =>
    refine h.withHeld fun d hd => ?_
    split at hd
    · cases hd
    next hne =>
      cases hd
      exact ⟨(h.held c hc).1, by simpa using hne⟩
  · exact h

theorem warm : x.warm.OkWith f b := by
  unfold Bank.warm
  split
  next c hc =>
    refine h.withHeld fun d hd => ?_
    split at hd
    · cases hd
    next hne =>
      cases hd
      exact ⟨(h.held c hc).1, by simpa using hne⟩
  · exact h

theorem withAttributes (billing notify archive : Bool) :
    { x with billing := billing, notify := notify, archive := archive }.OkWith f b :=
  { agrees := h.agrees, held := h.held, previous := h.previous, folding := h.folding, balance := h.balance }

/-- The end of the fold (R63, R82). -/
theorem folded (hf : f.isSome = true) : { x with phase := x.phase.folded }.OkWith none b where
  agrees := by
    have := h.agrees
    unfold foldAgrees at this ⊢
    cases hp : x.phase with
    | stopped => trivial
    | opened a =>
      rw [hp] at this
      cases f with
      | none => cases hf
      | some g => cases this
    | turning a => trivial
    | stopping i => trivial
  held := fun c hc => by
    obtain ⟨ht, hne⟩ := h.held c hc
    refine ⟨?_, hne⟩
    unfold Bank.takesClose at ht ⊢
    dsimp only
    cases hp : x.phase with
    | stopped => rw [hp] at ht; exact ht
    | opened a => rfl
    | turning a => rfl
    | stopping i => rw [hp] at ht; exact ht
  previous := fun a p ha hprev => by
    refine h.previous a p ?_ hprev
    dsimp only at ha
    cases hp : x.phase with
    | stopped => rw [hp] at ha; exact ha
    | opened c => rw [hp] at ha; exact ha
    | turning c => rw [hp] at ha; exact ha
    | stopping i => rw [hp] at ha; cases ha
  folding := fun g hg => by cases hg
  balance := h.balance

/-- A fold changed beside its set, its position within the walk. -/
theorem mapFold {g : Fold → Fold} (hset : ∀ y, f = some y → (g y).set = y.set ∧ (g y).position ≤ 6) : x.OkWith (f.map g) b := by
  cases f with
  | none => exact h
  | some y =>
    obtain ⟨hs, hpos⟩ := hset y rfl
    have agrees := h.agrees
    refine ⟨?_, h.held, h.previous, fun z hz => ?_, h.balance⟩
    · unfold foldAgrees at agrees ⊢
      cases hp : x.phase with
      | stopped => rw [hp] at agrees; cases agrees
      | opened a => rw [hp] at agrees; cases agrees
      | turning a => rw [hp] at agrees; exact hs.trans agrees
      | stopping i => rw [hp] at agrees; exact hs.trans agrees
    · cases hz
      exact ⟨hs ▸ (h.folding y rfl).1, hpos⟩

end Bank.OkWith

theorem eq_otherSet {i a : Fin 2} (h : i ≠ a) : i = otherSet a := by
  revert i a
  decide

/-- The turnover of a bank that agrees with its fold (R81): the closed set is the previous and the FOLDING one. -/
theorem State.turnedBank_ok {s u : State} {b : BankId} (hu : u.banks = s.banks) {f : Option Fold} (h : s.banks[b].OkWith f b)
    (a : Fin 2) (c : HeldClose) : (u.turnedBank b a c).OkWith (some (s.begunFold b a c)) b := by
  have hphase : (u.turnedBank b a c).phase = if c.causes.stop then .stopping a else .turning (otherSet a) := rfl
  refine ⟨?_, fun d hd => (by cases hd), fun o p ho hp => ?_, fun g hg => ?_, fun i => ?_⟩
  · rw [hphase]
    split
    · rfl
    · exact (otherSet_otherSet a).symm
  · rw [hphase] at ho
    cases hp
    split at ho
    · cases ho
    · cases ho
      exact (otherSet_ne a).symm
  · cases hg
    exact ⟨rfl, Nat.zero_le _⟩
  · unfold State.turnedBank
    dsimp only
    rw [hu, getElem_fin_set]
    split
    · exact h.balance a
    next hi =>
      rw [eq_otherSet hi, getElem_fin_set_self]
      split
      · exact (State.zeroSet_balance _).trans (h.balance _)
      · exact (State.zeroSet_balance _).trans (h.balance _)

/-- The bank that a START opens (R84), once the staged profiles are applied. -/
def State.openedBank (s : State) (b : BankId) : Bank :=
  let x := s.banks[b]
  let o := x.startSet
  { x with
    phase := .opened o
    sets := x.sets.set o (s.openedSet b (nextInterval x.interval) x.sets[o].balance.isSome)
    previous := none
    interval := nextInterval x.interval
    timing := s.timing }

theorem State.openBank_banks (s : State) (b : BankId) :
    (s.openBank b).banks = s.banks.set b ((s.applyStaged b).openedBank b) := by
  have hbanks := (s.applyStaged_touches b).banks (by decide)
  rw [← hbanks]
  unfold State.openBank
  dsimp only
  split
  · split
    · rfl
    · rfl
  · rfl

/-- A STOPPED bank opened (R84). -/
theorem State.openedBank_ok {s u : State} {b : BankId} (hu : u.banks = s.banks) {f : Option Fold} (h : s.banks[b].OkWith f b)
    (hstopped : s.banks[b].phase = .stopped) : (u.openedBank b).OkWith f b := by
  rw [← hu] at h hstopped
  have hfold : f = none := by
    have agrees := h.agrees
    rw [hstopped] at agrees
    cases f with
    | none => rfl
    | some g => cases agrees
  have hheld : u.banks[b].held = none := h.held_none (by unfold Bank.takesClose; rw [hstopped]; rfl)
  subst hfold
  refine ⟨trivial, fun c hc => ?_, fun _ p _ hp => (by cases hp), fun g hg => (by cases hg), fun i => ?_⟩
  · unfold State.openedBank at hc
    dsimp only at hc
    rw [hheld] at hc
    cases hc
  · unfold State.openedBank
    dsimp only
    rw [getElem_fin_set]
    split
    · exact (State.zeroSet_balance _).trans (h.balance _)
    · exact h.balance i

/-! ### Every bank -/

namespace State.BanksOk

variable {s t : State}

theorem agree (hs : s.BanksOk) : BanksAgree s.banks s.folds := s.banksOk_iff.mp hs

theorem of_agree (hbanks : BanksAgree t.banks t.folds) : t.BanksOk := t.banksOk_iff.mpr hbanks

theorem of_touches (hs : s.BanksOk) {ps : List Part} (h : s.Touches ps t) (hb : Part.banks ∉ ps) (hf : Part.folds ∉ ps) :
    t.BanksOk := by
  rw [State.banksOk_iff, h.banks hb, h.folds hf]
  exact hs.agree

theorem putBank (hs : s.BanksOk) {b : BankId} {x : Bank} (hx : x.OkWith s.folds[b] b) : (s.putBank b x).BanksOk :=
  of_agree (hs.agree.setBank hx)

theorem putFold (hs : s.BanksOk) {b : BankId} {f : Option Fold} (hf : s.banks[b].OkWith f b) : (s.putFold b f).BanksOk :=
  of_agree (hs.agree.setFold hf)

theorem checkAccs (hs : s.BanksOk) (b : BankId) (i : Fin 2) (items : List AccItem) : (s.checkAccs b i items).BanksOk :=
  of_agree (State.checkAccs_keeps (P := BanksAgree)
    (fun _ _ h b i it => h.setBank ((h b).withSet i (AccSet.loseWord_balance _ it))) hs.agree b i items)

theorem addToSet (hs : s.BanksOk) (b : BankId) (a : Fin 2) (q : Seq16) (m : Nat) (c : Calculation) :
    (s.addToSet b a q m c).BanksOk := by
  obtain ⟨items, more, later, hbanks, hfolds⟩ := s.addToSet_banks b a q m c
  have checked := (hs.checkAccs b a items).checkAccs b a more
  have kept : ((s.checkAccs b a items).checkAccs b a more).folds = s.folds :=
    ((State.checkAccs_touches _ b a more).folds (by decide)).trans ((s.checkAccs_touches b a items).folds (by decide))
  refine of_agree ?_
  rw [hbanks, hfolds, ← kept]
  exact checked.agree.setBank ((checked.agree b).withSet a (AccSet.add_balance _ b q m later c))

end State.BanksOk

/-- Asks keep every bank in agreement; a close start begins the fold of the set it closes. -/
theorem State.banksOk_keptByCloses : KeptByCloses State.BanksOk [.banks, .folds] where
  beside := by decide
  frame hs h hcore := hs.of_touches h (hcore _ (by decide)) (hcore _ (by decide))
  ask s b cause waiter hcause hs := hs.putBank ((hs.agree b).ask hcause waiter)
  start s b a h _ _ hs := by
    refine .of_agree ?_
    rw [s.closeStart_banks b a h, s.closeStart_folds b a h]
    exact hs.agree.set (State.turnedBank_ok ((s.applyStaged_touches b).banks (by decide)) (hs.agree b) a h)

namespace State.BanksOk

variable {s : State} (hs : s.BanksOk)

include hs

theorem stepRecord (b : BankId) (e : Fin 6) (f : Fold) (rebased : Bool) : (s.stepRecord b e f rebased).BanksOk := by
  have written (u : State) (hu : u.BanksOk) (n : Word) (r : List Byte) : (u.writeRecord b n r).BanksOk := by
    refine of_agree ?_
    rw [(State.writeRecord_recordEffect u b n r).touches.banks (by decide)]
    rcases u.writeRecord_folds b n r with h | ⟨m, h⟩
    · rw [h]
      exact hu.agree
    · rw [h]
      exact hu.agree.setFold ((hu.agree b).mapFold fun y hy => ⟨rfl, ((hu.agree b).folding y hy).2⟩)
  unfold State.stepRecord
  split
  · exact written _ (hs.checkAccs b f.set _) _ _
  · exact hs

theorem stepEntry (b : BankId) (f : Fold) (e : Fin 6) : (s.stepEntry b f e).BanksOk := by
  have read : (s.stepReads b f.set e).BanksOk := by
    unfold State.stepReads
    refine checkAccs ?_ b _ _
    exact hs.of_touches ((s.checkRegs_touches _ _).trans (State.checkRegs_touches _ _ _)) (by decide) (by decide)
  have scaled := read.of_touches (State.stepScale_touches _ (entryPoint b e) f.interval) (by decide) (by decide)
  have settled (totals : Vector (BitVec 64) 104) :=
    scaled.of_touches (State.stepSettle_touches _ (entryPoint b e) f.interval totals) (by decide) (by decide)
  have walked (u : State) (hu : u.BanksOk) : (u.putFold b (u.folds[b].map fun g => { g with position := e.val + 1 })).BanksOk :=
    hu.putFold ((hu.agree b).mapFold fun y _ => ⟨rfl, by have := e.isLt; dsimp only; omega⟩)
  unfold State.stepEntry
  exact walked _ (((settled _).stepRecord b e f _).of_touches (State.stepInterval_touches _ _ _) (by decide) (by decide))

theorem completeFold (b : BankId) {f : Fold} (hf : s.folds[b] = some f) : (s.completeFold b f).BanksOk := by
  rw [State.completeFold_eq]
  refine of_touches ?_ (State.pushLost_touches _ b f) (by decide) (by decide)
  refine banksOk_keptByCloses.heldTest ?_ b
  refine of_touches ?_ (State.flush_touches _) (by decide) (by decide)
  refine of_touches ?_ (State.reportCompletion_touches _ b _) (by decide) (by decide)
  refine of_agree ?_
  rw [State.foldEnded_banks, State.foldEnded_folds]
  exact hs.agree.set ((hs.agree b).folded (by rw [hf]; rfl))

/-! ### The takes -/

theorem refuse (k : SlotId) (r : Reason) : (s.refuse k r).BanksOk := hs.of_touches (s.refuse_touches k r) (by decide) (by decide)

theorem done (k : SlotId) (r : Reply) : (s.done k r).BanksOk := hs.of_touches (s.done_touches k r) (by decide) (by decide)

theorem take (row : Row) {carry : State → SlotId → State} (hcarry : ∀ (u : State) (k : SlotId), u.BanksOk → (carry u k).BanksOk) :
    (s.take row carry).BanksOk :=
  State.take_keeps _ (fun k rest _ _ => hcarry _ k (hs.of_touches (s.beginTake_touches k rest) (by decide) (by decide))) hs

theorem takeSetBank (k : SlotId) : (s.takeSetBank k).BanksOk := by
  unfold State.takeSetBank
  dsimp only
  split
  · split
    · exact hs.refuse k _
    · exact (hs.putBank ((hs.agree _).withAttributes _ _ _)).done k _
  · exact hs.refuse k _

/-- STOPPED banks opened one after the other, each once. -/
theorem openBanks {bs : List BankId} (hnodup : bs.Nodup) (hstopped : ∀ b ∈ bs, s.banks[b].phase = .stopped) :
    (bs.foldl State.openBank s).BanksOk := by
  induction bs generalizing s with
  | nil => exact hs
  | cons b bs ih =>
    obtain ⟨hb, hrest⟩ := List.nodup_cons.mp hnodup
    have opened : (s.openBank b).BanksOk := by
      refine of_agree ?_
      rw [s.openBank_banks b, (s.openBank_touches b).folds (by decide)]
      exact hs.agree.setBank (State.openedBank_ok ((s.applyStaged_touches b).banks (by decide)) (hs.agree b)
        (hstopped b List.mem_cons_self))
    refine ih opened hrest fun i hi => ?_
    rw [s.openBank_banks b, getElem_fin_set_of_ne _ _ fun h : i = b => hb (h ▸ hi)]
    exact hstopped i (List.mem_cons_of_mem b hi)

omit hs in
theorem mem_stoppedBanks (u : State) : ∀ b ∈ u.stoppedBanks, u.banks[b].phase = .stopped := fun b hb => by
  unfold State.stoppedBanks at hb
  simpa using (List.mem_filter.mp hb).2

theorem takeStart (k : SlotId) : (s.takeStart k).BanksOk := by
  unfold State.takeStart
  split
  next r _ =>
    split
    · exact hs.refuse k _
    · refine of_touches ?_ (State.doneTiming_touches _ k _) (by decide) (by decide)
      have written : (s.writeTiming r).BanksOk := hs.of_touches (s.writeTiming_touches r) (by decide) (by decide)
      exact written.openBanks ((List.nodup_finRange 8).filter _) (mem_stoppedBanks s)
  · exact hs.refuse k _

theorem takeStop (k : SlotId) : (s.takeStop k).BanksOk := by
  unfold State.takeStop
  split
  · split
    · exact hs.refuse k _
    · refine banksOk_keptByCloses.askBanks ?_ _ rfl _
      exact (hs.of_touches (s.writeTiming_touches _) (by decide) (by decide)).of_touches (State.defer_touches _ k _ _)
        (by decide) (by decide)
  · exact hs.refuse k _

theorem closeBanks (k : SlotId) (kind : BankWork) (bs : List BankId) : (s.closeBanks k kind bs).BanksOk := by
  unfold State.closeBanks
  exact banksOk_keptByCloses.askBanks (hs.of_touches (s.defer_touches k _ _) (by decide) (by decide)) _ rfl _

theorem takeClose (k : SlotId) : (s.takeClose k).BanksOk := by
  unfold State.takeClose
  dsimp only
  split
  · exact hs.refuse k _
  · split
    · split
      · exact hs.refuse k _
      · exact hs.closeBanks k _ _
    · split
      · split
        · exact hs.closeBanks k _ _
        · exact hs.refuse k _
      · exact hs.refuse k _

theorem takeReadOpen (k : SlotId) : (s.takeReadOpen k).BanksOk := by
  have read (p : SetId) (i : Fin 2) (first count : Nat) : (s.readSet k p i first count).BanksOk := by
    unfold State.readSet
    exact (hs.checkAccs _ i _).done k _
  unfold State.takeReadOpen
  dsimp only
  split
  · split
    · split
      · exact read _ _ _ _
      · exact hs.refuse k _
    · exact hs.refuse k _
  · exact hs.refuse k _

theorem withdraw (k : SlotId) (w : Work) : (s.withdraw k w).BanksOk := by
  cases w with
  | banks kind out closed =>
    unfold State.withdraw
    exact foldl_keeps (P := State.BanksOk) out (fun _ o _ hu => hu.putBank ((hu.agree o.1).withdraw k)) hs
  | rebase p => exact hs

theorem takeCancel (k : SlotId) : (s.takeCancel k).BanksOk := by
  unfold State.takeCancel State.cancelSlot
  dsimp only
  split
  · split
    · exact ((hs.withdraw _ _).of_touches (State.endDeferred_touches _ _ _ _ _ _ _ _) (by decide) (by decide)).done k _
    · exact hs.done k _
  · exact hs.refuse k _

/-! ### Every command -/

theorem warmCompletion : s.warmCompletion.BanksOk := by
  have effects : s.warmEffects.BanksOk := by
    unfold State.warmEffects
    refine of_touches ?_ (State.warmRequests_touches _) (by decide) (by decide)
    refine of_touches ?_ (State.warmRegisters_touches _) (by decide) (by decide)
    unfold State.warmBanks
    refine foldl_keeps (P := State.BanksOk) _ (fun u b _ hu => hu.putBank (hu.agree b).warm) ?_
    refine of_touches ?_ (State.warmWatches_touches _) (by decide) (by decide)
    refine of_touches ?_ (State.warmSorter_touches _) (by decide) (by decide)
    exact hs.of_touches s.warmLinks_touches (by decide) (by decide)
  unfold State.warmCompletion
  split
  · unfold State.completeWarm
    refine banksOk_keptByCloses.heldTests ?_ _
    refine of_touches ?_ (State.endWarm_touches _) (by decide) (by decide)
    exact effects.of_touches (State.clearCausesButCapture_touches _) (by decide) (by decide)
  · exact hs

omit hs in
theorem of_reset (hbanks : s.banks = State.reset.banks) (hfolds : s.folds = State.reset.folds) : s.BanksOk := by
  have reset (balance : Bool) (b : BankId) (h : balance = (b == 0)) : (State.resetBank balance).OkWith none b :=
    ⟨trivial, fun _ hc => (by cases hc), fun _ _ ha => (by cases ha), fun _ hg => (by cases hg), fun i => by
      rw [show (State.resetBank balance).sets[i] = State.zeroSet balance by simp [State.resetBank], State.zeroSet_balance, h]⟩
  refine of_agree ?_
  rw [hbanks, hfolds]
  intro b
  have noFold : State.reset.folds[b] = none := by simp [State.reset]
  rw [noFold]
  change (((Vector.replicate 8 (State.resetBank false)).set (0 : BankId) (State.resetBank true))[b]).OkWith none b
  rw [getElem_fin_set]
  split
  next hb => exact reset true b (by simp [hb])
  next hb =>
    rw [show (Vector.replicate 8 (State.resetBank false))[b] = State.resetBank false by simp]
    exact reset false b (by simp [hb])

theorem commandEffect (c : Instr) : (commandEffect c s).BanksOk := by
  cases c
  case windowAddition b => exact banksOk_keptByCloses.windowAddition hs b fun _ i q m x hu => hu.addToSet b i q m x
  case tariffEvent =>
    unfold Machine.commandEffect
    exact banksOk_keptByCloses.tariffEvent hs
  case pointStep b =>
    unfold Machine.commandEffect State.pointStep
    dsimp only
    split
    · exact hs.stepEntry b _ _
    · exact hs
  case foldCompletion b =>
    unfold Machine.commandEffect State.foldCompletion
    dsimp only
    split
    next hf =>
      split
      · exact hs
      · exact hs.completeFold b hf
    · exact hs
  case setBank => exact hs.take _ fun _ k hu => hu.takeSetBank k
  case start => exact hs.take _ fun _ k hu => hu.takeStart k
  case stop => exact hs.take _ fun _ k hu => hu.takeStop k
  case close => exact hs.take _ fun _ k hu => hu.takeClose k
  case readOpen => exact hs.take _ fun _ k hu => hu.takeReadOpen k
  case cancel => exact hs.take _ fun _ k hu => hu.takeCancel k
  case warmResetCompletion => exact hs.warmCompletion
  case coldReset => exact of_reset rfl rfl
  case ready =>
    unfold Machine.commandEffect
    dsimp only
    split
    · exact hs
    · exact of_reset rfl rfl
  all_goals exact hs.of_touches (commandEffect_touches _ s) (of_decide_eq_true rfl) (of_decide_eq_true rfl)

end State.BanksOk

/-- Settles O10: phases move with folds, held closes stand in banks that take one, and every set opened keeps its balance
entry. -/
theorem stepKeepsBanks : Obligations.StepKeepsBanks :=
  step_keeps State.BanksOk (fun _ _ h => h) fun c _ h => h.commandEffect c

end Sys2Proof.Machine
end

section
/-! SUPPORT. The counts of the accumulator sets: additions, lost words and openings, and every step with them. -/

namespace Sys2Proof.Machine

/-! ### Counts and energies that stay at their limits -/

theorem addCount_toNat (c : Word) (n : Nat) : (addCount c n).1.toNat = min (c.toNat + n) 4294967295 := by
  unfold addCount
  split
  · rw [BitVec.toNat_ofNat]
    omega
  · change (4294967295 : Nat) = _
    omega

theorem addCount_passes (c : Word) (n : Nat) : (addCount c n).2 = true ↔ 4294967295 < c.toNat + n := by
  unfold addCount
  split
  · simp only [Bool.false_eq_true, false_iff]
    omega
  · simp only [true_iff]
    omega

theorem addCount_of_not_passes {c : Word} {n : Nat} (h : (addCount c n).2 = false) :
    (addCount c n).1.toNat = c.toNat + n := by
  have := mt (addCount_passes c n).mpr (by rw [h]; decide)
  rw [addCount_toNat]
  omega

/-! ### One entry -/

theorem AccSet.mapEntry_entries (x : AccSet) (e : Fin 6) (f : PointEntry → PointEntry) (g : BalanceEntry → BalanceEntry)
    (i : Fin 5) : (x.mapEntry e f g).entries[i] = if i.val = e.val then f x.entries[i] else x.entries[i] := by
  unfold AccSet.mapEntry
  split
  next h =>
    have := getElem_fin_set x.entries ⟨e.val, h⟩ i (f x.entries[e.val])
    simp only [Fin.ext_iff] at this
    refine this.trans ?_
    split
    next hi => simp [hi]
    · rfl
  next h => rw [if_neg (by have := i.isLt; omega)]

theorem AccSet.mapEntry_balance_eq (x : AccSet) (e : Fin 6) (f : PointEntry → PointEntry) (g : BalanceEntry → BalanceEntry) :
    (x.mapEntry e f g).balance = if e.val = 5 then x.balance.map g else x.balance := by
  unfold AccSet.mapEntry
  split
  next h => rw [if_neg (by omega)]
  next h => rw [if_pos (by omega)]

theorem AccSet.mapEntry_span (x : AccSet) (e : Fin 6) (f : PointEntry → PointEntry) (g : BalanceEntry → BalanceEntry) :
    (x.mapEntry e f g).span = x.span := by
  unfold AccSet.mapEntry
  split
  · rfl
  · rfl

/-- A lost word of an entry changes that entry alone, and leaves it DAMAGED (R72). -/
theorem AccSet.loseWord_of_entry (x : AccSet) {it : AccItem} {e : Fin 6} (h : it.entry = some e) :
    ∃ f g, x.loseWord it = (x.mapEntry e f g).damage e := by
  unfold AccSet.loseWord
  rw [h]
  cases it
  case interval => cases h
  case start => cases h
  case last => cases h
  case span => cases h
  case causes => cases h
  all_goals
    cases h
    exact ⟨_, _, rfl⟩

/-- A lost word of the set as a whole leaves every entry DAMAGED (R72). -/
theorem AccSet.loseWord_of_set (x : AccSet) {it : AccItem} (h : it.entry = none) : x.loseWord it = (x.zeroWord it).damageAll := by
  unfold AccSet.loseWord
  rw [h]

namespace AccSet.CountsOk

theorem damageAll (x : AccSet) : x.damageAll.CountsOk := by
  constructor
  · intro e _ hd
    unfold AccSet.damageAll at hd
    simp only [getElem_fin_tabulate] at hd
    cases hd
  · intro y hy hd
    obtain ⟨z, -, rfl⟩ := Option.map_eq_some_iff.mp hy
    cases hd

theorem loseWord {x : AccSet} (h : x.CountsOk) (it : AccItem) : (x.loseWord it).CountsOk := by
  cases he : it.entry with
  | none =>
    rw [x.loseWord_of_set he]
    exact damageAll _
  | some e =>
    obtain ⟨f, g, hlose⟩ := x.loseWord_of_entry he
    obtain ⟨hentries, hbalance⟩ := h
    rw [hlose]
    unfold AccSet.damage
    constructor
    · intro i hi hd
      rw [AccSet.mapEntry_entries] at hi hd ⊢
      rw [AccSet.mapEntry_span, AccSet.mapEntry_span]
      split at hd
      · cases hd
      next hne =>
        rw [if_neg hne] at hi ⊢
        rw [AccSet.mapEntry_entries, if_neg hne] at hi hd ⊢
        exact hentries i hi hd
    · intro y hy hd
      rw [AccSet.mapEntry_balance_eq] at hy
      rw [AccSet.mapEntry_span, AccSet.mapEntry_span]
      split at hy
      · obtain ⟨z, -, rfl⟩ := Option.map_eq_some_iff.mp hy
        cases hd
      next hne =>
        rw [AccSet.mapEntry_balance_eq, if_neg hne] at hy
        exact hbalance y hy hd

end AccSet.CountsOk

/-! ### One addition -/

theorem PointEntry.count_counts {x : PointEntry} {m : Nat} {st : Option PointStatus} (h : (x.count m st).damaged = false) :
    x.damaged = false ∧
      (x.count m st).present.toNat + (x.count m st).absent.toNat = x.present.toNat + x.absent.toNat + (1 + m) := by
  unfold PointEntry.count at h ⊢
  split at h
  · simp only [Bool.or_eq_false_iff] at h
    obtain ⟨⟨⟨⟨hd, -⟩, hp⟩, ha⟩, -⟩ := h
    refine ⟨hd, ?_⟩
    dsimp only
    rw [addCount_of_not_passes hp, addCount_of_not_passes ha]
    omega
  · simp only [Bool.or_eq_false_iff] at h
    obtain ⟨hd, ha⟩ := h
    refine ⟨hd, ?_⟩
    dsimp only
    rw [addCount_of_not_passes ha]
    omega

theorem PointEntry.noteProfile_counts (x : PointEntry) (later : Bool) (r : Option PointResult) :
    (x.noteProfile later r).inUse = x.inUse ∧ (x.noteProfile later r).damaged = x.damaged ∧
      (x.noteProfile later r).present = x.present ∧ (x.noteProfile later r).absent = x.absent := by
  unfold PointEntry.noteProfile
  split
  · exact ⟨rfl, rfl, rfl, rfl⟩
  · exact ⟨rfl, rfl, rfl, rfl⟩

theorem PointEntry.add_counts {x : PointEntry} {m : Nat} {later : Bool} {r : Option PointResult}
    (hu : (x.add m later r).inUse = true) (hd : (x.add m later r).damaged = false) : x.inUse = true ∧ x.damaged = false ∧
      (x.add m later r).present.toNat + (x.add m later r).absent.toNat = x.present.toNat + x.absent.toNat + (1 + m) := by
  unfold PointEntry.add at hu hd ⊢
  split at hu
  next hin =>
    rw [if_pos hin] at hd ⊢
    obtain ⟨-, hdamaged, hpresent, habsent⟩ := PointEntry.noteProfile_counts (x.count m (r.map PointResult.status)) later r
    rw [hdamaged] at hd
    obtain ⟨hx, hsum⟩ := PointEntry.count_counts hd
    exact ⟨hin, hx, by rw [hpresent, habsent, hsum]⟩
  next hin => exact absurd hu hin

theorem BalanceEntry.add_counts {x : BalanceEntry} {m : Nat} {r : Option (Vector Nat 104)} (hd : (x.add m r).damaged = false) :
    x.damaged = false ∧
      (x.add m r).balanced.toNat + (x.add m r).unbalanced.toNat = x.balanced.toNat + x.unbalanced.toNat + (1 + m) := by
  unfold BalanceEntry.add at hd ⊢
  split at hd
  · simp only [Bool.or_eq_false_iff] at hd
    obtain ⟨⟨⟨hx, -⟩, hp⟩, ha⟩ := hd
    refine ⟨hx, ?_⟩
    dsimp only
    rw [addCount_of_not_passes hp, addCount_of_not_passes ha]
    omega
  · simp only [Bool.or_eq_false_iff] at hd
    obtain ⟨hx, ha⟩ := hd
    refine ⟨hx, ?_⟩
    dsimp only
    rw [addCount_of_not_passes ha]
    omega

namespace AccSet.CountsOk

theorem add {x : AccSet} (h : x.CountsOk) (b : BankId) (q : Seq16) (m : Nat) (later : Bool) (c : Calculation) :
    (x.add b q m later c).CountsOk := by
  obtain ⟨hentries, hbalance⟩ := h
  unfold AccSet.add
  dsimp only
  split
  · exact damageAll _
  next hspan =>
    have span := addCount_of_not_passes (Bool.not_eq_true _ ▸ hspan : (addCount x.span (1 + m)).2 = false)
    constructor
    · intro e hu hd
      simp only [getElem_fin_tabulate] at hu hd ⊢
      obtain ⟨hin, hx, hsum⟩ := PointEntry.add_counts hu hd
      rw [hsum, hentries e hin hx, span]
    · intro y hy hd
      obtain ⟨z, hz, rfl⟩ := Option.map_eq_some_iff.mp hy
      obtain ⟨hx, hsum⟩ := BalanceEntry.add_counts hd
      rw [hsum, hbalance z hz hx, span]

theorem zeroSet (balance : Bool) : (State.zeroSet balance).CountsOk := by
  constructor
  · intro e hu _
    simp [State.zeroSet, State.zeroEntry] at hu
  · intro y hy _
    cases balance
    · cases hy
    · cases hy
      rfl

theorem openedSet (s : State) (b : BankId) (n : Word) (balance : Bool) : (s.openedSet b n balance).CountsOk := by
  constructor
  · intro e _ _
    unfold State.openedSet
    simp only [getElem_fin_tabulate]
    rfl
  · exact (zeroSet balance).2

end AccSet.CountsOk

/-! ### Every bank -/

/-- The counts of both sets of a bank. -/
def Bank.CountsOk (x : Bank) : Prop := ∀ i : Fin 2, x.sets[i].CountsOk

theorem Bank.CountsOk.withSet {x : Bank} (h : x.CountsOk) (i : Fin 2) {y : AccSet} (hy : y.CountsOk) :
    (x.withSet i y).CountsOk := by
  intro j
  unfold Bank.withSet
  dsimp only
  rw [getElem_fin_set]
  split
  · exact hy
  · exact h j

namespace State.CountsOk

variable {s t : State}

theorem bank (hs : s.CountsOk) (b : BankId) : s.banks[b].CountsOk := hs b

theorem of_touches (hs : s.CountsOk) {ps : List Part} (h : s.Touches ps t) (hp : Part.banks ∉ ps) : t.CountsOk := by
  unfold State.CountsOk
  rw [h.banks hp]
  exact hs

/-- One bank replaced. -/
theorem of_set (hs : s.CountsOk) {b : BankId} {x : Bank} (hx : x.CountsOk) (ht : t.banks = s.banks.set b x) : t.CountsOk := by
  intro i j
  rw [ht, getElem_fin_set]
  split
  · exact hx j
  · exact hs i j

theorem checkAccs (hs : s.CountsOk) (b : BankId) (i : Fin 2) (items : List AccItem) : (s.checkAccs b i items).CountsOk := by
  refine State.checkAccs_keeps (P := fun bs _ => ∀ b : BankId, bs[b].CountsOk) (fun bs _ h b i it c => ?_) hs b i items
  rw [getElem_fin_set]
  split
  · exact (h b).withSet i ((h b i).loseWord it)
  · exact h c

theorem addToSet (hs : s.CountsOk) (b : BankId) (a : Fin 2) (q : Seq16) (m : Nat) (c : Calculation) :
    (s.addToSet b a q m c).CountsOk := by
  obtain ⟨items, more, later, hbanks, -⟩ := s.addToSet_banks b a q m c
  have checked := (hs.checkAccs b a items).checkAccs b a more
  exact checked.of_set ((checked.bank b).withSet a ((checked b a).add b q m later c)) hbanks

end State.CountsOk

/-- The turnover zeroes the set it opens, and the closed set takes its causes (R81). -/
theorem Bank.CountsOk.turned {s : State} {b : BankId} (h : s.banks[b].CountsOk) (a : Fin 2) (c : HeldClose) :
    (s.turnedBank b a c).CountsOk := by
  intro i
  unfold State.turnedBank
  dsimp only
  rw [getElem_fin_set]
  split
  · exact h a
  · rw [getElem_fin_set]
    split
    · split
      · exact .zeroSet _
      · exact .openedSet _ b _ _
    · exact h i

/-- Asks leave the sets; a close start zeroes the one it opens (R81). -/
theorem State.countsOk_keptByCloses : KeptByCloses State.CountsOk [.banks] where
  beside := by decide
  frame hs h hcore := hs.of_touches h (hcore _ (by decide))
  ask s b cause waiter _ hs := by
    refine hs.of_set ?_ rfl
    rw [Bank.ask_eq]
    exact hs.bank b
  start s b a h _ _ hs := by
    refine hs.of_set ?_ (s.closeStart_banks b a h)
    have hbanks := (s.applyStaged_touches b).banks (by decide)
    have closed : (s.applyStaged b).banks[b].CountsOk := hbanks ▸ hs.bank b
    exact closed.turned a h

namespace State.CountsOk

variable {s : State} (hs : s.CountsOk)

include hs

theorem stepEntry (b : BankId) (f : Fold) (e : Fin 6) : (s.stepEntry b f e).CountsOk := by
  have read : (s.stepReads b f.set e).CountsOk := by
    unfold State.stepReads
    refine checkAccs ?_ b _ _
    exact hs.of_touches ((s.checkRegs_touches _ _).trans (State.checkRegs_touches _ _ _)) (by decide)
  have scaled := read.of_touches (State.stepScale_touches _ (entryPoint b e) f.interval) (by decide)
  have settled (totals : Vector (BitVec 64) 104) :=
    scaled.of_touches (State.stepSettle_touches _ (entryPoint b e) f.interval totals) (by decide)
  have recorded (u : State) (hu : u.CountsOk) (rebased : Bool) : (u.stepRecord b e f rebased).CountsOk := by
    unfold State.stepRecord
    split
    · exact (hu.checkAccs b f.set _).of_touches (State.writeRecord_recordEffect _ b _ _).touches (by decide)
    · exact hu
  unfold State.stepEntry
  refine of_touches ?_ (State.putFold_touches _ b _) (by decide)
  exact (recorded _ (settled _) _).of_touches (State.stepInterval_touches _ _ _) (by decide)

theorem completeFold (b : BankId) (f : Fold) : (s.completeFold b f).CountsOk := by
  rw [State.completeFold_eq]
  refine of_touches ?_ (State.pushLost_touches _ b f) (by decide)
  refine countsOk_keptByCloses.heldTest ?_ b
  refine of_touches ?_ (State.flush_touches _) (by decide)
  refine of_touches ?_ (State.reportCompletion_touches _ b _) (by decide)
  have folded : ({ s.banks[b] with phase := s.banks[b].phase.folded } : Bank).CountsOk := hs.bank b
  exact hs.of_set folded (s.foldEnded_banks b)

/-! ### The takes -/

theorem refuse (k : SlotId) (r : Reason) : (s.refuse k r).CountsOk := hs.of_touches (s.refuse_touches k r) (by decide)

theorem done (k : SlotId) (r : Reply) : (s.done k r).CountsOk := hs.of_touches (s.done_touches k r) (by decide)

theorem take (row : Row) {carry : State → SlotId → State}
    (hcarry : ∀ (u : State) (k : SlotId), u.CountsOk → (carry u k).CountsOk) :
    (s.take row carry).CountsOk :=
  State.take_keeps _ (fun k rest _ _ => hcarry _ k (hs.of_touches (s.beginTake_touches k rest) (by decide))) hs

theorem takeSetBank (k : SlotId) : (s.takeSetBank k).CountsOk := by
  have put (b : BankId) (billing notify archive : Bool) :
      (s.putBank b { s.banks[b] with billing := billing, notify := notify, archive := archive }).CountsOk :=
    hs.of_set (x := { s.banks[b] with billing := billing, notify := notify, archive := archive }) (hs.bank b) rfl
  unfold State.takeSetBank
  dsimp only
  split
  · split
    · exact hs.refuse k _
    · exact (put _ _ _ _).done k _
  · exact hs.refuse k _

theorem openBank (b : BankId) : (s.openBank b).CountsOk := by
  have hbanks := (s.applyStaged_touches b).banks (by decide)
  have stopped : (s.applyStaged b).banks[b].CountsOk := hbanks ▸ hs.bank b
  refine hs.of_set ?_ (s.openBank_banks b)
  exact stopped.withSet _ (.openedSet _ b _ _)

theorem takeStart (k : SlotId) : (s.takeStart k).CountsOk := by
  unfold State.takeStart
  split
  next r _ =>
    split
    · exact hs.refuse k _
    · refine of_touches ?_ (State.doneTiming_touches _ k _) (by decide)
      exact foldl_keeps (P := State.CountsOk) _ (fun _ b _ hu => hu.openBank b)
        (hs.of_touches (s.writeTiming_touches r) (by decide))
  · exact hs.refuse k _

theorem takeStop (k : SlotId) : (s.takeStop k).CountsOk := by
  unfold State.takeStop
  split
  · split
    · exact hs.refuse k _
    · refine countsOk_keptByCloses.askBanks ?_ _ rfl _
      exact (hs.of_touches (s.writeTiming_touches _) (by decide)).of_touches (State.defer_touches _ k _ _) (by decide)
  · exact hs.refuse k _

theorem closeBanks (k : SlotId) (kind : BankWork) (bs : List BankId) : (s.closeBanks k kind bs).CountsOk := by
  unfold State.closeBanks
  exact countsOk_keptByCloses.askBanks (hs.of_touches (s.defer_touches k _ _) (by decide)) _ rfl _

theorem takeClose (k : SlotId) : (s.takeClose k).CountsOk := by
  unfold State.takeClose
  dsimp only
  split
  · exact hs.refuse k _
  · split
    · split
      · exact hs.refuse k _
      · exact hs.closeBanks k _ _
    · split
      · split
        · exact hs.closeBanks k _ _
        · exact hs.refuse k _
      · exact hs.refuse k _

theorem takeReadOpen (k : SlotId) : (s.takeReadOpen k).CountsOk := by
  have read (p : SetId) (i : Fin 2) (first count : Nat) : (s.readSet k p i first count).CountsOk := by
    unfold State.readSet
    exact (hs.checkAccs _ i _).done k _
  unfold State.takeReadOpen
  dsimp only
  split
  · split
    · split
      · exact read _ _ _ _
      · exact hs.refuse k _
    · exact hs.refuse k _
  · exact hs.refuse k _

theorem withdraw (k : SlotId) (w : Work) : (s.withdraw k w).CountsOk := by
  cases w with
  | banks kind out closed =>
    have one (x : Bank) (hx : x.CountsOk) : (x.withdraw k).CountsOk := by
      unfold Bank.withdraw
      split
      · exact hx
      · exact hx
    unfold State.withdraw
    exact foldl_keeps (P := State.CountsOk) out (fun _ o _ hu => hu.of_set (one _ (hu.bank o.1)) rfl) hs
  | rebase p => exact hs

theorem takeCancel (k : SlotId) : (s.takeCancel k).CountsOk := by
  unfold State.takeCancel State.cancelSlot
  dsimp only
  split
  · split
    · exact ((hs.withdraw _ _).of_touches (State.endDeferred_touches _ _ _ _ _ _ _ _) (by decide)).done k _
    · exact hs.done k _
  · exact hs.refuse k _

/-! ### Every command -/

theorem warmCompletion : s.warmCompletion.CountsOk := by
  have one (x : Bank) (hx : x.CountsOk) : x.warm.CountsOk := by
    unfold Bank.warm
    split
    · exact hx
    · exact hx
  have effects : s.warmEffects.CountsOk := by
    unfold State.warmEffects
    refine of_touches ?_ (State.warmRequests_touches _) (by decide)
    refine of_touches ?_ (State.warmRegisters_touches _) (by decide)
    unfold State.warmBanks
    refine foldl_keeps (P := State.CountsOk) _ (fun u b _ hu => hu.of_set (one _ (hu.bank b)) rfl) ?_
    refine of_touches ?_ (State.warmWatches_touches _) (by decide)
    refine of_touches ?_ (State.warmSorter_touches _) (by decide)
    exact hs.of_touches s.warmLinks_touches (by decide)
  unfold State.warmCompletion
  split
  · unfold State.completeWarm
    refine countsOk_keptByCloses.heldTests ?_ _
    refine of_touches ?_ (State.endWarm_touches _) (by decide)
    exact effects.of_touches (State.clearCausesButCapture_touches _) (by decide)
  · exact hs

omit hs in
theorem of_reset (hbanks : s.banks = State.reset.banks) : s.CountsOk := by
  have reset (balance : Bool) : (State.resetBank balance).CountsOk := fun i => by
    rw [show (State.resetBank balance).sets[i] = State.zeroSet balance by simp [State.resetBank]]
    exact .zeroSet balance
  unfold State.CountsOk
  rw [hbanks]
  intro b
  change (((Vector.replicate 8 (State.resetBank false)).set (0 : BankId) (State.resetBank true))[b]).CountsOk
  rw [getElem_fin_set]
  split
  · exact reset true
  · rw [show (Vector.replicate 8 (State.resetBank false))[b] = State.resetBank false by simp]
    exact reset false

theorem commandEffect (c : Instr) : (commandEffect c s).CountsOk := by
  cases c
  case windowAddition b => exact countsOk_keptByCloses.windowAddition hs b fun _ i q m x hu => hu.addToSet b i q m x
  case tariffEvent =>
    unfold Machine.commandEffect
    exact countsOk_keptByCloses.tariffEvent hs
  case pointStep b =>
    unfold Machine.commandEffect State.pointStep
    dsimp only
    split
    · exact hs.stepEntry b _ _
    · exact hs
  case foldCompletion b =>
    unfold Machine.commandEffect State.foldCompletion
    dsimp only
    split
    · split
      · exact hs
      · exact hs.completeFold b _
    · exact hs
  case setBank => exact hs.take _ fun _ k hu => hu.takeSetBank k
  case start => exact hs.take _ fun _ k hu => hu.takeStart k
  case stop => exact hs.take _ fun _ k hu => hu.takeStop k
  case close => exact hs.take _ fun _ k hu => hu.takeClose k
  case readOpen => exact hs.take _ fun _ k hu => hu.takeReadOpen k
  case cancel => exact hs.take _ fun _ k hu => hu.takeCancel k
  case warmResetCompletion => exact hs.warmCompletion
  case coldReset => exact of_reset rfl
  case ready =>
    unfold Machine.commandEffect
    dsimp only
    split
    · exact hs
    · exact of_reset rfl
  all_goals exact hs.of_touches (commandEffect_touches _ s) (of_decide_eq_true rfl)

end State.CountsOk

/-- Settles O15: an addition raises present or absent windows as it raises the span, and a count that stops at its limit or a
lost word leaves its entry DAMAGED. -/
theorem stepKeepsCounts : Obligations.StepKeepsCounts :=
  step_keeps State.CountsOk (fun _ _ h => h) fun c _ h => h.commandEffect c

end Sys2Proof.Machine
end

section
/-! SUPPORT. The request unit: slots, intake queue, pending table and pending REBASEs in agreement, within a take and between
commands. -/

namespace Sys2Proof.Machine

/-! ### The agreement -/

/-- The slot of the REBASE pending in a register set. -/
def State.rebaseSlot (s : State) (p : SetId) : Option SlotId := s.regs[p].rebase.map PendingRebase.slot

/-- Slots, intake queue, pending table and the slots of the pending REBASEs agree. During a take the slot in hand has left the
intake queue and is still POSTED. -/
structure RequestUnit.Agrees (u : RequestUnit) (rebase : SetId → Option SlotId) (hand : Option SlotId) : Prop where
  intake_nodup : u.intake.Nodup
  posted : ∀ k : SlotId, u.slots[k] = .posted ↔ k ∈ u.intake ∨ hand = some k
  hand_left : ∀ k, hand = some k → k ∉ u.intake
  table_nodup : (u.table.map PendingEntry.slot).Nodup
  taken : ∀ k : SlotId, k ∈ u.table.map PendingEntry.slot ↔ u.slots[k] = .taken
  rebases : ∀ p k, rebase p = some k ↔ (⟨k, .rebase p⟩ : PendingEntry) ∈ u.table
  limit_pos : 1 ≤ u.quotaLimit
  limit_le : u.quotaLimit ≤ 32
  count_le : u.quotaCount ≤ 32

/-- Every pending entry has a part outstanding (R153). -/
def RequestUnit.Outstanding (u : RequestUnit) : Prop := ∀ e ∈ u.table, e.work.finished = false

/-- The requests in agreement, with the slot in hand, if a take is under way. -/
def State.RequestsWith (s : State) (hand : Option SlotId) : Prop :=
  s.requests.Agrees s.rebaseSlot hand ∧ s.requests.Outstanding

theorem State.requestsOk_iff (s : State) : s.RequestsOk ↔ s.RequestsWith none := by
  have rebaseSlot (p : SetId) (k : SlotId) : s.rebaseSlot p = some k ↔ ∃ x, s.regs[p].rebase = some x ∧ x.slot = k :=
    Option.map_eq_some_iff
  constructor
  · rintro ⟨h1, h2, h3, h4, h5, h6, h7, h8, h9, h10⟩
    refine ⟨⟨h1, fun k => ?_, fun _ hk => (by cases hk), h3, h4, fun p k => ?_, h8, h9, h10⟩, h5⟩
    · rw [h2 k]
      simp
    · rw [rebaseSlot]
      refine ⟨?_, fun h => h7 _ h p rfl⟩
      rintro ⟨x, hx, rfl⟩
      exact h6 p x hx
  · rintro ⟨⟨h1, h2, -, h3, h4, h6, h8, h9, h10⟩, h5⟩
    refine ⟨h1, fun k => by rw [h2 k]; simp, h3, h4, h5, fun p x hx => ?_, fun e he p hp => ?_, h8, h9, h10⟩
    · exact (h6 p x.slot).mp ((rebaseSlot p _).mpr ⟨x, hx, rfl⟩)
    · refine (rebaseSlot p _).mp ((h6 p e.slot).mpr ?_)
      rw [← hp]
      exact he

/-! ### One change of the request unit at a time -/

/-- Entries of a table in which each slot stands once are told by their slots. -/
theorem eq_of_slot_eq {table : List PendingEntry} (h : (table.map PendingEntry.slot).Nodup) {e f : PendingEntry}
    (he : e ∈ table) (hf : f ∈ table) (hslot : e.slot = f.slot) : e = f :=
  List.inj_on_of_nodup_map h he hf hslot

namespace RequestUnit.Agrees

variable {u : RequestUnit} {rebase : SetId → Option SlotId} {hand : Option SlotId} (h : u.Agrees rebase hand)

include h

theorem congr {rebase' : SetId → Option SlotId} (hr : ∀ p, rebase' p = rebase p) : u.Agrees rebase' hand :=
  (funext hr : rebase' = rebase) ▸ h

theorem rebase_unique {p q : SetId} {k : SlotId} (hp : rebase p = some k) (hq : rebase q = some k) : p = q := by
  have entry := eq_of_slot_eq h.table_nodup ((h.rebases p k).mp hp) ((h.rebases q k).mp hq) rfl
  injection entry with _ hwork
  injection hwork

/-- Another limit and another count. -/
theorem withQuota {limit count : Nat} {timer : Option Nat} (hpos : 1 ≤ limit) (hle : limit ≤ 32) (hcount : count ≤ 32) :
    { u with quotaLimit := limit, quotaCount := count, quotaTimer := timer }.Agrees rebase hand :=
  { intake_nodup := h.intake_nodup, posted := h.posted, hand_left := h.hand_left, table_nodup := h.table_nodup
    taken := h.taken, rebases := h.rebases, limit_pos := hpos, limit_le := hle, count_le := hcount }

/-- Entries changed in place: their slots, and which of them are REBASEs, stay. -/
theorem mapWork {g : PendingEntry → PendingEntry} (hslot : ∀ e, (g e).slot = e.slot)
    (hwork : ∀ e p, (g e).work = .rebase p ↔ e.work = .rebase p) : { u with table := u.table.map g }.Agrees rebase hand := by
  have slots : (u.table.map g).map PendingEntry.slot = u.table.map PendingEntry.slot := by
    rw [List.map_map]
    exact List.map_congr_left fun e _ => hslot e
  refine ⟨h.intake_nodup, h.posted, h.hand_left, ?_, fun k => ?_, fun p k => ?_, h.limit_pos, h.limit_le, h.count_le⟩
  · dsimp only
    rw [slots]
    exact h.table_nodup
  · dsimp only
    rw [slots]
    exact h.taken k
  · rw [h.rebases, List.mem_map]
    have same : ∀ e : PendingEntry, e = ⟨k, .rebase p⟩ ↔ e.slot = k ∧ e.work = .rebase p := fun e =>
      ⟨fun he => he ▸ ⟨rfl, rfl⟩, fun ⟨hs, hw⟩ => by cases e; cases hs; cases hw; rfl⟩
    constructor
    · exact fun he => ⟨_, he, (same _).mpr ⟨hslot _, (hwork _ p).mpr rfl⟩⟩
    · rintro ⟨e, he, heq⟩
      obtain ⟨hs, hw⟩ := (same _).mp heq
      rw [← (same e).mpr ⟨(hslot e).symm.trans hs, (hwork e p).mp hw⟩]
      exact he

/-- The end of a pending entry: its slot leaves TAKEN, and a pending REBASE goes with it (R154, R155). -/
theorem endEntry {e : PendingEntry} (he : e ∈ u.table) {st : SlotState} (hposted : st ≠ .posted) (htaken : st ≠ .taken)
    {rebase' : SetId → Option SlotId} (hr : ∀ p, rebase' p = if rebase p = some e.slot then none else rebase p) :
    { u with slots := u.slots.set e.slot st, table := u.table.filter fun f => f.slot != e.slot }.Agrees rebase' hand := by
  have wasTaken : u.slots[e.slot] = .taken := (h.taken e.slot).mp (List.mem_map_of_mem he)
  have notPosted : ¬(e.slot ∈ u.intake ∨ hand = some e.slot) := by
    rw [← h.posted, wasTaken]
    decide
  refine ⟨h.intake_nodup, fun k => ?_, h.hand_left, ?_, fun k => ?_, fun p k => ?_, h.limit_pos, h.limit_le, h.count_le⟩
  · dsimp only
    rw [getElem_fin_set]
    split
    next hk =>
      rw [hk]
      exact iff_of_false hposted notPosted
    · exact h.posted k
  · exact h.table_nodup.sublist (List.Sublist.map _ List.filter_sublist)
  · have remaining : k ∈ (u.table.filter fun f => f.slot != e.slot).map PendingEntry.slot ↔
        k ∈ u.table.map PendingEntry.slot ∧ k ≠ e.slot := by
      simp only [List.mem_map, List.mem_filter, bne_iff_ne]
      constructor
      · rintro ⟨f, ⟨hf, hne⟩, rfl⟩
        exact ⟨⟨f, hf, rfl⟩, hne⟩
      · rintro ⟨⟨f, hf, rfl⟩, hne⟩
        exact ⟨f, ⟨hf, hne⟩, rfl⟩
    dsimp only
    rw [remaining, h.taken, getElem_fin_set]
    split
    next hk => exact iff_of_false (fun hh => hh.2 hk) htaken
    next hk => exact and_iff_left hk
  · dsimp only
    rw [hr, List.mem_filter, ← h.rebases]
    by_cases hk : k = e.slot
    · subst hk
      split
      next hp => simp
      next hp => simp [hp]
    · have keep : (k != e.slot) = true := by simpa using hk
      split
      next hp =>
        rw [hp]
        simp only [reduceCtorEq, Option.some.injEq, false_iff, not_and]
        exact fun heq => absurd heq.symm hk
      · simp [keep]

/-- The slot in hand ends within its take (R151). -/
theorem finish {k : SlotId} (hk : hand = some k) {st : SlotState} (hposted : st ≠ .posted) (htaken : st ≠ .taken) :
    { u with slots := u.slots.set k st }.Agrees rebase none := by
  have wasPosted : u.slots[k] = .posted := (h.posted k).mpr (Or.inr hk)
  refine ⟨h.intake_nodup, fun j => ?_, fun _ hj => (by cases hj), h.table_nodup, fun j => ?_, h.rebases, h.limit_pos,
    h.limit_le, h.count_le⟩
  · dsimp only
    rw [getElem_fin_set]
    split
    next hj =>
      subst hj
      exact iff_of_false hposted (by simp [h.hand_left _ hk])
    next hj =>
      rw [h.posted j, hk]
      simp [Ne.symm hj]
  · dsimp only
    rw [getElem_fin_set, h.taken j]
    split
    next hj =>
      subst hj
      exact iff_of_false (by rw [wasPosted]; decide) htaken
    · exact Iff.rfl

/-- The slot in hand is deferred: TAKEN, with a pending entry (R152, R153). A REBASE is held in its register set. -/
theorem defer {k : SlotId} (hk : hand = some k) (w : Work) {rebase' : SetId → Option SlotId}
    (hr : ∀ p j, rebase' p = some j ↔ rebase p = some j ∨ j = k ∧ w = .rebase p) :
    { u with slots := u.slots.set k .taken, table := u.table ++ [(⟨k, w⟩ : PendingEntry)] }.Agrees rebase' none := by
  have wasPosted : u.slots[k] = .posted := (h.posted k).mpr (Or.inr hk)
  have notPending : k ∉ u.table.map PendingEntry.slot := by
    rw [h.taken, wasPosted]
    decide
  refine ⟨h.intake_nodup, fun j => ?_, fun _ hj => (by cases hj), ?_, fun j => ?_, fun p j => ?_, h.limit_pos, h.limit_le,
    h.count_le⟩
  · dsimp only
    rw [getElem_fin_set]
    split
    next hj =>
      subst hj
      exact iff_of_false (by decide) (by simp [h.hand_left _ hk])
    next hj =>
      rw [h.posted j, hk]
      simp [Ne.symm hj]
  · dsimp only
    rw [List.map_append, List.nodup_append]
    exact ⟨h.table_nodup, List.nodup_singleton _, fun a ha b hb => by
      rw [List.map_singleton, List.mem_singleton] at hb
      intro heq
      rw [heq, hb] at ha
      exact notPending ha⟩
  · dsimp only
    rw [List.map_append, List.mem_append, h.taken j, getElem_fin_set, List.map_singleton, List.mem_singleton]
    split
    next hj => simp [hj]
    next hj => simp [hj]
  · dsimp only
    rw [hr, h.rebases, List.mem_append, List.mem_singleton, PendingEntry.mk.injEq]
    exact or_congr_right (and_congr_right fun _ => eq_comm)

end RequestUnit.Agrees

/-- A request unit with nothing queued and nothing pending. -/
theorem RequestUnit.agrees_of_empty {u : RequestUnit} {rebase : SetId → Option SlotId} (hi : u.intake = []) (ht : u.table = [])
    (hs : ∀ k : SlotId, u.slots[k] ≠ .posted ∧ u.slots[k] ≠ .taken) (hr : ∀ p, rebase p = none) (h1 : 1 ≤ u.quotaLimit)
    (h2 : u.quotaLimit ≤ 32) (h3 : u.quotaCount ≤ 32) : u.Agrees rebase none where
  intake_nodup := by rw [hi]; exact .nil
  posted k := by rw [hi]; simpa using (hs k).1
  hand_left _ hk := by cases hk
  table_nodup := by rw [ht]; exact .nil
  taken k := by rw [ht]; simpa using (hs k).2
  rebases p k := by rw [ht, hr]; simp
  limit_pos := h1
  limit_le := h2
  count_le := h3

/-! ### States in agreement -/

namespace State.RequestsWith

variable {s t : State} {hand : Option SlotId}

/-- The parts that the agreement of the requests depends on. -/
def parts : List Part := [.regs, .slots, .intake, .quotaLimit, .quotaCount, .table]

theorem of_unit (hs : s.RequestsWith hand) (hu : t.requests = s.requests) (hr : t.regs = s.regs) : t.RequestsWith hand := by
  unfold State.RequestsWith State.rebaseSlot
  rw [hu, hr]
  exact hs

theorem of_touches (hs : s.RequestsWith hand) {ps : List Part} (h : s.Touches ps t) (hp : ∀ p ∈ parts, p ∉ ps) :
    t.RequestsWith hand := by
  have same (p : Part) (hmem : p ∈ parts) : p.Same s t := h.same (hp p hmem)
  have hr : t.regs = s.regs := same .regs (by decide)
  have hunit : t.requests = { s.requests with quotaTimer := t.requests.quotaTimer } := by
    have h1 : t.requests.slots = s.requests.slots := same .slots (by decide)
    have h2 : t.requests.intake = s.requests.intake := same .intake (by decide)
    have h3 : t.requests.quotaLimit = s.requests.quotaLimit := same .quotaLimit (by decide)
    have h4 : t.requests.quotaCount = s.requests.quotaCount := same .quotaCount (by decide)
    have h5 : t.requests.table = s.requests.table := same .table (by decide)
    cases hsu : s.requests
    cases htu : t.requests
    simp only [hsu, htu] at h1 h2 h3 h4 h5
    simp only [h1, h2, h3, h4, h5]
  obtain ⟨hagrees, hout⟩ := hs
  unfold State.RequestsWith State.rebaseSlot
  rw [hunit, hr]
  exact ⟨hagrees.withQuota hagrees.limit_pos hagrees.limit_le hagrees.count_le, hout⟩

/-- A register set rewritten with the same pending REBASE, or with one of the same slot. -/
theorem putRegs (hs : s.RequestsWith hand) {p : SetId} {r : RegisterSet}
    (hr : r.rebase.map PendingRebase.slot = s.regs[p].rebase.map PendingRebase.slot) : (s.putRegs p r).RequestsWith hand := by
  obtain ⟨hagrees, hout⟩ := hs
  refine ⟨hagrees.congr fun q => ?_, hout⟩
  unfold State.rebaseSlot
  rw [State.putRegs_regs, getElem_fin_set]
  split
  next hq => rw [hr, hq]
  · rfl

theorem regWritten (hs : s.RequestsWith hand) (p : SetId) (which : RegItem → Bool) :
    (s.regWritten p which).RequestsWith hand := hs.of_unit rfl rfl

/-- The end of a pending entry, its pending REBASE withdrawn (R154, R155). -/
theorem endDeferred (hs : s.RequestsWith hand) {e : PendingEntry} (he : e ∈ s.requests.table) (ht : t.requests = s.requests)
    (hr : ∀ p, t.rebaseSlot p = if s.rebaseSlot p = some e.slot then none else s.rebaseSlot p) {st : SlotState}
    (hposted : st ≠ .posted) (htaken : st ≠ .taken) (o : ReplyOutcome) (r : Reason) (n : Word) (c : Nat) (d : List Byte) :
    (t.endDeferred e.slot st o r n c d).RequestsWith hand := by
  obtain ⟨hagrees, hout⟩ := hs
  have hregs : (t.endDeferred e.slot st o r n c d).regs = t.regs := (t.endDeferred_touches _ _ _ _ _ _ _).regs (by decide)
  unfold State.RequestsWith
  rw [State.endDeferred_requests, ht]
  refine ⟨hagrees.endEntry he hposted htaken fun p => ?_, fun f hf => hout f (List.mem_of_mem_filter hf)⟩
  rw [← hr p]
  unfold State.rebaseSlot
  rw [hregs]

/-- The end of a pending REBASE whose register set has given it up. -/
theorem endRebase (hs : s.RequestsWith hand) {p : SetId} {x : PendingRebase} (hx : s.regs[p].rebase = some x)
    {r : RegisterSet} (hr : r.rebase = none) (hu : t.requests = s.requests) (ht : t.regs = s.regs.set p r) {st : SlotState}
    (hposted : st ≠ .posted) (htaken : st ≠ .taken) (o : ReplyOutcome) (re : Reason) (n : Word) (c : Nat) (d : List Byte) :
    (t.endDeferred x.slot st o re n c d).RequestsWith hand := by
  obtain ⟨hagrees, -⟩ := id hs
  have hp : s.rebaseSlot p = some x.slot := by
    unfold State.rebaseSlot
    rw [hx]
    rfl
  refine hs.endDeferred ((hagrees.rebases p x.slot).mp hp) hu (fun q => ?_) hposted htaken o re n c d
  have slot : t.rebaseSlot q = if q = p then none else s.rebaseSlot q := by
    unfold State.rebaseSlot
    rw [ht, getElem_fin_set]
    split
    · rw [hr]
      rfl
    · rfl
  rw [slot]
  by_cases hq : q = p
  · rw [if_pos hq, hq, if_pos hp]
  · rw [if_neg hq, if_neg fun h => hq (hagrees.rebase_unique h hp)]

/-! ### Checks of the register store -/

theorem loseRebase (hs : s.RequestsWith hand) (p : SetId) : (s.loseRebase p).RequestsWith hand := by
  unfold State.loseRebase
  split
  next x hx =>
    exact hs.endRebase (t := s.putRegs p { s.regs[p] with rebase := none }) (r := { s.regs[p] with rebase := none }) hx rfl rfl
      rfl (by decide) (by decide) _ _ _ _ _
  · exact hs

theorem loseReg (hs : s.RequestsWith hand) (p : SetId) (it : RegItem) : (s.loseReg p it).RequestsWith hand := by
  have put (r : RegisterSet) (hr : r.rebase = s.regs[p].rebase) (which : RegItem → Bool) :
      ((s.putRegs p r).regWritten p which).RequestsWith hand := (hs.putRegs (by rw [hr])).regWritten p which
  unfold State.loseReg
  cases it with
  | rebase => exact (hs.loseRebase p).regWritten p _
  | register q => exact put _ (by rfl) _
  | residue q => exact put _ (by rfl) _
  | state q => exact put _ (by rfl) _
  | scale => exact put _ (by rfl) _
  | staged => exact put _ (by rfl) _
  | lastFolded => exact put _ (by rfl) _

theorem checkReg (hs : s.RequestsWith hand) (p : SetId) (it : RegItem) : (s.checkReg p it).RequestsWith hand := by
  unfold State.checkReg
  split
  · exact hs
  · exact (hs.regWritten p _).of_touches (State.countCorrected_checked _).touches (by decide)
  · exact (hs.of_touches (s.report_checked _ _).touches (by decide)).loseReg p it

theorem checkRegs (hs : s.RequestsWith hand) (p : SetId) (items : List RegItem) : (s.checkRegs p items).RequestsWith hand := by
  unfold State.checkRegs
  exact foldl_keeps (P := fun u : State => u.RequestsWith hand) items (fun _ it _ hu => hu.checkReg p it) hs

end State.RequestsWith

/-! ### Closes -/

theorem Work.beginFold_finished (w : Work) (b : BankId) (n : Word) : (w.beginFold b n).finished = w.finished := by
  cases w with
  | banks k out closed => simp [Work.beginFold, Work.finished]
  | rebase p => rfl

theorem PendingEntry.started_slot (e : PendingEntry) (b : BankId) (n : Word) (ws : List (SlotId × WaitCause)) :
    (e.started b n ws).slot = e.slot := by
  unfold PendingEntry.started
  split
  · rfl
  · rfl

theorem PendingEntry.started_finished (e : PendingEntry) (b : BankId) (n : Word) (ws : List (SlotId × WaitCause)) :
    (e.started b n ws).work.finished = e.work.finished := by
  unfold PendingEntry.started
  split
  · exact e.work.beginFold_finished b n
  · rfl

theorem PendingEntry.started_rebase (e : PendingEntry) (b : BankId) (n : Word) (ws : List (SlotId × WaitCause)) (p : SetId) :
    (e.started b n ws).work = .rebase p ↔ e.work = .rebase p := by
  unfold PendingEntry.started
  split
  · cases hw : e.work with
    | banks k out closed => simp [Work.beginFold]
    | rebase q => simp [Work.beginFold]
  · exact Iff.rfl

theorem State.closeStart_requests (s : State) (b : BankId) (a : Fin 2) (h : HeldClose) : (s.closeStart b a h).requests =
    { s.requests with table := s.requests.table.map fun e => e.started b s.banks[b].interval h.waiters } := by
  have effect := s.closeStart_closeEffect b a h
  unfold State.CloseEffect at effect
  rw [← s.closeStart_table b a h, effect]

theorem RegisterSet.makeDue_slot (r : RegisterSet) : r.makeDue.rebase.map PendingRebase.slot = r.rebase.map PendingRebase.slot := by
  unfold RegisterSet.makeDue
  rw [Option.map_map]
  rfl

/-- Asks leave the requests; a close start reports to the pending entries in place (R83). -/
theorem State.requestsWith_keptByCloses (hand : Option SlotId) :
    KeptByCloses (fun s => s.RequestsWith hand) State.RequestsWith.parts where
  beside := by decide
  frame hs h hcore := hs.of_touches h hcore
  ask s b cause waiter _ hs := hs.of_touches (s.putBank_touches b _) (by decide)
  start s b a h _ _ hs := by
    obtain ⟨hagrees, hout⟩ := hs
    unfold State.RequestsWith
    rw [s.closeStart_requests b a h]
    refine ⟨(hagrees.mapWork (fun e => e.started_slot b _ _) fun e p => e.started_rebase b _ _ p).congr fun p => ?_, ?_⟩
    · unfold State.rebaseSlot
      rw [s.closeStart_regs b a h, getElem_fin_tabulate]
      split
      · exact s.regs[p].makeDue_slot
      · rfl
    · refine List.forall_mem_map.mpr fun e he => ?_
      rw [e.started_finished]
      exact hout e he

/-! ### The end of a fold -/

theorem Work.endPart_rebase (w : Work) (b : BankId) (n : Word) (p : SetId) : w.endPart b n = .rebase p ↔ w = .rebase p := by
  cases w with
  | banks k out closed =>
    refine iff_of_false ?_ (by simp)
    unfold Work.endPart
    dsimp only
    split
    · simp
    · simp
  | rebase q => exact Iff.rfl

/-- The ends of the entries whose last part has ended (R154). -/
theorem State.endCloses {s : State} {hand : Option SlotId} (hs : s.requests.Agrees s.rebaseSlot hand) (l : List PendingEntry)
    (hl : (l.map PendingEntry.slot).Nodup) (hmem : ∀ e ∈ l, e ∈ s.requests.table ∧ e.work.finished = true)
    (hall : ∀ e ∈ s.requests.table, e.work.finished = true → e ∈ l) : (l.foldl State.endClose s).RequestsWith hand := by
  induction l generalizing s with
  | nil =>
    refine ⟨hs, fun e he => ?_⟩
    cases hf : e.work.finished with
    | false => rfl
    | true => cases hall e he hf
  | cons e l ih =>
    obtain ⟨he, hfinished⟩ := hmem e List.mem_cons_self
    obtain ⟨hslot, hrest⟩ := List.nodup_cons.mp hl
    have noRebase (p : SetId) : s.rebaseSlot p ≠ some e.slot := fun hp => by
      have entry := eq_of_slot_eq hs.table_nodup he ((hs.rebases p _).mp hp) rfl
      rw [entry] at hfinished
      cases hfinished
    have hrequests : (s.endClose e).requests = { s.requests with
        slots := s.requests.slots.set e.slot .done, table := s.requests.table.filter fun f => f.slot != e.slot } := by
      unfold State.endClose
      exact s.endDeferred_requests _ _ _ _ _ _ _
    have hregs : (s.endClose e).regs = s.regs := by
      unfold State.endClose
      exact (s.endDeferred_touches _ _ _ _ _ _ _).regs (by decide)
    rw [List.foldl_cons]
    generalize s.endClose e = t at hrequests hregs ⊢
    refine ih ?_ hrest (fun f hf => ?_) fun f hf hfin => ?_
    · rw [hrequests]
      refine hs.endEntry he (by decide) (by decide) fun p => ?_
      rw [if_neg (noRebase p)]
      unfold State.rebaseSlot
      rw [hregs]
    · obtain ⟨hf', hfin⟩ := hmem f (List.mem_cons_of_mem e hf)
      rw [hrequests]
      refine ⟨List.mem_filter.mpr ⟨hf', ?_⟩, hfin⟩
      rw [bne_iff_ne]
      exact fun h => hslot (h ▸ List.mem_map_of_mem hf)
    · rw [hrequests] at hf
      obtain ⟨hf', hne⟩ := List.mem_filter.mp hf
      rcases List.mem_cons.mp (hall f hf' hfin) with rfl | h
      · simp at hne
      · exact h

/-- A due REBASE is the pending one. -/
theorem RegisterSet.rebase_of_due {r : RegisterSet} {x : PendingRebase} (h : r.dueRebase = some x) : r.rebase = some x := by
  unfold RegisterSet.dueRebase at h
  split at h
  next y hy =>
    split at h
    · rw [hy]
      exact h
    · cases h
  · cases h

namespace State.RequestsWith

variable {s : State} {hand : Option SlotId} (hs : s.RequestsWith hand)

include hs

theorem reportCompletion (b : BankId) (n : Word) : (s.reportCompletion b n).RequestsWith hand := by
  obtain ⟨hagrees, -⟩ := hs
  have mapped := hagrees.mapWork (g := fun e => { e with work := e.work.endPart b n }) (fun _ => rfl)
    fun e p => e.work.endPart_rebase b n p
  unfold State.reportCompletion
  refine State.endCloses mapped _ ?_ (fun e he => ?_) fun e he hf => ?_
  · exact mapped.table_nodup.sublist (List.Sublist.map _ List.filter_sublist)
  · exact List.mem_filter.mp he
  · exact List.mem_filter.mpr ⟨he, hf⟩

theorem completeFold (b : BankId) (f : Fold) : (s.completeFold b f).RequestsWith hand := by
  rw [State.completeFold_eq]
  refine of_touches ?_ (State.pushLost_touches _ b f) (by decide)
  refine (requestsWith_keptByCloses hand).heldTest ?_ b
  refine of_touches ?_ (State.flush_touches _) (by decide)
  exact (hs.of_touches (s.foldEnded_touches b) (by decide)).reportCompletion b _

/-! ### A point step -/

theorem stepScale (p : SetId) (n : Word) : (s.stepScale p n).RequestsWith hand := by
  have kept : s.regs[p].scalePart.rebase = s.regs[p].rebase := by
    unfold RegisterSet.scalePart
    split
    · split
      · rfl
      · rfl
    · rfl
  have put : (s.putRegs p s.regs[p].scalePart).RequestsWith hand := hs.putRegs (by rw [kept])
  unfold State.stepScale
  dsimp only
  split
  · exact put.of_touches (State.push_pushed _ _ _ _ _ _ _).touches (by decide)
  · exact put

theorem stepSettle (p : SetId) (n : Word) (totals : Vector (BitVec 64) 104) : (s.stepSettle p n totals).RequestsWith hand := by
  have ended : (match s.regs[p].dueRebase with
      | some x => ((s.putRegs p (s.regs[p].settle totals)).regWritten p s.regs[p].rebasesWord).endRebase p n x
      | none => (s.putRegs p (s.regs[p].settle totals)).regWritten p s.regs[p].rebasesWord).RequestsWith hand := by
    split
    next x hx =>
      have gone : (s.regs[p].settle totals).rebase = none := by
        unfold RegisterSet.settle
        dsimp only
        rw [hx]
        rfl
      unfold State.endRebase
      exact hs.endRebase (t := (s.putRegs p (s.regs[p].settle totals)).regWritten p s.regs[p].rebasesWord)
        (RegisterSet.rebase_of_due hx) gone rfl rfl (by decide) (by decide) _ _ _ _ _
    next hx =>
      refine (hs.putRegs ?_).regWritten p _
      unfold RegisterSet.settle
      dsimp only
      rw [hx]
      rfl
  unfold State.stepSettle
  dsimp only
  split
  · exact ended.of_touches (State.push_pushed _ _ _ _ _ _ _).touches (by decide)
  · exact ended

theorem stepEntry (b : BankId) (f : Fold) (e : Fin 6) : (s.stepEntry b f e).RequestsWith hand := by
  have read : (s.stepReads b f.set e).RequestsWith hand := by
    unfold State.stepReads
    exact ((hs.checkRegs _ _).checkRegs _ _).of_touches (State.checkAccs_touches _ b _ _) (by decide)
  have interval (u : State) (hu : u.RequestsWith hand) (p : SetId) (n : Word) : (u.stepInterval p n).RequestsWith hand := by
    unfold State.stepInterval
    exact (hu.putRegs (by rfl)).regWritten p _
  unfold State.stepEntry
  refine of_touches ?_ (State.putFold_touches _ b _) (by decide)
  exact interval _ ((((read.stepScale _ _).stepSettle _ _ _)).of_touches (State.stepRecord_touches _ b e f _) (by decide)) _ _

end State.RequestsWith

/-! ### Within a take -/

namespace State.RequestsWith

variable {s : State} {k : SlotId} (hs : s.RequestsWith (some k))

include hs

theorem finish {st : SlotState} (hposted : st ≠ .posted) (htaken : st ≠ .taken) (r : Reply) :
    (s.finish k st r).RequestsWith none := by
  obtain ⟨hagrees, hout⟩ := hs
  have hregs : (s.finish k st r).regs = s.regs := (s.finish_touches k st r).regs (by decide)
  unfold State.RequestsWith
  rw [s.finish_requests k st r]
  refine ⟨(hagrees.finish rfl hposted htaken).congr fun p => ?_, hout⟩
  unfold State.rebaseSlot
  rw [hregs]

theorem done (r : Reply) : (s.done k r).RequestsWith none := hs.finish (by decide) (by decide) r

theorem refuse (r : Reason) : (s.refuse k r).RequestsWith none := hs.finish (by decide) (by decide) _

theorem finishPoint (p : PointId) {st : SlotState} (hposted : st ≠ .posted) (htaken : st ≠ .taken) (r : Reply) :
    (s.finishPoint k p st r).RequestsWith none := by
  unfold State.finishPoint
  exact (hs.checkRegs _ _).finish hposted htaken _

/-- A deferred CLOSE or STOP with a part outstanding. -/
theorem deferBanks (kind : BankWork) {out : List (BankId × Progress)} (hne : out ≠ []) (closed : List (BankId × Word)) (n : Nat) :
    (s.defer k (.banks kind out closed) n).RequestsWith none := by
  obtain ⟨hagrees, hout⟩ := hs
  have hregs : (s.defer k (.banks kind out closed) n).regs = s.regs := (s.defer_touches k _ n).regs (by decide)
  unfold State.RequestsWith
  rw [s.defer_requests k _ n]
  refine ⟨hagrees.defer rfl _ fun p j => ?_, fun e he => ?_⟩
  · unfold State.rebaseSlot
    rw [hregs]
    simp
  · rcases List.mem_append.mp he with he | he
    · exact hout e he
    · rw [List.mem_singleton.mp he]
      simpa [Work.finished] using hne

theorem writeTiming {r : TimingRequest} (hr : s.timingRequest k = some r) : (s.writeTiming r).RequestsWith (some k) := by
  obtain ⟨hagrees, hout⟩ := hs
  have hquota : 1 ≤ r.quota ∧ r.quota ≤ 32 := by
    unfold State.timingRequest at hr
    dsimp only at hr
    split at hr
    next h =>
      cases hr
      exact h.2.2.2.2.1
    · cases hr
  exact ⟨hagrees.withQuota hquota.1 hquota.2 hagrees.count_le, hout⟩

theorem headroomReads (p : PointId) (v : Fin 4) : (s.headroomReads p v).RequestsWith (some k) := by
  unfold State.headroomReads
  dsimp only
  split
  · exact (hs.checkReg _ _).checkRegs _ _
  · exact hs.checkReg _ _

theorem writePoint (p : PointId) (r : PointRequest) : (s.writePoint p r).RequestsWith (some k) := by
  have marked : (if s.profiles[p].mask = r.mask ∧ s.profiles[p].invert = r.invert then s else s.markChange p).RequestsWith
      (some k) := by
    split
    · exact hs
    · exact hs.of_touches (s.markChange_touches p) (by decide)
  unfold State.writePoint
  dsimp only
  exact ((marked.of_touches (State.putProfile_touches _ p _) (by decide)).putRegs (by rfl)).regWritten _ _

theorem takeSetPoint : (s.takeSetPoint k).RequestsWith none := by
  unfold State.takeSetPoint State.judgePoint
  dsimp only
  split
  · split
    · split
      · exact hs.finishPoint _ (by decide) (by decide) _
      · split
        · exact hs.finishPoint _ (by decide) (by decide) _
        · split
          · exact (hs.headroomReads _ _).finishPoint _ (by decide) (by decide) _
          · exact ((hs.headroomReads _ _).writePoint _ _).finishPoint _ (by decide) (by decide) _
    · exact hs.finishPoint _ (by decide) (by decide) _
  · exact hs.refuse _

theorem takeSetBank : (s.takeSetBank k).RequestsWith none := by
  unfold State.takeSetBank
  dsimp only
  split
  · split
    · exact hs.refuse _
    · exact (hs.of_touches (State.putBank_touches s _ _) (by decide)).done _
  · exact hs.refuse _

theorem takeSetTiming : (s.takeSetTiming k).RequestsWith none := by
  unfold State.takeSetTiming
  split
  next r hr => exact (hs.writeTiming hr).done _
  · exact hs.refuse _

theorem takeStart : (s.takeStart k).RequestsWith none := by
  unfold State.takeStart
  split
  next r hr =>
    split
    · exact hs.refuse _
    · refine done ?_ _
      exact foldl_keeps (P := fun u : State => u.RequestsWith (some k)) _
        (fun u b _ hu => hu.of_touches (u.openBank_touches b) (by decide)) (hs.writeTiming hr)
  · exact hs.refuse _

theorem takeStop : (s.takeStop k).RequestsWith none := by
  unfold State.takeStop
  split
  next r hr =>
    split
    · exact hs.refuse _
    next hne =>
      refine (requestsWith_keptByCloses none).askBanks ?_ _ rfl _
      exact (hs.writeTiming hr).deferBanks _ (by simpa using hne) _ _
  · exact hs.refuse _

theorem closeBanks (kind : BankWork) {bs : List BankId} (hne : bs ≠ []) : (s.closeBanks k kind bs).RequestsWith none := by
  unfold State.closeBanks
  exact (requestsWith_keptByCloses none).askBanks (hs.deferBanks _ (by simpa using hne) _ _) _ rfl _

theorem takeClose : (s.takeClose k).RequestsWith none := by
  unfold State.takeClose
  dsimp only
  split
  · exact hs.refuse _
  · split
    · split
      · exact hs.refuse _
      next hne => exact hs.closeBanks _ (by simpa using hne)
    · split
      · split
        · exact hs.closeBanks _ (by simp)
        · exact hs.refuse _
      · exact hs.refuse _

theorem takeReadOpen : (s.takeReadOpen k).RequestsWith none := by
  have read (p : SetId) (i : Fin 2) (first count : Nat) : (s.readSet k p i first count).RequestsWith none := by
    unfold State.readSet
    exact (hs.of_touches (s.checkAccs_touches _ i _) (by decide)).done _
  unfold State.takeReadOpen
  dsimp only
  split
  · split
    · split
      · exact read _ _ _ _
      · exact hs.refuse _
    · exact hs.refuse _
  · exact hs.refuse _

theorem judgeRead (size : Nat) {read : SetId → Nat → Nat → State}
    (hread : ∀ p first count, (read p first count).RequestsWith none) : (s.judgeRead k size read).RequestsWith none := by
  unfold State.judgeRead
  dsimp only
  split
  · split
    · exact hread _ _ _
    · exact hs.refuse _
  · exact hs.refuse _

theorem readQuantities (p : SetId) (first count : Nat) : (s.readQuantities k p first count).RequestsWith none := by
  unfold State.readQuantities
  exact (hs.checkRegs _ _).done _

theorem readNet (p : SetId) (first count : Nat) : (s.readNet k p first count).RequestsWith none := by
  unfold State.readNet
  exact (hs.checkRegs _ _).done _

/-- A REBASE held in a register set that holds none (R94). -/
theorem holdRebase (p : SetId) (values : List Nat) (hfree : s.regs[p].rebase = none) :
    (s.holdRebase k p values).RequestsWith none := by
  obtain ⟨hagrees, hout⟩ := hs
  have deferred (n : Nat) : (s.defer k (.rebase p) n).regs = s.regs := (s.defer_touches k _ n).regs (by decide)
  have slots (u : State) (hu : u.regs = s.regs) (x : PendingRebase) (hx : x.slot = k) (q : SetId) (j : SlotId) :
      ((u.putRegs p { u.regs[p] with rebase := some x }).regWritten p (· == .rebase)).rebaseSlot q = some j ↔
        s.rebaseSlot q = some j ∨ j = k ∧ Work.rebase p = .rebase q := by
    unfold State.rebaseSlot
    rw [State.regWritten_regs, State.putRegs_regs, hu, getElem_fin_set]
    split
    next hq =>
      subst hq
      rw [hfree]
      simp [hx, eq_comm]
    next hq => simp [Ne.symm hq]
  unfold State.holdRebase
  dsimp only
  refine ⟨?_, fun e he => ?_⟩
  · rw [State.regWritten_requests, State.putRegs_requests, s.defer_requests k _ _]
    exact hagrees.defer rfl _ fun q j => slots _ (deferred _) _ rfl q j
  · rw [State.regWritten_requests, State.putRegs_requests, s.defer_requests k _ _] at he
    rcases List.mem_append.mp he with he | he
    · exact hout e he
    · rw [List.mem_singleton.mp he]
      rfl

theorem takeRebase : (s.takeRebase k).RequestsWith none := by
  unfold State.takeRebase
  dsimp only
  split
  · split
    · split
      · exact hs.refuse _
      · split
        · exact (hs.checkReg _ _).refuse _
        next hfree => exact (hs.checkReg _ _).holdRebase _ _ (by simpa using hfree)
    · exact hs.refuse _
  · exact hs.refuse _

/-- A CANCEL's target withdrawn from its blocks and ended (R176). -/
theorem withdrawn {x : PendingEntry} (hx : x ∈ s.requests.table) :
    ((s.withdraw x.slot x.work).endDeferred x.slot .done .cancelled .none 0 0 []).RequestsWith (some k) := by
  obtain ⟨hagrees, -⟩ := id hs
  cases hw : x.work with
  | banks kind out closed =>
    have touched : s.Touches [.banks, .exchangeMarks] (s.withdraw x.slot (.banks kind out closed)) := by
      unfold State.withdraw
      exact .foldl (fun u o => u.putBank_touches o.1 _) out s
    refine hs.endDeferred hx (touched.requests (by decide)) (fun p => ?_) (by decide) (by decide) _ _ _ _ _
    have noRebase : s.rebaseSlot p ≠ some x.slot := fun hp => by
      have entry := eq_of_slot_eq hagrees.table_nodup hx ((hagrees.rebases p _).mp hp) rfl
      rw [entry] at hw
      cases hw
    rw [if_neg noRebase]
    unfold State.rebaseSlot
    rw [touched.regs (by decide)]
  | rebase p =>
    have hp : s.rebaseSlot p = some x.slot := (hagrees.rebases p x.slot).mpr (by rw [← hw]; exact hx)
    obtain ⟨y, hy, hslot⟩ := Option.map_eq_some_iff.mp hp
    have withdrawn : s.withdraw x.slot (.rebase p) =
        (s.putRegs p { s.regs[p] with rebase := none }).regWritten p (· == .rebase) := rfl
    rw [withdrawn, ← hslot]
    exact hs.endRebase (t := (s.putRegs p { s.regs[p] with rebase := none }).regWritten p (· == .rebase))
      (r := { s.regs[p] with rebase := none }) hy rfl rfl rfl (by decide) (by decide) _ _ _ _ _

theorem takeCancel : (s.takeCancel k).RequestsWith none := by
  unfold State.takeCancel State.cancelSlot
  dsimp only
  split
  · split
    next x hx =>
      obtain ⟨y, hy, hif⟩ := Option.bind_eq_some_iff.mp hx
      obtain rfl : y = x := by
        split at hif
        · injection hif
        · cases hif
      have hslot := List.find?_some hy
      have hmem := List.mem_of_find?_eq_some hy
      have ended := hs.withdrawn hmem
      rw [beq_iff_eq] at hslot
      rw [hslot] at ended
      exact ended.done _
    · exact hs.done _
  · exact hs.refuse _

theorem takeLink (a : LinkAction) : (State.takeLink a s k).RequestsWith none := by
  unfold State.takeLink
  dsimp only
  split
  · exact (hs.of_touches (s.linkAction_touches _ a) (by decide)).done _
  · exact hs.refuse _

theorem takeReadCapture : (s.takeReadCapture k).RequestsWith none := by
  unfold State.takeReadCapture
  split
  · exact hs.done _
  · exact hs.refuse _

theorem takeReadCaptureClear : (s.takeReadCaptureClear k).RequestsWith none := by
  unfold State.takeReadCaptureClear
  split
  · exact (hs.of_touches (s.putCapture_touches none) (by decide)).done _
  · exact hs.refuse _

end State.RequestsWith

end Sys2Proof.Machine
end

section
/-! SUPPORT. The requests in agreement through host writes, resets and every command. -/

namespace Sys2Proof.Machine

/-! ### The request unit's warm-reset effect -/

/-- A command that ends each of these slots leaves the others. -/
theorem slots_foldl {α : Type} {f : State → α → State} {slot : α → SlotId} {st : SlotState}
    (hf : ∀ (s : State) (x : α), (f s x).requests.slots = s.requests.slots.set (slot x) st) (xs : List α) (s : State)
    (k : SlotId) : (xs.foldl f s).requests.slots[k] = if k ∈ xs.map slot then st else s.requests.slots[k] := by
  induction xs generalizing s with
  | nil => rfl
  | cons x xs ih =>
    rw [List.foldl_cons, ih, hf, getElem_fin_set, List.map_cons]
    simp only [List.mem_cons]
    by_cases hk : k ∈ xs.map slot
    · rw [if_pos hk, if_pos (Or.inr hk)]
    · rw [if_neg hk]
      by_cases hx : k = slot x
      · rw [if_pos hx, if_pos (Or.inl hx)]
      · rw [if_neg hx, if_neg (not_or.mpr ⟨hx, hk⟩)]

theorem State.refusePosted_slots (s : State) (k : SlotId) :
    (s.refusePosted k).requests.slots = s.requests.slots.set k .refused := by
  unfold State.refusePosted
  rw [State.finish_requests, (s.checkWord_checked _).requests]

theorem State.refuseTaken_slots (s : State) (e : PendingEntry) :
    (s.refuseTaken e).requests.slots = s.requests.slots.set e.slot .refused := by
  unfold State.refuseTaken
  rw [State.endDeferred_requests]

/-- The states after the POSTED slots, then the TAKEN slots were refused (R158). -/
def State.refusedPosted (s : State) : State := s.requests.intake.foldl State.refusePosted s

def State.refusedAll (s : State) : State := s.refusedPosted.requests.table.foldl State.refuseTaken s.refusedPosted

theorem State.warmRequests_eq (s : State) : s.warmRequests =
    { s.refusedAll with requests := { s.refusedAll.requests with intake := [], table := [] } }.refreshQuota := rfl

theorem State.refusedPosted_table (s : State) : s.refusedPosted.requests.table = s.requests.table := by
  have kept (u : State) (k : SlotId) : (u.refusePosted k).requests.table = u.requests.table := by
    unfold State.refusePosted
    rw [State.finish_requests, (u.checkWord_checked _).requests]
  exact foldl_keeps (P := fun u : State => u.requests.table = s.requests.table) _ (fun u k _ hu => (kept u k).trans hu) rfl

theorem State.refusedAll_quotaLimit (s : State) : s.refusedAll.requests.quotaLimit = s.requests.quotaLimit := by
  have posted (u : State) (k : SlotId) : (u.refusePosted k).requests.quotaLimit = u.requests.quotaLimit := by
    unfold State.refusePosted
    rw [State.finish_requests, (u.checkWord_checked _).requests]
  have taken (u : State) (e : PendingEntry) : (u.refuseTaken e).requests.quotaLimit = u.requests.quotaLimit := by
    unfold State.refuseTaken
    rw [State.endDeferred_requests]
  have first : s.refusedPosted.requests.quotaLimit = s.requests.quotaLimit :=
    foldl_keeps (P := fun u : State => u.requests.quotaLimit = s.requests.quotaLimit) _
      (fun u k _ hu => (posted u k).trans hu) rfl
  exact foldl_keeps (P := fun u : State => u.requests.quotaLimit = s.requests.quotaLimit) _
    (fun u e _ hu => (taken u e).trans hu) first

theorem State.refusedAll_slots (s : State) (k : SlotId) : s.refusedAll.requests.slots[k] =
    if k ∈ s.requests.intake ∨ k ∈ s.requests.table.map PendingEntry.slot then .refused else s.requests.slots[k] := by
  have first : s.refusedPosted.requests.slots[k] = if k ∈ s.requests.intake then .refused else s.requests.slots[k] := by
    have := slots_foldl State.refusePosted_slots s.requests.intake s k
    rwa [List.map_id'] at this
  have second := slots_foldl (slot := PendingEntry.slot) State.refuseTaken_slots s.refusedPosted.requests.table s.refusedPosted k
  unfold State.refusedAll
  rw [second, first, s.refusedPosted_table]
  by_cases ht : k ∈ s.requests.table.map PendingEntry.slot
  · rw [if_pos ht, if_pos (Or.inr ht)]
  · rw [if_neg ht]
    by_cases hi : k ∈ s.requests.intake
    · rw [if_pos hi, if_pos (Or.inl hi)]
    · rw [if_neg hi, if_neg (not_or.mpr ⟨hi, ht⟩)]

/-- After the warm-reset effect no slot is POSTED or TAKEN, whatever REBASEs were withdrawn before it (R112, R158). -/
theorem State.warmRequests_requestsWith {s : State} {rebase : SetId → Option SlotId} (hs : s.requests.Agrees rebase none)
    (hr : ∀ p, s.rebaseSlot p = none) : s.warmRequests.RequestsWith none := by
  have hregs : s.warmRequests.regs = s.regs := s.warmRequests_touches.regs (by decide)
  refine ⟨RequestUnit.agrees_of_empty rfl rfl (fun k => ?_) (fun p => ?_) ?_ ?_ (Nat.zero_le _), fun e he => by cases he⟩
  · rw [State.warmRequests_eq]
    change s.refusedAll.requests.slots[k] ≠ _ ∧ s.refusedAll.requests.slots[k] ≠ _
    rw [s.refusedAll_slots k]
    split
    · decide
    next h =>
      obtain ⟨hi, ht⟩ := not_or.mp h
      exact ⟨fun hp => hi (by simpa using (hs.posted k).mp hp), fun hp => ht ((hs.taken k).mpr hp)⟩
  · unfold State.rebaseSlot
    rw [hregs]
    exact hr p
  · exact (s.refusedAll_quotaLimit.symm ▸ hs.limit_pos : 1 ≤ s.refusedAll.requests.quotaLimit)
  · exact (s.refusedAll_quotaLimit.symm ▸ hs.limit_le : s.refusedAll.requests.quotaLimit ≤ 32)

namespace State.RequestsWith

variable {s : State} (hs : s.RequestsWith none)

include hs

theorem warmRegisters_warmRequests : s.warmRegisters.warmRequests.RequestsWith none := by
  have gone (p : SetId) : s.warmRegisters.rebaseSlot p = none := by
    unfold State.rebaseSlot State.warmRegisters
    rw [getElem_fin_tabulate]
    rfl
  have kept : s.warmRegisters.requests = s.requests := rfl
  exact State.warmRequests_requestsWith (rebase := s.rebaseSlot) (kept ▸ hs.1) gone

theorem warmCompletion : s.warmCompletion.RequestsWith none := by
  have effects : s.warmEffects.RequestsWith none := by
    have banks : s.warmLinks.warmSorter.warmWatches.warmBanks.RequestsWith none := by
      refine of_touches ?_ (State.warmBanks_touches _) (by decide)
      refine of_touches ?_ (State.warmWatches_touches _) (by decide)
      refine of_touches ?_ (State.warmSorter_touches _) (by decide)
      exact hs.of_touches s.warmLinks_touches (by decide)
    unfold State.warmEffects
    exact warmRegisters_warmRequests banks
  unfold State.warmCompletion
  split
  · unfold State.completeWarm
    refine (requestsWith_keptByCloses none).heldTests ?_ _
    refine of_touches ?_ (State.endWarm_touches _) (by decide)
    exact effects.of_touches (State.clearCausesButCapture_touches _) (by decide)
  · exact hs

/-! ### Host writes -/

theorem postSlot {k : SlotId} (hfree : s.requests.slots[k] = .free) : (s.postSlot k).RequestsWith none := by
  obtain ⟨hagrees, hout⟩ := hs
  have notQueued : k ∉ s.requests.intake := fun h => by
    have := (hagrees.posted k).mpr (Or.inl h)
    rw [hfree] at this
    cases this
  refine ⟨⟨?_, fun j => ?_, fun _ hj => (by cases hj), hagrees.table_nodup, fun j => ?_, hagrees.rebases, hagrees.limit_pos,
    hagrees.limit_le, hagrees.count_le⟩, hout⟩
  · exact List.nodup_append.mpr ⟨hagrees.intake_nodup, List.nodup_singleton k, fun a ha b hb heq =>
      notQueued (List.mem_singleton.mp hb ▸ heq ▸ ha)⟩
  · change (s.requests.slots.set k .posted)[j] = _ ↔ j ∈ s.requests.intake ++ [k] ∨ _
    rw [getElem_fin_set, List.mem_append, List.mem_singleton]
    split
    next hj => simp [hj]
    next hj => simpa [hj] using hagrees.posted j
  · change j ∈ s.requests.table.map PendingEntry.slot ↔ (s.requests.slots.set k .posted)[j] = _
    rw [getElem_fin_set, hagrees.taken]
    split
    next hj =>
      rw [hj, hfree]
      decide
    · exact Iff.rfl

theorem freeSlot {k : SlotId} (hended : s.requests.slots[k] = .done ∨ s.requests.slots[k] = .refused) :
    (s.setSlot k .free).RequestsWith none := by
  obtain ⟨hagrees, hout⟩ := hs
  have notPosted : s.requests.slots[k] ≠ .posted ∧ s.requests.slots[k] ≠ .taken := by
    rcases hended with h | h
    · rw [h]; decide
    · rw [h]; decide
  refine ⟨⟨hagrees.intake_nodup, fun j => ?_, fun _ hj => (by cases hj), hagrees.table_nodup, fun j => ?_, hagrees.rebases,
    hagrees.limit_pos, hagrees.limit_le, hagrees.count_le⟩, hout⟩
  · change (s.requests.slots.set k .free)[j] = _ ↔ _
    rw [getElem_fin_set]
    split
    next hj => exact iff_of_false (by decide) fun h => notPosted.1 (hj ▸ (hagrees.posted j).mpr h)
    · exact hagrees.posted j
  · change _ ↔ (s.requests.slots.set k .free)[j] = _
    rw [getElem_fin_set]
    split
    next hj => exact iff_of_false (fun h => notPosted.2 (hj ▸ (hagrees.taken j).mp h)) (by decide)
    · exact hagrees.taken j

theorem legalChange {u : State} {g : Guarded} {v : Word} (h : s.legalChange g v = some u) : u.RequestsWith none := by
  unfold State.legalChange at h
  cases g with
  | slot k =>
    dsimp only at h
    split at h
    next hfree =>
      cases h
      exact hs.postSlot hfree.1
    · split at h
      next hended =>
        cases h
        exact hs.freeSlot hended.1
      · cases h
  | page p =>
    dsimp only at h
    split at h
    · cases h
      exact hs.of_touches (s.putWriter_touches _) (by decide)
    · cases h
  | record i =>
    dsimp only at h
    split at h
    · cases h
      exact hs.of_touches (s.putExceptions_touches _) (by decide)
    · cases h

theorem hostWrite (la : BitVec 16) (data : Word) (be : BitVec 4) : (s.hostWrite la data be).RequestsWith none := by
  unfold State.hostWrite
  split
  · exact hs
  · split
    · unfold State.guardedWrite
      split
      · exact hs.of_touches (s.tagViolation_touches _ la data be) (by decide)
      · split
        · exact hs
        · split
          next hu => exact hs.legalChange hu
          · exact hs.of_touches (s.tagViolation_touches _ la data be) (by decide)
    · split
      · exact hs.of_touches (s.storeWord_touches _ data be) (by decide)
      · exact hs.of_touches (s.ownerViolation_touches la data be) (by decide)

/-! ### Every command -/

theorem refreshQuota : s.refreshQuota.RequestsWith none :=
  ⟨hs.1.withQuota hs.1.limit_pos hs.1.limit_le (Nat.zero_le _), hs.2⟩

theorem release : s.release.RequestsWith none := by
  unfold State.release
  split
  · split
    · refine refreshQuota ?_
      exact hs.of_touches ((s.dropHanded_touches.seq (State.endStall_touches _) (rs := .accounting :: Part.ofSorting) (by decide)
        (by decide)).trans ((State.tryHandOff_touches _).mono (by decide))) (by decide)
    · exact hs
  · exact hs

/-- The head slot comes into hand (R149). -/
theorem beginTake {k : SlotId} {rest : List SlotId} (hk : s.requests.intake = k :: rest) (hmay : s.mayTake = true) :
    (s.beginTake k rest).RequestsWith (some k) := by
  obtain ⟨hagrees, hout⟩ := hs
  have count : s.requests.quotaCount < s.requests.quotaLimit := by
    unfold State.mayTake at hmay
    simpa using (Bool.and_eq_true_iff.mp hmay).1
  obtain ⟨hleft, hrest⟩ := List.nodup_cons.mp (hk ▸ hagrees.intake_nodup)
  have started : ({ s with requests := { s.requests with intake := rest, quotaCount := s.requests.quotaCount + 1 } } :
      State).RequestsWith (some k) := by
    refine ⟨⟨hrest, fun j => ?_, fun j hj => ?_, hagrees.table_nodup, hagrees.taken, hagrees.rebases, hagrees.limit_pos,
      hagrees.limit_le, ?_⟩, hout⟩
    · have posted := hagrees.posted j
      rw [hk] at posted
      simp only [List.mem_cons, reduceCtorEq, or_false] at posted
      rw [posted, Option.some.injEq, eq_comm (a := k), or_comm]
    · injection hj with hj
      exact hj ▸ hleft
    · have := hagrees.limit_le
      dsimp only
      omega
  unfold State.beginTake
  exact started.of_touches (State.checkWords_checked _ _).touches (by decide)

theorem take (row : Row) {carry : State → SlotId → State}
    (hcarry : ∀ (u : State) (k : SlotId), u.RequestsWith (some k) → (carry u k).RequestsWith none) :
    (s.take row carry).RequestsWith none :=
  State.take_keeps (P := fun u : State => u.RequestsWith none) _ (fun k _ hk hmay => hcarry _ k (hs.beginTake hk hmay)) hs

omit hs in
theorem of_reset (hu : ∃ timer, s.requests = { State.reset.requests with quotaTimer := timer }) (hr : s.regs = State.reset.regs) :
    s.RequestsWith none := by
  obtain ⟨timer, hu⟩ := hu
  unfold State.RequestsWith State.rebaseSlot
  rw [hu, hr]
  refine ⟨RequestUnit.agrees_of_empty rfl rfl (fun k => ?_) (fun p => ?_) ?_ ?_ ?_,
    fun e he => by cases he⟩
  · simp [State.reset, State.resetRequests]
  · simp [State.reset, State.resetRegisterSet]
  · exact (by decide : 1 ≤ State.reset.requests.quotaLimit)
  · exact (by decide : State.reset.requests.quotaLimit ≤ 32)
  · exact (by decide : State.reset.requests.quotaCount ≤ 32)

theorem commandEffect (c : Instr) : (commandEffect c s).RequestsWith none := by
  cases c
  case windowAddition b =>
    exact (requestsWith_keptByCloses none).windowAddition hs b fun u i q m x hu =>
      of_touches hu (u.addToSet_touches b i q m x) (by decide)
  case tariffEvent =>
    unfold Machine.commandEffect
    exact (requestsWith_keptByCloses none).tariffEvent hs
  case pointStep b =>
    unfold Machine.commandEffect State.pointStep
    dsimp only
    split
    · exact hs.stepEntry b _ _
    · exact hs
  case foldCompletion b =>
    unfold Machine.commandEffect State.foldCompletion
    dsimp only
    split
    · split
      · exact hs
      · exact hs.completeFold b _
    · exact hs
  case release => exact hs.release
  case hostWrite la data be => exact hs.hostWrite la data be
  case quotaTimerExpiry =>
    unfold Machine.commandEffect State.quotaExpiry
    dsimp only
    split
    · exact hs.refreshQuota
    · exact hs
  case badKind => exact hs.take _ fun _ _ hu => hu.refuse _
  case setPoint => exact hs.take _ fun _ _ hu => hu.takeSetPoint
  case setBank => exact hs.take _ fun _ _ hu => hu.takeSetBank
  case setTiming => exact hs.take _ fun _ _ hu => hu.takeSetTiming
  case start => exact hs.take _ fun _ _ hu => hu.takeStart
  case stop => exact hs.take _ fun _ _ hu => hu.takeStop
  case close => exact hs.take _ fun _ _ hu => hu.takeClose
  case readOpen => exact hs.take _ fun _ _ hu => hu.takeReadOpen
  case readRegisters => exact hs.take _ fun _ _ hu => hu.judgeRead _ hu.readQuantities
  case readRegistersNet => exact hs.take _ fun _ _ hu => hu.judgeRead _ hu.readNet
  case rebase => exact hs.take _ fun _ _ hu => hu.takeRebase
  case cancel => exact hs.take _ fun _ _ hu => hu.takeCancel
  case linkControlEnable => exact hs.take _ fun _ _ hu => hu.takeLink _
  case linkControlDisable => exact hs.take _ fun _ _ hu => hu.takeLink _
  case linkControlReset => exact hs.take _ fun _ _ hu => hu.takeLink _
  case linkControlClear => exact hs.take _ fun _ _ hu => hu.takeLink _
  case readCapture => exact hs.take _ fun _ _ hu => hu.takeReadCapture
  case readCaptureClear => exact hs.take _ fun _ _ hu => hu.takeReadCaptureClear
  case warmResetCompletion => exact hs.warmCompletion
  case coldReset => exact of_reset ⟨_, rfl⟩ rfl
  case ready =>
    unfold Machine.commandEffect
    dsimp only
    split
    · exact hs
    · exact of_reset ⟨_, rfl⟩ rfl
  all_goals exact hs.of_touches (commandEffect_touches _ s) (of_decide_eq_true rfl)

end State.RequestsWith

/-- Settles O11: within a take the slot in hand stands outside the intake queue, and every other change of the request unit
keeps it in agreement with the pending REBASEs. -/
theorem stepKeepsRequests : Obligations.StepKeepsRequests := fun s t hs hstep =>
  t.requestsOk_iff.mpr (step_keeps (fun u => u.RequestsWith none) (fun _ _ h => h) (fun c _ h => h.commandEffect c) s t
    (s.requestsOk_iff.mp hs) hstep)

end Sys2Proof.Machine
end

section
/-! SUPPORT. The cold-reset state, readiness, the register port and pushes. -/

namespace Sys2Proof.Machine

/-! ### The cold-reset state, element by element -/

theorem State.reset_links_getElem (l : LinkId) : State.reset.links[l] = State.resetReceiver := by simp [State.reset]

theorem State.reset_watches_getElem (p : PointId) : State.reset.watches[p] = ⟨0, true, none⟩ := by
  simp [State.reset, State.resetWatch]

theorem State.reset_profiles_getElem (p : PointId) : State.reset.profiles[p] = State.resetProfile := by simp [State.reset]

theorem State.reset_pages_getElem (p : PageId) : State.reset.writer.pages[p] = .free := by
  simp [State.reset, State.resetWriter]

theorem State.reset_slots_getElem (k : SlotId) : State.reset.requests.slots[k] = .free := by
  simp [State.reset, State.resetRequests]

theorem State.reset_records_getElem (i : Fin 64) : State.reset.exceptions.records[i] = State.resetRecord := by
  simp [State.reset]

theorem State.reset_banks_getElem (b : BankId) : State.reset.banks[b] = State.resetBank (decide (b = 0)) := by
  change ((Vector.replicate 8 (State.resetBank false)).set (0 : BankId) (State.resetBank true))[b] = _
  rw [getElem_fin_set]
  split
  next h => rw [decide_eq_true h]
  next h =>
    rw [decide_eq_false h]
    simp

theorem State.resetBank_sets_getElem (balance : Bool) (i : Fin 2) : (State.resetBank balance).sets[i] = State.zeroSet balance := by
  simp [State.resetBank]

theorem State.zeroSet_entries_getElem (balance : Bool) (e : Fin 5) : (State.zeroSet balance).entries[e] = State.zeroEntry := by
  simp [State.zeroSet]

theorem State.zeroSet_balance_eq (b : BankId) : (State.zeroSet (decide (b = 0))).balance =
    if b = 0 then some ⟨Vector.replicate 104 0, 0, 0, false⟩ else none := by
  unfold State.zeroSet
  by_cases h : b = 0
  · rw [if_pos h, decide_eq_true h]
    rfl
  · rw [if_neg h, decide_eq_false h]
    rfl

/-- Settles O3: a cold reset writes the reset value into every block. -/
theorem coldResetState : Obligations.ColdResetState := by
  intro s
  refine ⟨s.coldReset, exec_coldReset s, rfl, fun l => ?_, rfl, rfl, rfl, rfl, rfl, rfl, rfl, rfl, rfl, rfl, rfl, rfl, rfl,
    State.reset_watches_getElem, fun p => ?_, fun b => ?_, rfl, rfl, State.reset_pages_getElem, rfl, rfl, rfl, rfl, rfl, rfl,
    State.reset_slots_getElem, rfl, rfl, rfl, rfl, rfl, rfl, rfl, State.reset_records_getElem, rfl, rfl, rfl, rfl⟩
  · rw [show s.coldReset.links = State.reset.links from rfl, State.reset_links_getElem]
    exact ⟨rfl, rfl, rfl, rfl, rfl, rfl, rfl, rfl, rfl⟩
  · rw [show s.coldReset.profiles = State.reset.profiles from rfl, State.reset_profiles_getElem]
    exact ⟨rfl, rfl, rfl, rfl, rfl, rfl, rfl, rfl⟩
  · rw [show s.coldReset.banks = State.reset.banks from rfl, State.reset_banks_getElem]
    refine ⟨rfl, rfl, rfl, rfl, rfl, rfl, rfl, rfl, fun i => ?_⟩
    rw [State.resetBank_sets_getElem]
    refine ⟨rfl, rfl, rfl, rfl, rfl, State.zeroSet_balance_eq b, fun e => ?_⟩
    rw [State.zeroSet_entries_getElem]
    exact ⟨rfl, rfl, rfl, rfl, rfl, rfl, rfl⟩

/-- Settles O6. -/
theorem resetIsOk : Obligations.ResetIsOk :=
  ⟨State.memoryOk_of_empty rfl, State.linksOk_of_reset rfl, .of_reset rfl rfl, .of_reset rfl rfl,
    State.reset.requestsOk_iff.mpr (.of_reset ⟨_, rfl⟩ rfl), State.pagesOk_of_reset rfl, .of_reset rfl,
    State.stackOk_of_reset rfl, .of_reset rfl⟩

/-! ### Pushes -/

theorem State.push_notices (s : State) (k : ExceptionKind) (a b c d : Word) (v : Vector Word 8) :
    (s.push k a b c d v).notices = { s.notices with latched := s.notices.latched ||| Cause.exception.flag } := by
  unfold State.push
  dsimp only
  split
  · rfl
  · rfl

/-- The top record of a full stack counts the loss, and the others stay (R182). -/
theorem State.push_records_of_full (s : State) (k : ExceptionKind) (a b c d : Word) (v : Vector Word 8)
    (h : s.exceptions.top = 0) : (s.push k a b c d v).exceptions.records = s.exceptions.records.set (0 : Fin 64)
      { s.exceptions.records[(0 : Fin 64)] with
        lostAfter := if s.exceptions.records[(0 : Fin 64)].lostAfter = 65535 then 65535
          else s.exceptions.records[(0 : Fin 64)].lostAfter + 1 } := by
  unfold State.push
  dsimp only
  rw [dif_neg (by omega)]
  rfl

/-- Settles O48. -/
theorem pushIsStoredOrCounted : Obligations.PushIsStoredOrCounted := by
  intro s k a b c d v
  refine ⟨s.push_notices k a b c d v, fun n h => s.push_exceptions_of_room k a b c d v n h, fun h => ?_⟩
  obtain ⟨hlost, htop⟩ := s.push_exceptions_of_full k a b c d v h
  refine ⟨htop, hlost, ?_, fun i hi => ?_⟩
  · rw [s.push_records_of_full k a b c d v h, getElem_fin_set_self]
  · rw [s.push_records_of_full k a b c d v h, getElem_fin_set_of_ne _ _ hi]

/-! ### The words of the header page -/

theorem State.headerWord_link (s : State) (l : LinkId) : s.headerWord (8 + l.val) = s.links[l].mirrorWord := by
  have := l.isLt
  unfold State.headerWord
  simp (disch := omega) only [if_neg, if_pos]
  rw [Nat.add_sub_cancel_left, Vector.getElem?_eq_getElem l.isLt]
  rfl

theorem State.headerWord_bank (s : State) (b : BankId) {j : Nat} (hj : j < 4) :
    s.headerWord (16 + 4 * b.val + j) = s.banks[b].mirrorWord j := by
  have := b.isLt
  unfold State.headerWord
  simp (disch := omega) only [if_neg, if_pos]
  rw [show (16 + 4 * b.val + j - 16) / 4 = b.val by omega, show (16 + 4 * b.val + j - 16) % 4 = j by omega,
    Vector.getElem?_eq_getElem b.isLt]
  rfl

theorem State.headerWord_page (s : State) (p : PageId) : s.headerWord (64 + p.val) = s.writer.pages[p].code := by
  have := p.isLt
  unfold State.headerWord
  simp (disch := omega) only [if_neg, if_pos]
  rw [Nat.add_sub_cancel_left, Vector.getElem?_eq_getElem p.isLt]
  rfl

theorem State.headerWord_linkCounter (s : State) (l : LinkId) {j : Nat} (hj : j < 3) : s.headerWord (128 + 3 * l.val + j) =
    if j = 0 then s.links[l].good else if j = 1 then s.links[l].bad else s.links[l].lost := by
  have := l.isLt
  unfold State.headerWord
  simp (disch := omega) only [if_neg, if_pos]
  rw [show (128 + 3 * l.val + j - 128) / 3 = l.val by omega, show (128 + 3 * l.val + j - 128) % 3 = j by omega,
    Vector.getElem?_eq_getElem l.isLt]
  rfl

theorem State.headerWord_capture (s : State) {j : Nat} (hj : j < 4) : s.headerWord (52 + j) = captureWord s.capture j := by
  unfold State.headerWord
  simp (disch := omega) only [if_neg, if_pos]
  rw [Nat.add_sub_cancel_left]

/-- The words of the header page with no block's state in them, and those of a single register. -/
theorem State.headerWord_unused (s : State) {w : Nat}
    (h : w = 6 ∨ w = 7 ∨ w = 14 ∨ w = 15 ∨ w = 51 ∨ 56 ≤ w ∧ w < 64 ∨ 122 ≤ w ∧ w < 128 ∨ 161 ≤ w) :
    s.headerWord w = 0 := by
  unfold State.headerWord
  rcases h with rfl | rfl | rfl | rfl | rfl | h | h | h
  · rfl
  · rfl
  · rfl
  · rfl
  · rfl
  · simp (disch := omega) only [if_neg, if_pos]
  · simp (disch := omega) only [if_neg, if_pos]
  · simp (disch := omega) only [if_neg]

/-! ### Readiness -/

/-- The header page depends on the blocks whose words it holds. -/
theorem State.headerWord_congr {s t : State} (hl : t.links = s.links) (hb : t.banks = s.banks) (hw : t.writer = s.writer)
    (he : t.exceptions = s.exceptions) (hc : t.capture = s.capture) (hs : t.sorter = s.sorter)
    (hbc : t.bankCounters = s.bankCounters) (hwc : t.watchCounters = s.watchCounters) (w : Nat) :
    t.headerWord w = s.headerWord w := by
  unfold State.headerWord
  rw [hl, hb, hw, he, hc, hs, hbc, hwc]

theorem State.becomeReady_headerWord (s : State) (w : Nat) : s.becomeReady.headerWord w = State.reset.headerWord w :=
  State.headerWord_congr rfl rfl rfl rfl rfl rfl rfl rfl w

/-- No cause is latched after cold reset. -/
theorem State.becomeReady_lwnote (s : State) : s.becomeReady.lwnote = 0 := by
  unfold State.lwnote
  rw [show s.becomeReady.notices = State.reset.notices from rfl, show s.becomeReady.control.ready = true from rfl]
  decide

/-- The header page that READY shows (spec 11.6). -/
def initialHeader (w : Nat) : Word :=
  if w = 0 then 1 else if w = 1 then 40 else if w = 2 then 6 else if w = 3 then 32 else if w = 4 then 58
  else if w = 5 then 64 else if w = 48 then 58 else if w = 50 then 4096 else if w = 54 then 0xFFFFFFFF else 0

theorem initialHeader_eq_zero {w : Nat} (h : 6 ≤ w) (h48 : w ≠ 48) (h50 : w ≠ 50) (h54 : w ≠ 54) : initialHeader w = 0 := by
  unfold initialHeader
  simp (disch := omega) only [if_neg]

/-- Single words of the header page after cold reset. -/
theorem State.reset_headerWord_single {w : Nat} (h : w < 6 ∨ w = 48 ∨ w = 49 ∨ w = 50 ∨ w = 52 ∨ w = 53 ∨ w = 54 ∨ w = 55) :
    State.reset.headerWord w = initialHeader w := by
  rcases h with h | rfl | rfl | rfl | rfl | rfl | rfl | rfl
  · interval_cases w
    · rfl
    · rfl
    · rfl
    · rfl
    · rfl
    · rfl
  all_goals rfl

theorem State.reset_headerWord_counter {w : Nat} (hlow : 146 ≤ w) (hhigh : w < 161) : State.reset.headerWord w = 0 := by
  obtain ⟨j, hj, rfl⟩ : ∃ j, j < 15 ∧ w = 146 + j := ⟨w - 146, by omega, by omega⟩
  have counters : ∀ i : Fin 15, State.reset.headerWord (146 + i.val) = 0 := by decide
  exact counters ⟨j, hj⟩

theorem State.reset_bank_mirrorWord (b : BankId) {j : Nat} (hj : j < 4) : State.reset.banks[b].mirrorWord j = 0 := by
  rw [State.reset_banks_getElem]
  have words : ∀ i : Fin 4, ∀ balance, (State.resetBank balance).mirrorWord i.val = 0 := by
    intro i balance
    fin_cases i
    · rfl
    · rfl
    · rfl
    · rfl
  exact words ⟨j, hj⟩ _

theorem State.reset_headerWord (w : Nat) : State.reset.headerWord w = initialHeader w := by
  have regions : (w < 6 ∨ w = 48 ∨ w = 49 ∨ w = 50 ∨ w = 52 ∨ w = 53 ∨ w = 54 ∨ w = 55) ∨
      (w = 6 ∨ w = 7 ∨ w = 14 ∨ w = 15 ∨ w = 51 ∨ 56 ≤ w ∧ w < 64 ∨ 122 ≤ w ∧ w < 128 ∨ 161 ≤ w) ∨
      8 ≤ w ∧ w < 14 ∨ 16 ≤ w ∧ w < 48 ∨ 64 ≤ w ∧ w < 122 ∨ 128 ≤ w ∧ w < 146 ∨ 146 ≤ w ∧ w < 161 := by omega
  rcases regions with h | h
  · exact State.reset_headerWord_single h
  · rw [initialHeader_eq_zero (by omega) (by omega) (by omega) (by omega)]
    rcases h with h | h | h | h | h | h
    · exact State.headerWord_unused _ h
    · obtain ⟨l, rfl⟩ : ∃ l : LinkId, w = 8 + l.val := ⟨⟨w - 8, by omega⟩, by dsimp only; omega⟩
      rw [State.headerWord_link, State.reset_links_getElem]
      rfl
    · obtain ⟨b, j, hj, rfl⟩ : ∃ (b : BankId) (j : Nat), j < 4 ∧ w = 16 + 4 * b.val + j :=
        ⟨⟨(w - 16) / 4, by omega⟩, (w - 16) % 4, by omega, by dsimp only; omega⟩
      rw [State.headerWord_bank _ b hj, State.reset_bank_mirrorWord b hj]
    · obtain ⟨p, rfl⟩ : ∃ p : PageId, w = 64 + p.val := ⟨⟨w - 64, by omega⟩, by dsimp only; omega⟩
      rw [State.headerWord_page, State.reset_pages_getElem]
      rfl
    · obtain ⟨l, j, hj, rfl⟩ : ∃ (l : LinkId) (j : Nat), j < 3 ∧ w = 128 + 3 * l.val + j :=
        ⟨⟨(w - 128) / 3, by omega⟩, (w - 128) % 3, by omega, by dsimp only; omega⟩
      rw [State.headerWord_linkCounter _ l hj, State.reset_links_getElem]
      split
      · rfl
      · split
        · rfl
        · rfl
    · exact State.reset_headerWord_counter h.1 h.2

theorem resetRecord_word (j : Nat) : State.resetRecord.word j = 0 := by
  have copy (i : Nat) : (match State.resetRecord.copy[i]? with
      | some w => w
      | none => 0) = 0 := by
    split
    next w hw =>
      obtain ⟨hlt, hw⟩ := Vector.getElem?_eq_some_iff.mp hw
      rw [← hw]
      simp [State.resetRecord]
    · rfl
  unfold ExceptionRecord.word
  split
  case h_9 => exact copy _
  all_goals rfl

theorem Memory.word_nil (a : Nat) : Memory.word [] a = 0 := rfl

/-- The words of exchange memory when READY becomes 1 (R141). -/
theorem State.becomeReady_wordAsRead (s : State) (w : Nat) : s.becomeReady.wordAsRead w = initialHeader w := by
  have clean : s.becomeReady.wordAsRead w = s.becomeReady.word w := rfl
  have unlisted : s.becomeReady.mem.word (4 * w) = 0 := Memory.word_nil _
  rw [clean]
  unfold State.word State.imageWord
  rw [unlisted]
  by_cases h1 : w < 1024
  · rw [if_pos h1, State.becomeReady_headerWord, State.reset_headerWord]
    rfl
  · rw [if_neg h1, initialHeader_eq_zero (by omega) (by omega) (by omega) (by omega)]
    by_cases h2 : w < 5120
    · rw [if_pos h2]
      split
      · have slot : s.becomeReady.requests.slots[(w - 1024) / 128]? = some .free := by
          rw [Vector.getElem?_eq_getElem (by omega)]
          exact congrArg some (State.reset_slots_getElem ⟨(w - 1024) / 128, by omega⟩)
        rw [slot]
        rfl
      · rfl
    · rw [if_neg h2]
      split
      · have record : s.becomeReady.exceptions.records[(w - 5120) / 16]? = some State.resetRecord := by
          rw [Vector.getElem?_eq_getElem (by omega)]
          exact congrArg some (State.reset_records_getElem ⟨(w - 5120) / 16, by omega⟩)
        rw [record, Option.map_some, Option.getD_some, resetRecord_word]
      · rfl

/-- Settles O5. -/
theorem readinessAndInitialMemory : Obligations.ReadinessAndInitialMemory := by
  refine ⟨fun s hs => ⟨fun c hready hcold hread => ?_, fun la => ?_, fun la => rfl⟩, fun s hs => ?_⟩
  · have held : Instr.beforeReady c = false := by
      cases c
      case hostRead r la => exact absurd rfl (hread r la)
      case coldReset => exact absurd rfl hcold
      case ready => exact absurd rfl hready
      all_goals rfl
    rw [exec_eq_commandEffect, if_neg (by simp [held, hs])]
  · change execHostRead false la s = _
    unfold execHostRead State.hostRead
    rw [if_neg (by decide), if_neg (by simp [hs])]
  · refine ⟨s.becomeReady, exec_ready_of_not_ready hs, rfl, rfl, ?_, ?_, rfl, fun w _ => s.becomeReady_wordAsRead w⟩
    · exact s.becomeReady_lwnote
    · unfold State.noteAsserted
      rw [s.becomeReady_lwnote]
      rfl

end Sys2Proof.Machine
end

section
/-! SUPPORT. The register port, the notices, and what a host read drives. -/

namespace Sys2Proof.Machine

/-! ### The bits of a register -/

/-- The bits of a register made of eight low bits and a field of six at bit 8 (spec 11.7). -/
theorem getLsbD_register (low : Nat) (hlow : low < 256) (m : BitVec 6) (i : Nat) (hi : i < 32) :
    (BitVec.ofNat 32 (low + 256 * m.toNat)).getLsbD i = if i < 8 then low.testBit i else m.getLsbD (i - 8) := by
  have split := Nat.testBit_two_pow_mul_add m.toNat (b := low) (i := 8) hlow i
  rw [show 2 ^ 8 * m.toNat + low = low + 256 * m.toNat by omega] at split
  rw [BitVec.getLsbD_ofNat, split]
  simp [hi, BitVec.getLsbD]

theorem State.lwctl_getLsbD (s : State) (i : Nat) (hi : i < 32) : s.lwctl.getLsbD i =
    if i = 0 then s.control.run else if i = 1 then s.control.warm
    else if 8 ≤ i ∧ i ≤ 13 then s.notices.mask.getLsbD (i - 8) else false := by
  have low : ∀ run warm : Bool, bit run + 2 * bit warm < 256 ∧ ∀ j : Fin 8, (bit run + 2 * bit warm).testBit j.val =
      if j.val = 0 then run else if j.val = 1 then warm else false := by decide
  obtain ⟨hlt, hbits⟩ := low s.control.run s.control.warm
  unfold State.lwctl
  rw [getLsbD_register _ hlt _ i hi]
  by_cases h : i < 8
  · rw [if_pos h, hbits ⟨i, h⟩]
    simp only [show ¬(8 ≤ i ∧ i ≤ 13) by omega, if_false]
  · rw [if_neg h, if_neg (by omega), if_neg (by omega)]
    split
    · rfl
    · exact BitVec.getLsbD_of_ge _ _ (by omega)

theorem State.lwstat_getLsbD (s : State) (i : Nat) (hi : i < 32) : s.lwstat.getLsbD i =
    if i = 0 then s.control.ready else if i = 1 then s.control.warm else if i = 2 then s.notices.owner
    else if 8 ≤ i ∧ i ≤ 13 then s.notices.latched.getLsbD (i - 8) else false := by
  have low : ∀ ready warm owner : Bool, bit ready + 2 * bit warm + 4 * bit owner < 256 ∧
      ∀ j : Fin 8, (bit ready + 2 * bit warm + 4 * bit owner).testBit j.val =
        if j.val = 0 then ready else if j.val = 1 then warm else if j.val = 2 then owner else false := by decide
  obtain ⟨hlt, hbits⟩ := low s.control.ready s.control.warm s.notices.owner
  unfold State.lwstat
  rw [getLsbD_register _ hlt _ i hi]
  by_cases h : i < 8
  · rw [if_pos h, hbits ⟨i, h⟩]
    simp only [show ¬(8 ≤ i ∧ i ≤ 13) by omega, if_false]
  · rw [if_neg h, if_neg (by omega), if_neg (by omega), if_neg (by omega)]
    split
    · rfl
    · exact BitVec.getLsbD_of_ge _ _ (by omega)

/-! ### LWNOTE -/

/-- A cause is latched and enabled. -/
def State.notified (s : State) (c : Fin 6) : Bool := s.notices.latched.getLsbD c.val && s.notices.mask.getLsbD c.val

theorem State.lwnote_of_not_ready {s : State} (h : s.control.ready = false) : s.lwnote = 0 := by
  unfold State.lwnote
  rw [if_neg (by simp [h])]

theorem State.lwnote_of_ready {s : State} (h : s.control.ready = true) :
    s.lwnote = ((List.finRange 6).find? s.notified).elim 0 fun i => i.val + 1 := by
  have same : (fun i : Fin 6 => (s.notices.latched &&& s.notices.mask).getLsbD i.val) = s.notified :=
    funext fun i => BitVec.getLsbD_and
  unfold State.lwnote
  rw [if_pos h, same]
  cases (List.finRange 6).find? s.notified with
  | none => rfl
  | some i => rfl

theorem State.lwnote_of_none {s : State} (h : ∀ c, s.notified c = false) : s.lwnote = 0 := by
  cases hr : s.control.ready with
  | false => exact State.lwnote_of_not_ready hr
  | true =>
    have none : (List.finRange 6).find? s.notified = none := List.find?_eq_none.mpr fun c _ => by simp [h c]
    rw [State.lwnote_of_ready hr, none, Option.elim_none]

/-- The lowest code latched and enabled (R189). -/
theorem State.lwnote_of_lowest {s : State} (hr : s.control.ready = true) {c : Fin 6} (hc : s.notified c = true)
    (hlow : ∀ d, d < c → s.notified d = false) : s.lwnote = c.val + 1 := by
  have found : (List.finRange 6).find? s.notified = some c := by
    cases hf : (List.finRange 6).find? s.notified with
    | none => exact absurd hc (List.find?_eq_none.mp hf c (List.mem_finRange c))
    | some d =>
      rcases lt_trichotomy d c with h | h | h
      · have := List.find?_some hf
        rw [hlow d h] at this
        cases this
      · rw [h]
      · obtain ⟨-, as, bs, heq, hbefore⟩ := List.find?_eq_some_iff_append.mp hf
        have sorted : (as ++ d :: bs).Pairwise (· < ·) := heq ▸ List.pairwise_lt_finRange 6
        have mem : c ∈ as ++ d :: bs := heq ▸ List.mem_finRange c
        rcases List.mem_append.mp mem with hmem | hmem
        · have := hbefore c hmem
          rw [hc] at this
          cases this
        · rcases List.mem_cons.mp hmem with rfl | hmem
          · exact absurd h (lt_irrefl _)
          · have := (List.pairwise_cons.mp (List.pairwise_append.mp sorted).2.1).1 c hmem
            exact absurd h (lt_asymm this)
  rw [State.lwnote_of_ready hr, found, Option.elim_some]

theorem State.lwnote_le (s : State) : s.lwnote ≤ 6 := by
  cases hr : s.control.ready with
  | false =>
    rw [State.lwnote_of_not_ready hr]
    decide
  | true =>
    rw [State.lwnote_of_ready hr]
    cases (List.finRange 6).find? s.notified with
    | none => exact Nat.zero_le 6
    | some i => exact i.isLt

theorem State.noteAsserted_iff (s : State) : s.noteAsserted = true ↔ BitVec.ofNat 32 s.lwnote ≠ 0 := by
  have hle := s.lwnote_le
  unfold State.noteAsserted
  rw [bne_iff_ne, ne_eq, ne_eq, not_iff_not]
  constructor
  · intro h
    rw [h]
    rfl
  · intro h
    have := congrArg BitVec.toNat h
    rw [BitVec.toNat_ofNat, Nat.mod_eq_of_lt (by omega)] at this
    exact this

/-! ### Reads and writes of the port -/

theorem registerSelect_toNat (la : BitVec 16) : (la.setWidth 2 : BitVec 2).toNat = la.toNat % 4 := by
  rw [BitVec.toNat_setWidth]

theorem State.readRegister_lwid (s : State) {la : BitVec 16} (h : la.toNat % 4 = 0) : s.readRegister la = Config.lwid := by
  unfold State.readRegister
  simp only [registerSelect_toNat, h]

theorem State.readRegister_lwctl (s : State) {la : BitVec 16} (h : la.toNat % 4 = 1) : s.readRegister la = s.lwctl := by
  unfold State.readRegister
  simp only [registerSelect_toNat, h]

theorem State.readRegister_lwstat (s : State) {la : BitVec 16} (h : la.toNat % 4 = 2) : s.readRegister la = s.lwstat := by
  unfold State.readRegister
  simp only [registerSelect_toNat, h]

theorem State.readRegister_lwnote (s : State) {la : BitVec 16} (h : la.toNat % 4 = 3) :
    s.readRegister la = BitVec.ofNat 32 s.lwnote := by
  unfold State.readRegister
  simp only [registerSelect_toNat, h]

theorem State.writeControl_eq (s : State) (data : Word) (be : BitVec 4) : s.writeControl data be = { s with
    control := { s.control with
      run := if be.getLsbD 0 = true then data.getLsbD 0 else s.control.run
      warm := if be.getLsbD 0 = true ∧ data.getLsbD 1 = true then true else s.control.warm }
    notices := { s.notices with mask := if be.getLsbD 1 = true then data.extractLsb' 8 6 else s.notices.mask } } := by
  have warm : (s.control.warm || (be.getLsbD 0 && data.getLsbD 1)) =
      if be.getLsbD 0 = true ∧ data.getLsbD 1 = true then true else s.control.warm := by
    cases be.getLsbD 0 <;> cases data.getLsbD 1 <;> simp
  unfold State.writeControl
  rw [warm]

theorem State.clearStatus_eq (s : State) (data : Word) (be : BitVec 4) : s.clearStatus data be = { s with
    notices := { s.notices with
      latched := if be.getLsbD 1 = true then s.notices.latched &&& ~~~(data.extractLsb' 8 6) else s.notices.latched
      owner := if be.getLsbD 0 = true ∧ data.getLsbD 2 = true then false else s.notices.owner } } := by
  unfold State.clearStatus
  simp only [Bool.and_eq_true]

theorem State.writeRegister_of_ignored (s : State) {la : BitVec 16} (h : la.toNat % 4 = 0 ∨ la.toNat % 4 = 3) (data : Word)
    (be : BitVec 4) : s.writeRegister la data be = s := by
  unfold State.writeRegister registerWord
  rcases h with h | h
  · simp only [registerSelect_toNat, h]
  · simp only [registerSelect_toNat, h]

/-- Settles O59. -/
theorem registerPortAndNotices : Obligations.RegisterPortAndNotices := by
  refine ⟨fun s data be c hr => ⟨?_, ?_, fun la h => ?_⟩, fun s la => ⟨s.readRegister la, rfl, ?_, ?_, ?_, ?_⟩⟩
  · rintro (rfl | rfl | rfl)
    all_goals
      rw [exec_of_ready _ hr]
      exact congrArg _ (s.writeControl_eq data be)
  · rw [exec_of_ready _ hr]
    exact congrArg _ (s.clearStatus_eq data be)
  · rw [exec_of_ready _ hr]
    exact congrArg _ (s.writeRegister_of_ignored h data be)
  · exact s.readRegister_lwid
  · intro h i hi
    rw [s.readRegister_lwctl h]
    exact s.lwctl_getLsbD i hi
  · intro h i hi
    rw [s.readRegister_lwstat h]
    exact s.lwstat_getLsbD i hi
  · intro h
    rw [s.readRegister_lwnote h]
    refine ⟨s.noteAsserted_iff, fun hr => ?_, fun hnone => ?_, fun c hr hc hlow => ?_⟩
    · rw [State.lwnote_of_not_ready hr]
      rfl
    · rw [State.lwnote_of_none hnone]
      rfl
    · rw [State.lwnote_of_lowest hr hc hlow]

/-! ### Host reads -/

theorem State.hostRead_exchange {s : State} (hr : s.control.ready = true) (la : BitVec 16) :
    s.hostRead false la = { s.checkWord la.toNat with ld := s.wordAsRead la.toNat } := by
  unfold State.hostRead
  rw [if_neg (by decide), if_pos hr]

theorem State.checkWord_of_single {s : State} {w : Nat} (h : s.ecc.exchange.lookup w = some .single) :
    s.checkWord w = (s.wordsWritten w (w + 1)).countCorrected := by
  unfold State.checkWord
  rw [h]

theorem State.checkWord_of_uncorrectable {s : State} {w : Nat} {v : Word} (h : s.ecc.exchange.lookup w = some (.uncorrectable v)) :
    s.checkWord w = s.report .exchange (BitVec.ofNat 32 (4 * w)) := by
  unfold State.checkWord
  rw [h]

theorem State.report_of_empty {s : State} (h : s.capture = none) (st : Store) (v : Word) :
    s.report st v = (s.putCapture (some ⟨st, v, s.sorter.lastHanded, 0⟩)).latch .capture := by
  unfold State.report
  rw [h]

theorem State.report_of_frozen {s : State} {c : Capture} (h : s.capture = some c) (st : Store) (v : Word) :
    s.report st v = s.putCapture (some { c with second := if c.second < 255 then c.second + 1 else 255 }) := by
  unfold State.report
  rw [h]

theorem State.latch_latched (s : State) (c : Cause) : (s.latch c).latched c = true := by
  unfold State.latched State.latch
  dsimp only
  rw [BitVec.getLsbD_or]
  have flag : c.flag.getLsbD c.index.val = true := by
    cases c <;> rfl
  rw [flag, Bool.or_true]

/-- A count that stops at 255 (R191). -/
theorem second_eq_min (n : Nat) : (if n < 255 then n + 1 else 255) = min (n + 1) 255 := by
  split
  · omega
  · omega

theorem State.word_header {s : State} {w : Nat} (h : w < 1024) : s.word w = s.headerWord w := by
  unfold State.word State.imageWord
  rw [if_pos h]
  rfl

theorem State.word_slotTag (s : State) (k : SlotId) : s.word (1024 + 128 * k.val) = s.requests.slots[k].code := by
  have := k.isLt
  unfold State.word State.imageWord
  rw [if_neg (by omega), if_pos (by omega), if_pos (by omega), show (1024 + 128 * k.val - 1024) / 128 = k.val by omega,
    Vector.getElem?_eq_getElem k.isLt]
  rfl

theorem State.word_recordTag (s : State) (i : Fin 64) : s.word (5120 + 16 * i.val) = s.exceptions.records[i].tag.code := by
  have := i.isLt
  unfold State.word State.imageWord
  rw [if_neg (by omega), if_neg (by omega), if_pos (by omega), show (5120 + 16 * i.val - 5120) / 16 = i.val by omega,
    show (5120 + 16 * i.val - 5120) % 16 = 0 by omega, Vector.getElem?_eq_getElem i.isLt]
  rfl

theorem State.word_bankMirror (s : State) (b : BankId) {j : Nat} (hj : j < 4) :
    s.word (16 + 4 * b.val + j) = s.banks[b].mirrorWord j := by
  have := b.isLt
  rw [State.word_header (by omega), s.headerWord_bank b hj]

theorem State.word_linkCounter (s : State) (l : LinkId) {j : Nat} (hj : j < 3) : s.word (128 + 3 * l.val + j) =
    if j = 0 then s.links[l].good else if j = 1 then s.links[l].bad else s.links[l].lost := by
  have := l.isLt
  rw [State.word_header (by omega), s.headerWord_linkCounter l hj]

/-- The counters of the header page from word 146 on, in their order (spec 11.6). -/
theorem State.word_counters (s : State) : (List.range 15).map (fun j => s.word (146 + j)) =
    [s.sorter.late, s.sorter.duplicate, s.sorter.unmapped, s.sorter.unexpected, s.sorter.halted, s.sorter.discarded,
      s.bankCounters.accounted, s.bankCounters.missing, s.bankCounters.ignoredTariff, s.bankCounters.notAccounted,
      s.writer.lost, s.exceptions.lost, s.watchCounters.owner, s.watchCounters.tag, s.watchCounters.corrected] := rfl

/-- Settles O46. -/
theorem hostReadReturnsWordAndImages : Obligations.HostReadReturnsWordAndImages := by
  intro s la hr
  have read : exec (.hostRead false la) s = .next { s.checkWord la.toNat with ld := s.wordAsRead la.toNat } :=
    (exec_of_ready _ hr).trans (congrArg _ (State.hostRead_exchange hr la))
  refine ⟨fun h => ?_, fun h => ⟨_, read, ?_⟩, fun v h => ⟨_, read, ?_⟩, rfl, fun l => ?_, fun b => ?_, rfl, fun f hf => ?_,
    fun hf => ?_, rfl, fun c hc => ?_, fun hc => ?_, fun p => ?_, s.word_counters, s.word_slotTag, s.word_recordTag⟩
  · rw [read, State.checkWord_of_clean h]
    unfold State.wordAsRead
    rw [h]
  · rw [State.checkWord_of_single h]
    refine ⟨?_, rfl, ?_, rfl, rfl⟩
    · unfold State.wordAsRead
      rw [h]
    · unfold State.countCorrected State.putWatchCounters
      dsimp only
      rw [State.rewrite_lookup]
      split
      · exact (s.wordsWritten_lookup _ _ _).trans (if_pos ⟨Nat.le_refl _, Nat.lt_succ_self _⟩)
      · rfl
  · rw [State.checkWord_of_uncorrectable h]
    have ld : s.wordAsRead la.toNat = v := by
      unfold State.wordAsRead
      rw [h]
    cases hc : s.capture with
    | none =>
      rw [State.report_of_empty hc]
      exact ⟨ld, rfl, rfl, fun _ => ⟨rfl, State.latch_latched _ _⟩, fun c hc => by cases hc⟩
    | some c =>
      rw [State.report_of_frozen hc, second_eq_min]
      exact ⟨ld, rfl, rfl, fun hc => (by cases hc), fun d hd => by cases hd; exact ⟨rfl, rfl⟩⟩
  · have := l.isLt
    refine ⟨?_, s.word_linkCounter l (j := 0) (by decide), ?_, ?_⟩
    · rw [State.word_header (by omega), s.headerWord_link l]
      rfl
    · rw [show 129 + 3 * l.val = 128 + 3 * l.val + 1 by omega, s.word_linkCounter l (by decide)]
      rfl
    · rw [show 130 + 3 * l.val = 128 + 3 * l.val + 2 by omega, s.word_linkCounter l (by decide)]
      rfl
  · have third : s.word (18 + 4 * b.val) = s.banks[b].mirrorWord 2 := by
      rw [show 18 + 4 * b.val = 16 + 4 * b.val + 2 by omega, s.word_bankMirror b (by decide)]
    have fourth : s.word (19 + 4 * b.val) = s.banks[b].mirrorWord 3 := by
      rw [show 19 + 4 * b.val = 16 + 4 * b.val + 3 by omega, s.word_bankMirror b (by decide)]
    refine ⟨s.word_bankMirror b (j := 0) (by decide), ?_, fun a ha => ?_, fun ha => ?_, fun h hh => ?_, fun hh => ?_⟩
    · rw [show 17 + 4 * b.val = 16 + 4 * b.val + 1 by omega, s.word_bankMirror b (by decide)]
      rfl
    · rw [third]
      simp only [Bank.mirrorWord, ha]
    · rw [third]
      simp only [Bank.mirrorWord, ha]
    · rw [fourth]
      simp only [Bank.mirrorWord, hh]
    · rw [fourth]
      simp only [Bank.mirrorWord, hh]
  · rw [State.word_header (by decide)]
    unfold State.headerWord
    simp (disch := omega) only [if_neg, if_pos, if_true, hf]
  · rw [State.word_header (by decide)]
    unfold State.headerWord
    simp (disch := omega) only [if_neg, if_pos, if_true, hf]
  · have words (j : Nat) (hj : j < 4) : s.word (52 + j) = captureWord (some c) j := by
      rw [State.word_header (by omega), s.headerWord_capture hj, hc]
    exact ⟨words 0 (by decide), words 1 (by decide), words 2 (by decide), words 3 (by decide)⟩
  · have words (j : Nat) (hj : j < 4) : s.word (52 + j) = captureWord none j := by
      rw [State.word_header (by omega), s.headerWord_capture hj, hc]
    exact ⟨words 0 (by decide), words 1 (by decide), words 2 (by decide), words 3 (by decide)⟩
  · have := p.isLt
    rw [State.word_header (by omega), s.headerWord_page p]

end Sys2Proof.Machine
end

section
/-! SUPPORT. The capture record through every command, and the frames of the link and sorter events. -/

namespace Sys2Proof.Machine

/-! ### The capture record -/

theorem State.loseReg_touches (s : State) (p : SetId) (it : RegItem) :
    s.Touches (.regs :: .registerMarks :: Part.ofEndDeferred) (s.loseReg p it) := by
  have lost (u : State) (r : RegisterSet) (which : RegItem → Bool) :
      u.Touches (.regs :: .registerMarks :: Part.ofEndDeferred) ((u.putRegs p r).regWritten p which) :=
    (u.putRegs_touches p r).seq (State.regWritten_touches _ p which) (by decide) (by decide)
  have withdrawn : s.Touches (.regs :: .registerMarks :: Part.ofEndDeferred) (s.loseRebase p) := by
    unfold State.loseRebase
    split
    · exact (s.putRegs_touches p _).seq (State.endDeferred_touches _ _ _ _ _ _ _ _) (by decide) (by decide)
    · exact .refl s _
  unfold State.loseReg
  cases it with
  | rebase => exact withdrawn.trans ((State.regWritten_touches _ p _).mono (by decide))
  | register q => exact lost s _ _
  | residue q => exact lost s _ _
  | state q => exact lost s _ _
  | scale => exact lost s _ _
  | staged => exact lost s _ _
  | lastFolded => exact lost s _ _

/-- The capture record is a frozen one with its second-fault count raised, at most to 255. -/
def State.StillFrozen (x : Capture) (s : State) : Prop := ∃ n, x.second ≤ n ∧ n ≤ 255 ∧ s.capture = some { x with second := n }

namespace State.StillFrozen

variable {x : Capture} {s t : State}

theorem of_touches (hs : s.StillFrozen x) {ps : List Part} (h : s.Touches ps t) (hp : Part.capture ∉ ps) : t.StillFrozen x := by
  unfold State.StillFrozen
  rw [h.capture hp]
  exact hs

variable (hs : s.StillFrozen x)

include hs

theorem report (st : Store) (v : Word) : (s.report st v).StillFrozen x := by
  obtain ⟨n, hlow, hhigh, hc⟩ := hs
  rw [State.report_of_frozen hc, second_eq_min]
  exact ⟨min (n + 1) 255, by omega, by omega, rfl⟩

theorem checkWord (w : Nat) : (s.checkWord w).StillFrozen x := by
  unfold State.checkWord
  split
  · exact hs
  · exact hs
  · exact hs.report _ _

theorem checkWords (ws : List Nat) : (s.checkWords ws).StillFrozen x := by
  unfold State.checkWords
  exact foldl_keeps (P := State.StillFrozen x) ws (fun _ w _ hu => hu.checkWord w) hs

theorem checkAccs (b : BankId) (i : Fin 2) (items : List AccItem) : (s.checkAccs b i items).StillFrozen x := by
  have one (u : State) (hu : u.StillFrozen x) (w : AccWord) : (u.checkAcc w).StillFrozen x := by
    unfold State.checkAcc
    split
    · exact hu
    · exact hu
    · exact hu.report _ _
  unfold State.checkAccs
  exact foldl_keeps (P := State.StillFrozen x) items (fun u it _ hu => one u hu _) hs

theorem checkReg (p : SetId) (it : RegItem) : (s.checkReg p it).StillFrozen x := by
  unfold State.checkReg
  split
  · exact hs
  · exact hs
  · exact (hs.report _ _).of_touches (State.loseReg_touches _ p it) (by decide)

theorem checkRegs (p : SetId) (items : List RegItem) : (s.checkRegs p items).StillFrozen x := by
  unfold State.checkRegs
  exact foldl_keeps (P := State.StillFrozen x) items (fun _ it _ hu => hu.checkReg p it) hs

theorem copyBlock (w : Nat) : (s.copyBlock w).2.StillFrozen x := by
  have read : ∀ (js : List Nat) (acc : List Word × State), acc.2.StillFrozen x →
      (js.foldl (fun (acc : List Word × State) j =>
        (acc.1 ++ [acc.2.wordAsRead (w + j)], acc.2.checkWord (w + j))) acc).2.StillFrozen x := by
    intro js
    induction js with
    | nil => exact fun _ h => h
    | cons j js ih => exact fun acc h => ih _ (h.checkWord _)
  exact read _ _ hs

theorem addToSet (b : BankId) (a : Fin 2) (q : Seq16) (m : Nat) (c : Calculation) : (s.addToSet b a q m c).StillFrozen x := by
  unfold State.addToSet
  dsimp only
  refine of_touches ?_ (State.wordsWritten_touches _ _ _) (by decide)
  refine of_touches ?_ (State.putBank_touches _ b _) (by decide)
  exact (hs.checkAccs b a _).checkAccs b a _

/-! ### A point step -/

theorem stepEntry (b : BankId) (f : Fold) (e : Fin 6) : (s.stepEntry b f e).StillFrozen x := by
  have read : (s.stepReads b f.set e).StillFrozen x := by
    unfold State.stepReads
    exact ((hs.checkRegs _ _).checkRegs _ _).checkAccs b _ _
  have recorded (u : State) (hu : u.StillFrozen x) (rebased : Bool) : (u.stepRecord b e f rebased).StillFrozen x := by
    unfold State.stepRecord
    split
    · exact (hu.checkAccs b _ _).of_touches (State.writeRecord_recordEffect _ b _ _).touches (by decide)
    · exact hu
  unfold State.stepEntry
  refine of_touches ?_ (State.putFold_touches _ b _) (by decide)
  refine of_touches ?_ (State.stepInterval_touches _ _ _) (by decide)
  refine recorded _ ?_ _
  refine of_touches ?_ (State.stepSettle_touches _ _ _ _) (by decide)
  exact read.of_touches (State.stepScale_touches _ _ _) (by decide)

/-! ### Host accesses -/

theorem legalChange {g : Guarded} {v : Word} {u : State} (h : s.legalChange g v = some u) : u.StillFrozen x := by
  unfold State.legalChange at h
  cases g with
  | slot k =>
    dsimp only at h
    split at h
    · injection h with h
      subst h
      exact hs
    · split at h
      · injection h with h
        subst h
        exact hs
      · exact absurd h (by simp)
  | page p =>
    dsimp only at h
    split at h
    · injection h with h
      subst h
      exact hs
    · exact absurd h (by simp)
  | record i =>
    dsimp only at h
    split at h
    · injection h with h
      subst h
      exact hs
    · exact absurd h (by simp)

theorem hostWrite (la : BitVec 16) (data : Word) (be : BitVec 4) : (s.hostWrite la data be).StillFrozen x := by
  have tag (g : Guarded) : (s.tagViolation g la data be).StillFrozen x := by
    unfold State.tagViolation
    dsimp only
    have counted : (s.putWatchCounters { s.watchCounters with tag := s.watchCounters.tag + 1 }).StillFrozen x := hs
    exact (counted.copyBlock _).of_touches (State.push_pushed _ _ _ _ _ _ _).touches (by decide)
  unfold State.hostWrite
  split
  · exact hs
  · split
    · unfold State.guardedWrite
      split
      · exact tag _
      · split
        · exact hs
        · split
          next hu => exact hs.legalChange hu
          · exact tag _
    · split
      · unfold State.storeWord
        split
        · exact hs
        · exact hs.checkWord _
      · have counted : ({ s.putWatchCounters { s.watchCounters with owner := s.watchCounters.owner + 1 } with
            notices := { s.notices with owner := true } } : State).StillFrozen x := hs
        unfold State.ownerViolation
        dsimp only
        split
        · exact (counted.copyBlock _).of_touches (State.push_pushed _ _ _ _ _ _ _).touches (by decide)
        · exact counted

end State.StillFrozen

theorem State.stillFrozen_keptByCloses (x : Capture) : KeptByCloses (State.StillFrozen x) [.capture] where
  beside := by decide
  frame hs h hcore := hs.of_touches h (hcore _ (by decide))
  ask s b cause waiter _ hs := hs.of_touches (s.putBank_touches b _) (by decide)
  start s b a h _ _ hs := hs.of_touches (s.closeStart_closeEffect b a h).touches (by decide)

namespace State.StillFrozen

variable {x : Capture} {s : State} (hs : s.StillFrozen x)

include hs

/-! ### The takes -/

theorem beginTake (k : SlotId) (rest : List SlotId) : (s.beginTake k rest).StillFrozen x := by
  unfold State.beginTake
  refine checkWords ?_ _
  exact hs

theorem finish (k : SlotId) (st : SlotState) (r : Reply) : (s.finish k st r).StillFrozen x :=
  hs.of_touches (s.finish_touches k st r) (by decide)

theorem done (k : SlotId) (r : Reply) : (s.done k r).StillFrozen x := hs.finish k _ r

theorem refuse (k : SlotId) (r : Reason) : (s.refuse k r).StillFrozen x := hs.finish k _ _

theorem finishPoint (k : SlotId) (p : PointId) (st : SlotState) (r : Reply) : (s.finishPoint k p st r).StillFrozen x := by
  unfold State.finishPoint
  exact (hs.checkRegs _ _).finish k st _

theorem takeSetPoint (k : SlotId) : (s.takeSetPoint k).StillFrozen x := by
  have read (p : PointId) (v : Fin 4) : (s.headroomReads p v).StillFrozen x := by
    unfold State.headroomReads
    dsimp only
    split
    · exact (hs.checkReg _ _).checkRegs _ _
    · exact hs.checkReg _ _
  unfold State.takeSetPoint State.judgePoint
  dsimp only
  split
  · split
    · split
      · exact hs.finishPoint k _ _ _
      · split
        · exact hs.finishPoint k _ _ _
        · split
          · exact (read _ _).finishPoint k _ _ _
          · exact ((read _ _).of_touches (State.writePoint_touches _ _ _) (by decide)).finishPoint k _ _ _
    · exact hs.finishPoint k _ _ _
  · exact hs.refuse k _

theorem takeReadOpen (k : SlotId) : (s.takeReadOpen k).StillFrozen x := by
  have read (p : SetId) (i : Fin 2) (first count : Nat) : (s.readSet k p i first count).StillFrozen x := by
    unfold State.readSet
    exact (hs.checkAccs _ i _).done k _
  unfold State.takeReadOpen
  dsimp only
  split
  · split
    · split
      · exact read _ _ _ _
      · exact hs.refuse k _
    · exact hs.refuse k _
  · exact hs.refuse k _

theorem judgeRead (k : SlotId) (size : Nat) {read : SetId → Nat → Nat → State}
    (hread : ∀ p first count, (read p first count).StillFrozen x) : (s.judgeRead k size read).StillFrozen x := by
  unfold State.judgeRead
  dsimp only
  split
  · split
    · exact hread _ _ _
    · exact hs.refuse k _
  · exact hs.refuse k _

theorem takeReadRegisters (k : SlotId) : (s.takeReadRegisters k).StillFrozen x := by
  refine hs.judgeRead k _ fun p first count => ?_
  unfold State.readQuantities
  exact (hs.checkRegs _ _).done k _

theorem takeReadRegistersNet (k : SlotId) : (s.takeReadRegistersNet k).StillFrozen x := by
  refine hs.judgeRead k _ fun p first count => ?_
  unfold State.readNet
  exact (hs.checkRegs _ _).done k _

theorem takeRebase (k : SlotId) : (s.takeRebase k).StillFrozen x := by
  unfold State.takeRebase
  dsimp only
  split
  · split
    · split
      · exact hs.refuse k _
      · split
        · exact (hs.checkReg _ _).refuse k _
        · unfold State.holdRebase
          refine of_touches ?_ (State.regWritten_touches _ _ _) (by decide)
          refine of_touches ?_ (State.putRegs_touches _ _ _) (by decide)
          exact (hs.checkReg _ _).of_touches (State.defer_touches _ k _ _) (by decide)
    · exact hs.refuse k _
  · exact hs.refuse k _

theorem take (row : Row) {carry : State → SlotId → State}
    (hcarry : ∀ (u : State) (k : SlotId), u.StillFrozen x → (carry u k).StillFrozen x) : (s.take row carry).StillFrozen x :=
  State.take_keeps (P := State.StillFrozen x) _ (fun k rest _ _ => hcarry _ k (hs.beginTake k rest)) hs

/-- A carrying out that does not touch the capture record. -/
theorem take_of_touches (row : Row) {carry : State → SlotId → State} {ps : List Part}
    (hcarry : ∀ (u : State) (k : SlotId), u.Touches ps (carry u k)) (hp : Part.capture ∉ ps) :
    (s.take row carry).StillFrozen x := hs.take row fun u k hu => hu.of_touches (hcarry u k) hp

/-! ### Every command -/

theorem warmCompletion : s.warmCompletion.StillFrozen x := by
  have requests (u : State) (hu : u.StillFrozen x) : u.warmRequests.StillFrozen x := by
    have posted : u.refusedPosted.StillFrozen x :=
      foldl_keeps (P := State.StillFrozen x) _ (fun v k _ hv => (hv.checkWord _).finish k _ _) hu
    have all : u.refusedAll.StillFrozen x :=
      foldl_keeps (P := State.StillFrozen x) _
        (fun v e _ hv => hv.of_touches (v.refuseTaken_touches e) (by decide)) posted
    rw [State.warmRequests_eq]
    exact all
  have effects : s.warmEffects.StillFrozen x := by
    unfold State.warmEffects
    refine requests _ ?_
    refine of_touches ?_ (State.warmRegisters_touches _) (by decide)
    refine of_touches ?_ (State.warmBanks_touches _) (by decide)
    refine of_touches ?_ (State.warmWatches_touches _) (by decide)
    refine of_touches ?_ (State.warmSorter_touches _) (by decide)
    exact hs.of_touches s.warmLinks_touches (by decide)
  unfold State.warmCompletion
  split
  · unfold State.completeWarm
    refine (stillFrozen_keptByCloses x).heldTests ?_ _
    refine of_touches ?_ (State.endWarm_touches _) (by decide)
    exact effects.of_touches (State.clearCausesButCapture_touches _) (by decide)
  · exact hs

theorem commandEffect (c : Instr) (hr : s.control.ready = true) (hclear : c ≠ .readCaptureClear) (hcold : c ≠ .coldReset) :
    (commandEffect c s).StillFrozen x := by
  cases c
  case coldReset => exact absurd rfl hcold
  case readCaptureClear => exact absurd rfl hclear
  case ready =>
    unfold Machine.commandEffect
    dsimp only
    rw [if_pos hr]
    exact hs
  case windowAddition b =>
    exact (stillFrozen_keptByCloses x).windowAddition hs b fun _ i q m c hu => hu.addToSet b i q m c
  case pointStep b =>
    unfold Machine.commandEffect State.pointStep
    dsimp only
    split
    · exact hs.stepEntry b _ _
    · exact hs
  case hostWrite la data be => exact hs.hostWrite la data be
  case hostRead rsel la =>
    unfold Machine.commandEffect State.hostRead
    dsimp only
    split
    · exact hs
    · exact (hs.checkWord la.toNat : (s.checkWord la.toNat).StillFrozen x)
  case badKind => exact hs.take _ fun _ k hu => hu.refuse k _
  case setPoint => exact hs.take _ fun _ k hu => hu.takeSetPoint k
  case setBank => exact hs.take_of_touches _ State.takeSetBank_touches (by decide)
  case setTiming => exact hs.take_of_touches _ State.takeSetTiming_touches (by decide)
  case start => exact hs.take_of_touches _ State.takeStart_touches (by decide)
  case stop => exact hs.take_of_touches _ State.takeStop_touches (by decide)
  case close => exact hs.take_of_touches _ State.takeClose_touches (by decide)
  case readOpen => exact hs.take _ fun _ k hu => hu.takeReadOpen k
  case readRegisters => exact hs.take _ fun _ k hu => hu.takeReadRegisters k
  case readRegistersNet => exact hs.take _ fun _ k hu => hu.takeReadRegistersNet k
  case rebase => exact hs.take _ fun _ k hu => hu.takeRebase k
  case cancel => exact hs.take_of_touches _ State.takeCancel_touches (by decide)
  case linkControlEnable => exact hs.take_of_touches _ (State.takeLink_touches _) (by decide)
  case linkControlDisable => exact hs.take_of_touches _ (State.takeLink_touches _) (by decide)
  case linkControlReset => exact hs.take_of_touches _ (State.takeLink_touches _) (by decide)
  case linkControlClear => exact hs.take_of_touches _ (State.takeLink_touches _) (by decide)
  case readCapture => exact hs.take_of_touches _ State.takeReadCapture_touches (by decide)
  case warmResetCompletion => exact hs.warmCompletion
  all_goals exact hs.of_touches (commandEffect_touches _ s) (of_decide_eq_true rfl)

end State.StillFrozen

/-- Settles O16: reports raise the count of a frozen record, and nothing else writes it. -/
theorem captureStaysFrozen : Obligations.CaptureStaysFrozen := by
  intro c s t x hr hx hsecond hclear hcold hexec
  have frozen : s.StillFrozen x := ⟨x.second, Nat.le_refl _, hsecond, hx⟩
  rw [exec_of_ready c hr] at hexec
  injection hexec with hexec
  exact hexec ▸ frozen.commandEffect c hr hclear hcold

end Sys2Proof.Machine
end

section
/-! SUPPORT. The link events and the frames of the sorter's events (R1 to R13). -/

namespace Sys2Proof.Machine

/-! ### States equal part by part -/

/-- States with every part the same are equal. -/
theorem State.eq_of_same {s t : State} (h : ∀ p : Part, p.Same s t) : t = s := by
  have touches : s.Touches [] t := fun p => Or.inr (h p)
  have hsorter := touches.sorter (by decide)
  have hrequests := touches.requests (by decide)
  have hnotices := touches.notices (by decide) (by decide) (by decide)
  have howner := h .ownerCount
  have htag := h .tagCount
  have hcorrected := h .corrected
  have hexchange := h .exchangeMarks
  have haccounting := h .accountingMarks
  have hregisters := h .registerMarks
  have parts := And.intro (h .links) <| And.intro (h .accounting) <| And.intro (h .watches) <| And.intro (h .profiles) <|
    And.intro (h .banks) <| And.intro (h .timing) <| And.intro (h .bankCounters) <| And.intro (h .folds) <|
    And.intro (h .regs) <| And.intro (h .writer) <| And.intro (h .exceptions) <| And.intro (h .capture) <|
    And.intro (h .control) <| And.intro (h .mem) <| And.intro (h .ld) (h .pending)
  simp only [Part.Same] at howner htag hcorrected hexchange haccounting hregisters parts
  obtain ⟨_, _, _, _, _, _, _, _, _, _, _, _, _, _, _, _, ⟨_, _, _⟩, _, ⟨_, _, _⟩, _, _⟩ := s
  obtain ⟨_, _, _, _, _, _, _, _, _, _, _, _, _, _, _, _, ⟨_, _, _⟩, _, ⟨_, _, _⟩, _, _⟩ := t
  simp_all only

theorem Part.copy_same (t u : State) (p : Part) : p.Same t (p.copy t u) := by cases p <;> rfl

theorem Part.Same.symm {s t : State} {p : Part} (h : p.Same s t) : p.Same t s := by
  cases p <;> exact Eq.symm h

/-- A part that was copied already is not lost by copies of further parts. -/
theorem Part.Same.copy {t u : State} {p : Part} (h : p.Same t u) (q : Part) : p.Same t (q.copy t u) := by
  by_cases hpq : p = q
  · exact hpq ▸ Part.copy_same t u p
  · exact h.trans ((Part.copy_touches t u q).same (by simpa using hpq))

theorem State.withParts_same (s t : State) {ps : List Part} {p : Part} (h : p ∈ ps ∨ p.Same t s) :
    p.Same t (s.withParts t ps) := by
  unfold State.withParts
  induction ps generalizing s with
  | nil => exact h.resolve_left List.not_mem_nil
  | cons q qs ih =>
    refine ih (q.copy t s) ?_
    rcases h with h | h
    · rcases List.mem_cons.mp h with rfl | h
      · exact Or.inr (Part.copy_same t s p)
      · exact Or.inl h
    · exact Or.inr (h.copy q)

/-- A state that differs from another in some parts alone is that other with those parts replaced. -/
theorem State.Touches.eq_withParts {s t : State} {ps : List Part} (h : s.Touches ps t) : t = s.withParts t ps :=
  (State.eq_of_same fun p => s.withParts_same t ((h p).imp_right Part.Same.symm)).symm

/-! ### What an event of one link leaves alone -/

/-- From `s` to `t` one link's receiver changed, and LINK may have been latched: besides that nothing but what a link's event
may change. -/
structure State.LinkEventAt (s : State) (l : LinkId) (t : State) : Prop where
  event : s.LinkEvent t
  others : ∀ l', l' ≠ l → t.links[l'] = s.links[l']
  latched : t.notices.latched = s.notices.latched ∨ t.notices.latched = s.notices.latched ||| Cause.link.flag

namespace State.LinkEventAt

variable {s t u : State} {l : LinkId}

theorem refl (s : State) (l : LinkId) : s.LinkEventAt l s := ⟨.refl s, fun _ _ => rfl, Or.inl rfl⟩

theorem trans (h : s.LinkEventAt l t) (h' : t.LinkEventAt l u) : s.LinkEventAt l u := by
  refine ⟨h.event.trans h'.event, fun l' hl => (h'.others l' hl).trans (h.others l' hl), ?_⟩
  have twice (x : BitVec 6) : x ||| Cause.link.flag ||| Cause.link.flag = x ||| Cause.link.flag := by
    rw [BitVec.or_assoc, BitVec.or_self]
  rcases h.latched with h | h <;> rcases h'.latched with h' | h' <;> rw [h', h]
  · exact Or.inl rfl
  · exact Or.inr rfl
  · exact Or.inr rfl
  · exact Or.inr (twice _)

theorem putLink (s : State) (l : LinkId) (r : Receiver) : s.LinkEventAt l (s.putLink l r) :=
  ⟨rfl, fun _ h => getElem_fin_set_of_ne _ _ h, Or.inl rfl⟩

theorem changeReceiver (s : State) (l : LinkId) (st : RxState) : s.LinkEventAt l (s.changeReceiver l st) :=
  ⟨s.changeReceiver_linkEvent l st, fun _ h => getElem_fin_set_of_ne _ _ h, Or.inr rfl⟩

theorem goodFrame (s : State) (l : LinkId) (x : FrameBody) : s.LinkEventAt l (s.goodFrame l x) := by
  refine ⟨s.goodFrame_linkEvent l x, fun l' h => ?_, Or.inl ?_⟩
  · rw [State.goodFrame_links]
    exact getElem_fin_set_of_ne _ _ h
  · cases x with
    | idle => rfl
    | window f =>
      unfold State.goodFrame
      dsimp only
      split <;> rfl

theorem badFrame (s : State) (l : LinkId) (crc : Bool) : s.LinkEventAt l (s.badFrame l crc) := by
  rw [State.badFrame_eq]
  split
  · exact putLink s l _
  · exact (putLink s l _).trans (changeReceiver _ l .hunt)

theorem resolve (fuel : Nat) (s : State) (l : LinkId) (stream : List Byte) : s.LinkEventAt l (s.resolve fuel l stream) := by
  induction fuel generalizing s stream with
  | zero => exact putLink s l _
  | succ n ih =>
    unfold State.resolve
    split
    · exact putLink s l _
    · split
      · exact putLink s l _
      · exact ((changeReceiver s l _).trans (goodFrame _ l _)).trans (ih _ _)
      · exact ih _ _
    · split
      · exact putLink s l _
      · exact ih _ _
      · exact (badFrame s l _).trans (ih _ _)
      · exact (badFrame s l _).trans (ih _ _)
      · exact (badFrame s l _).trans (ih _ _)
      · exact (goodFrame s l _).trans (ih _ _)

theorem receive (s : State) (l : LinkId) (bytes : List Byte) : s.LinkEventAt l (s.receive l bytes) := by
  unfold State.receive
  split
  · exact refl s l
  · exact resolve _ s l _

theorem silenceExpiry (s : State) (l : LinkId) : s.LinkEventAt l (s.silenceExpiry l) := by
  unfold State.silenceExpiry
  split
  · exact refl s l
  · exact (putLink s l _).trans (changeReceiver _ l .hunt)

end State.LinkEventAt

/-- A take of the sorter leaves of the receivers all but its own link's FIFO. -/
theorem State.sorterTake_links (s : State) (l j : LinkId) :
    (s.sorterTake l).links[j] = { s.links[j] with fifo := (s.sorterTake l).links[j].fifo } ∧
      (j ≠ l → (s.sorterTake l).links[j] = s.links[j]) := by
  have kept (u : State) (x : TaggedFrame) : (u.handleFrame l x).tryHandOff.links = u.links :=
    ((u.handleFrame_touches l x).links (by decide)).symm ▸ (State.tryHandOff_touches _).links (by decide)
  unfold State.sorterTake
  split
  next x rest _ _ =>
    rw [kept, State.putLink_links]
    by_cases hj : j = l
    · rw [hj, getElem_fin_set_self]
      exact ⟨rfl, fun h => absurd rfl h⟩
    · rw [getElem_fin_set_of_ne _ _ hj]
      exact ⟨rfl, fun _ => rfl⟩
  · exact ⟨rfl, fun _ => rfl⟩

/-- The parts that the sorter's three events may touch. -/
def Part.ofSorterEvents : List Part := [.links, .quotaCount, .quotaTimer] ++ Part.ofSorting

theorem State.eq_of_sorterEvents {s t : State} (h : s.Touches Part.ofSorterEvents t) :
    t = { s with
      links := t.links
      sorter := { t.sorter with halted := s.sorter.halted, timeout := s.sorter.timeout }
      accounting := t.accounting
      requests := { s.requests with quotaCount := t.requests.quotaCount, quotaTimer := t.requests.quotaTimer }
      exceptions := t.exceptions
      notices := { s.notices with latched := t.notices.latched }
      ecc := { s.ecc with exchange := t.ecc.exchange } } := by
  refine h.eq_withParts.trans ?_
  simp only [State.withParts, Part.ofSorterEvents, Part.ofSorting, List.cons_append, List.nil_append, List.foldl_cons,
    List.foldl_nil, Part.copy]

/-- Settles O25. -/
theorem linkAndSorterEventsFrame : Obligations.LinkAndSorterEventsFrame := by
  refine ⟨fun c l s t hc hexec => ?_, fun c s t hc hexec => ?_⟩
  · have event : s.LinkEventAt l t := by
      rcases exec_next_cases hexec with rfl | rfl
      · exact .refl _ l
      · rcases hc with ⟨bytes, rfl | rfl | rfl⟩ | rfl
        · exact .receive s l bytes
        · exact .receive s l bytes
        · exact .receive s l bytes
        · exact .silenceExpiry s l
    exact ⟨event.others, event.event, event.latched⟩
  · have touches := exec_touches hexec
    have frame : s.Touches Part.ofSorterEvents t := by
      rcases hc with ⟨l, rfl⟩ | ⟨q, rfl⟩ | rfl
      · exact touches.mono (of_decide_eq_true rfl)
      · exact touches.mono (of_decide_eq_true rfl)
      · exact touches.mono (by decide)
    refine ⟨State.eq_of_sorterEvents frame, fun l => ?_, fun hne => ?_⟩
    · rcases hc with ⟨j, rfl⟩ | ⟨q, rfl⟩ | rfl
      · rcases exec_next_cases hexec with rfl | rfl
        · exact ⟨rfl, fun _ => rfl⟩
        · obtain ⟨hfifo, hother⟩ := s.sorterTake_links j l
          exact ⟨hfifo, fun h => hother fun hl => h (hl ▸ rfl)⟩
      · rw [touches.links (of_decide_eq_true rfl)]
        exact ⟨rfl, fun _ => rfl⟩
      · rw [touches.links (by decide)]
        exact ⟨rfl, fun _ => rfl⟩
    · rcases hc with ⟨j, rfl⟩ | ⟨q, rfl⟩ | rfl
      · exact touches.requests (of_decide_eq_true rfl)
      · exact touches.requests (of_decide_eq_true rfl)
      · exact absurd rfl hne

end Sys2Proof.Machine
end

section
/-! SUPPORT. The receivers' events on one whole frame (R3, R6, R7, R8). -/

namespace Sys2Proof.Machine

/-! ### The search of a stream -/

theorem examine_nil : examine [] = .incomplete := rfl

/-- Nothing is left to search. -/
theorem State.resolve_nil (s : State) (fuel : Nat) (l : LinkId) : s.resolve fuel l [] = s.keepStream l [] := by
  cases fuel with
  | zero => rfl
  | succ n =>
    unfold State.resolve
    rw [examine_nil]
    cases s.links[l].state <;> rfl

theorem State.receive_of_good_sync {s : State} {l : LinkId} {bytes : List Byte} {x : FrameBody} (hstate : s.links[l].state = .sync)
    (hprogress : s.links[l].inProgress = []) (h : examine bytes = .good x bytes.length) :
    s.receive l bytes = (s.goodFrame l x).keepStream l [] := by
  unfold State.receive
  simp only [hstate, reduceCtorEq, if_false, hprogress, List.nil_append]
  rw [State.resolve, hstate, h]
  simp only [List.drop_length, State.resolve_nil]

theorem State.receive_of_bad_sync {s : State} {l : LinkId} {bytes : List Byte} {crc : Bool} (hstate : s.links[l].state = .sync)
    (hprogress : s.links[l].inProgress = [])
    (h : crc = true ∧ examine bytes = .crcError bytes.length ∨
      crc = false ∧ (examine bytes = .formatError bytes.length ∨ examine bytes = .badLength ∧ bytes.length = 4)) :
    s.receive l bytes = (s.badFrame l crc).keepStream l [] := by
  unfold State.receive
  simp only [hstate, reduceCtorEq, if_false, hprogress, List.nil_append]
  rw [State.resolve, hstate]
  rcases h with ⟨rfl, h⟩ | ⟨rfl, h | ⟨h, hlength⟩⟩
  · simp only [h, List.drop_length, State.resolve_nil]
  · simp only [h, List.drop_length, State.resolve_nil]
  · rw [← hlength]
    simp only [h, List.drop_length, State.resolve_nil]

theorem State.receive_of_good_hunt {s : State} {l : LinkId} {bytes : List Byte} {x : FrameBody} (hstate : s.links[l].state = .hunt)
    (hprogress : s.links[l].inProgress = []) (h : examine bytes = .good x bytes.length) :
    s.receive l bytes = ((s.changeReceiver l .sync).goodFrame l x).keepStream l [] := by
  unfold State.receive
  simp only [hstate, reduceCtorEq, if_false, hprogress, List.nil_append]
  rw [State.resolve, hstate, h]
  simp only [List.drop_length, State.resolve_nil]

/-- A failed candidate is searched again from the byte after its first (R3). -/
theorem State.receive_of_failed_hunt {s : State} {l : LinkId} {bytes : List Byte} (hstate : s.links[l].state = .hunt)
    (hprogress : s.links[l].inProgress = []) (hwhole : examine bytes ≠ .incomplete)
    (hbad : ∀ body n, examine bytes ≠ .good body n) : s.receive l bytes = s.receive l (bytes.drop 1) := by
  have hlength : (bytes.drop 1).length + 1 = bytes.length := by
    cases bytes with
    | nil => exact absurd examine_nil hwhole
    | cons x xs => rfl
  unfold State.receive
  simp only [hstate, reduceCtorEq, if_false, hprogress, List.nil_append]
  rw [hlength, State.resolve, hstate]
  dsimp only
  split
  next h => exact absurd h hwhole
  next h => exact absurd h (hbad _ _)
  · rfl

/-! ### One frame's effects -/

theorem State.keepStream_link (s : State) (l : LinkId) (stream : List Byte) :
    (s.keepStream l stream).links[l] = { s.links[l] with inProgress := stream } := by
  unfold State.keepStream
  rw [State.putLink_links, getElem_fin_set_self]

theorem State.goodFrame_link (s : State) (l : LinkId) (x : FrameBody) :
    (s.goodFrame l x).links[l] = s.links[l].afterGood s.control.run x := by
  rw [State.goodFrame_links, getElem_fin_set_self]

theorem State.badFrame_link (s : State) (l : LinkId) (crc : Bool) : (s.badFrame l crc).links[l] = s.links[l].afterBad crc := by
  rw [State.badFrame_links, getElem_fin_set_self]

/-- The sorter counts the WINDOW frames that arrive while RUN is 0 (R6). -/
def Sorter.afterGood (x : Sorter) (run : Bool) : FrameBody → Sorter
  | .idle => x
  | .window _ => if run = true then x else { x with halted := x.halted + 1 }

theorem State.goodFrame_sorter (s : State) (l : LinkId) (x : FrameBody) :
    (s.goodFrame l x).sorter = s.sorter.afterGood s.control.run x := by
  unfold State.goodFrame Sorter.afterGood
  cases x with
  | idle => rfl
  | window f => cases hrun : s.control.run <;> simp

theorem State.goodFrame_notices (s : State) (l : LinkId) (x : FrameBody) : (s.goodFrame l x).notices = s.notices := by
  unfold State.goodFrame
  cases x with
  | idle => rfl
  | window f => cases hrun : s.control.run <;> simp

theorem Receiver.afterGood_counts (r : Receiver) (run : Bool) (x : FrameBody) :
    (r.afterGood run x).good = r.good + 1 ∧ (r.afterGood run x).bad = r.bad ∧ (r.afterGood run x).consecutiveBad = 0 ∧
      (r.afterGood run x).silenceTimer = some 1000 := by
  have placed (f : WindowFrame) : (r.countGood.place f).good = r.good + 1 ∧ (r.countGood.place f).bad = r.bad := by
    unfold Receiver.place
    split <;> exact ⟨rfl, rfl⟩
  cases x with
  | idle => exact ⟨rfl, rfl, rfl, rfl⟩
  | window f =>
    unfold Receiver.afterGood
    dsimp only
    split
    · obtain ⟨-, -, hbad, htimer⟩ := r.countGood.place_state f
      exact ⟨(placed f).1, (placed f).2, hbad, htimer⟩
    · exact ⟨rfl, rfl, rfl, rfl⟩

/-- The FIFO and what goes with it after a good frame (R10, R12, R13). -/
theorem State.afterGood_window (s : State) (r : Receiver) (f : WindowFrame) :
    if s.control.run = true then
      s.sorter.afterGood s.control.run (.window f) = s.sorter ∧
      if r.fifo.length < 4 then
        (r.afterGood s.control.run (.window f)).fifo =
            r.fifo ++ [⟨f, ⟨f.clip, f.unlock, f.gap, outOfRange f.duration, false⟩⟩] ∧
          (r.afterGood s.control.run (.window f)).lost = r.lost ∧
          (r.afterGood s.control.run (.window f)).errors = r.errors
      else
        (r.afterGood s.control.run (.window f)).fifo =
            r.fifo.dropLast ++ [⟨f, ⟨f.clip, f.unlock, f.gap, outOfRange f.duration, true⟩⟩] ∧
          (r.afterGood s.control.run (.window f)).lost = r.lost + 1 ∧
          (r.afterGood s.control.run (.window f)).errors = { r.errors with overrun := true }
    else (r.afterGood s.control.run (.window f)).fifo = r.fifo ∧ (r.afterGood s.control.run (.window f)).lost = r.lost ∧
      (r.afterGood s.control.run (.window f)).errors = r.errors ∧
      s.sorter.afterGood s.control.run (.window f) = { s.sorter with halted := s.sorter.halted + 1 } := by
  unfold Receiver.afterGood Sorter.afterGood Receiver.place
  cases s.control.run with
  | false => exact ⟨rfl, rfl, rfl, rfl⟩
  | true =>
    simp only [if_true, true_and]
    have counted : r.countGood.fifo = r.fifo := rfl
    rw [counted]
    by_cases h : r.fifo.length < 4
    · simp only [if_pos h]
      exact ⟨rfl, rfl, rfl⟩
    · simp only [if_neg h]
      exact ⟨rfl, rfl, rfl⟩

/-! ### The obligations -/

/-- Settles O17. -/
theorem goodFrameInSync : Obligations.GoodFrameInSync := by
  intro s l bytes body hr hstate hprogress h
  refine ⟨_, exec_of_ready _ hr, ?_⟩
  have received : commandEffect (.goodFrame l bytes) s = (s.goodFrame l body).keepStream l [] :=
    State.receive_of_good_sync hstate hprogress h
  have hlink : ((s.goodFrame l body).keepStream l []).links[l] =
      { s.links[l].afterGood s.control.run body with inProgress := [] } := by
    rw [State.keepStream_link, State.goodFrame_link]
  have hsorter : ((s.goodFrame l body).keepStream l []).sorter = s.sorter.afterGood s.control.run body :=
    s.goodFrame_sorter l body
  obtain ⟨hgood, hbad, hrow, htimer⟩ := s.links[l].afterGood_counts s.control.run body
  rw [received, hlink, hsorter]
  refine ⟨(Receiver.afterGood_state _ _ _).1.trans hstate, rfl, hgood, hbad, hrow, htimer, ?_⟩
  cases body with
  | idle => exact ⟨rfl, rfl, rfl, rfl⟩
  | window f => exact s.afterGood_window s.links[l] f

theorem State.silenceExpiry_of_running {s : State} {l : LinkId} (h : s.links[l].silenceTimer ≠ none) : s.silenceExpiry l =
    (s.putLink l { s.links[l] with errors := { s.links[l].errors with silence := true } }).changeReceiver l .hunt := by
  unfold State.silenceExpiry
  split
  next hnone => exact absurd hnone h
  · rfl

theorem State.silenceExpiry_of_stopped {s : State} {l : LinkId} (h : s.links[l].silenceTimer = none) : s.silenceExpiry l = s := by
  unfold State.silenceExpiry
  rw [h]

/-- Settles O18. -/
theorem badFramesAndSilenceInSync : Obligations.BadFramesAndSilenceInSync := by
  refine ⟨fun s l bytes crc hr hstate hprogress h => ⟨_, exec_of_ready _ hr, ?_⟩, fun s l hr => ⟨fun h => ?_, fun h => ?_⟩⟩
  · have received : commandEffect (.badFrame l bytes) s = (s.badFrame l crc).keepStream l [] :=
      State.receive_of_bad_sync hstate hprogress h
    have hlink : ((s.badFrame l crc).keepStream l []).links[l] = { s.links[l].afterBad crc with inProgress := [] } := by
      rw [State.keepStream_link, State.badFrame_link]
    rw [received, hlink, State.badFrame_eq]
    unfold Receiver.afterBad
    by_cases hfew : s.links[l].consecutiveBad + 1 < 3
    · simp only [if_pos hfew]
      exact ⟨trivial, rfl, rfl, rfl, rfl, rfl, rfl, hstate, rfl, rfl, rfl⟩
    · simp only [if_neg hfew]
      exact ⟨trivial, rfl, rfl, rfl, rfl, rfl, rfl, trivial, trivial, trivial, rfl⟩
  · refine ⟨_, exec_of_ready _ hr, ?_⟩
    have expired := State.silenceExpiry_of_running h
    have heffect : commandEffect (.silenceTimerExpiry l) s = s.silenceExpiry l := rfl
    rw [heffect, expired]
    refine ⟨?_, rfl⟩
    rw [State.changeReceiver_links, getElem_fin_set_self, State.putLink_links, getElem_fin_set_self]
    rfl
  · rw [exec_of_ready _ hr]
    exact congrArg Host.Outcome.next (State.silenceExpiry_of_stopped h)

/-- Settles O19. -/
theorem huntCandidateSearch : Obligations.HuntCandidateSearch := by
  refine fun s l bytes hr hstate hprogress => ⟨fun body h => ⟨_, exec_of_ready _ hr, ?_⟩, fun hwhole hbad => ?_⟩
  · have received : commandEffect (.huntCandidate l bytes) s =
        ((s.changeReceiver l .sync).goodFrame l body).keepStream l [] :=
      State.receive_of_good_hunt hstate hprogress h
    have hlink : (((s.changeReceiver l .sync).goodFrame l body).keepStream l []).links[l] =
        { (s.changeReceiver l .sync).links[l].afterGood s.control.run body with inProgress := [] } := by
      rw [State.keepStream_link, State.goodFrame_link]
      rfl
    have hsorter : (((s.changeReceiver l .sync).goodFrame l body).keepStream l []).sorter =
        s.sorter.afterGood s.control.run body := (s.changeReceiver l .sync).goodFrame_sorter l body
    have hnotices : (((s.changeReceiver l .sync).goodFrame l body).keepStream l []).notices =
        (s.changeReceiver l .sync).notices := (s.changeReceiver l .sync).goodFrame_notices l body
    have hsynced : (s.changeReceiver l .sync).links[l] = { s.links[l] with
        state := .sync, inProgress := [], consecutiveBad := 0, silenceTimer := some Config.silenceMs } := by
      rw [State.changeReceiver_links, getElem_fin_set_self, if_pos rfl]
    rw [received, hlink, hsorter, hnotices, hsynced]
    generalize hr' : ({ s.links[l] with state := .sync, inProgress := [], consecutiveBad := 0
                                        silenceTimer := some Config.silenceMs } : Receiver) = r
    obtain ⟨hgood, hbad, hrow, htimer⟩ := r.afterGood_counts s.control.run body
    have hfields : r.state = .sync ∧ r.good = s.links[l].good ∧ r.bad = s.links[l].bad ∧ r.fifo = s.links[l].fifo ∧
        r.lost = s.links[l].lost ∧ r.errors = s.links[l].errors := by
      subst hr'
      exact ⟨rfl, rfl, rfl, rfl, rfl, rfl⟩
    obtain ⟨hs, hg, hb, hf, hl, he⟩ := hfields
    refine ⟨(Receiver.afterGood_state _ _ _).1.trans hs, rfl, hg ▸ hgood, hb ▸ hbad, hrow, htimer, rfl, ?_⟩
    rw [← hf, ← hl, ← he]
    cases body with
    | idle => exact ⟨rfl, rfl, rfl, rfl⟩
    | window f => exact s.afterGood_window r f
  · rw [exec_of_ready _ hr, exec_of_ready _ hr]
    exact congrArg Host.Outcome.next (State.receive_of_failed_hunt hstate hprogress hwhole hbad)

end Sys2Proof.Machine
end

section
/-! SUPPORT. The sorter's events: the arrival table line by line, the hand-off, and SORTER_TAKE (R19 to R36). -/

namespace Sys2Proof.Machine

/-! ### The arrival table -/

theorem State.find?_seq_of_not_mem {s : State} {q : Seq16} (h : q ∉ s.sorter.queue.map Entry.seq) :
    s.sorter.queue.find? (fun e => e.seq == q) = none := by
  refine List.find?_eq_none.mpr fun e he => ?_
  rw [beq_iff_eq]
  exact fun hq => h (hq ▸ List.mem_map_of_mem he)

section
variable {s : State} {l : LinkId} {p : PointId} {x : TaggedFrame}

theorem State.arrive_of_behind (h : s.behindHorizon x.frame.seq = true) : s.arrive l p x = s.dropLate l x.frame := by
  unfold State.arrive
  exact if_pos h

/-- A frame of an entry not yet handed: not expected, a duplicate, or stored (R23, R24, R25). -/
theorem State.arrive_of_entry (h : s.behindHorizon x.frame.seq = false) {e : Entry}
    (he : s.sorter.queue.find? (fun e => e.seq == x.frame.seq) = some e) (hfree : e.handed = false) :
    s.arrive l p x = (e.expected.find? fun y => y.point == p).elim s.dropUnexpected
      fun y => if y.arrived = true then s.dropDuplicate else s.storeFrame p x := by
  unfold State.arrive
  simp only [h, he, hfree, Bool.false_eq_true, if_false]
  cases e.expected.find? fun y => y.point == p <;> rfl

/-- A frame of a sequence without an entry (R21, R22, R23, R29). -/
theorem State.arrive_of_new (h : s.behindHorizon x.frame.seq = false) (hnew : x.frame.seq ∉ s.sorter.queue.map Entry.seq) :
    s.arrive l p x =
      if s.profiles[p].active = false then s.dropUnexpected
      else if placeable s.sorter.queue x.frame.seq = false then s.dropLate l x.frame
      else if s.sorter.queue.length < 4 then s.openEntry p x
      else s.sorter.queue.head?.elim s fun e => if newer e.seq x.frame.seq = true then s.dropLate l x.frame else s.forceAndHold l x := by
  unfold State.arrive
  simp only [h, State.find?_seq_of_not_mem hnew, Bool.false_eq_true, if_false, Bool.not_eq_true']
  cases s.sorter.queue <;> rfl

/-- A frame without an entry that is LATE all the same: its place is too far from an entry, or a full queue's head is newer. -/
theorem State.arrive_of_misplaced (h : s.behindHorizon x.frame.seq = false) (hnew : x.frame.seq ∉ s.sorter.queue.map Entry.seq)
    (hactive : s.profiles[p].active = true)
    (hplace : placeable s.sorter.queue x.frame.seq = false ∨
      s.sorter.queue.length = 4 ∧ ∀ e, s.sorter.queue.head? = some e → newer e.seq x.frame.seq = true) :
    s.arrive l p x = s.dropLate l x.frame := by
  rw [State.arrive_of_new h hnew, if_neg (ne_false_of_eq_true hactive)]
  split
  · rfl
  next hfit =>
    obtain ⟨hfull, hhead⟩ := hplace.resolve_left hfit
    rw [if_neg (by omega)]
    cases hq : s.sorter.queue with
    | nil => rw [hq] at hfull; cases hfull
    | cons e rest => exact if_pos (hhead e (by rw [hq]; rfl))

theorem State.arrive_of_opening (h : s.behindHorizon x.frame.seq = false) (hnew : x.frame.seq ∉ s.sorter.queue.map Entry.seq)
    (hactive : s.profiles[p].active = true) (hplace : placeable s.sorter.queue x.frame.seq = true)
    (hroom : s.sorter.queue.length < 4) : s.arrive l p x = s.openEntry p x := by
  rw [State.arrive_of_new h hnew, if_neg (ne_false_of_eq_true hactive), if_neg (ne_false_of_eq_true hplace), if_pos hroom]

theorem State.dropLate_of_few (h : s.sorter.consecutiveLate + 1 ≠ 64) (f : WindowFrame) : s.dropLate l f =
    s.putSorter { s.sorter with late := s.sorter.late + 1, consecutiveLate := s.sorter.consecutiveLate + 1 } := by
  unfold State.dropLate
  exact if_neg h

end

/-! ### The hand-off -/

/-- The state with its complete head handed to window accounting (R31). -/
def State.handedOff (s : State) (e : Entry) (rest : List Entry) : State :=
  { s with
    sorter := { s.sorter with queue := { e with handed := true } :: rest }
    accounting := some
      { carriedLast := s.sorter.lastHanded, calculation := none, added := Vector.replicate 8 false
        setAside := Vector.replicate 8 false } }

section
variable {s : State}

theorem State.tryHandOff_of_ready {e : Entry} {rest : List Entry} (hq : s.sorter.queue = e :: rest) (ha : s.accounting = none)
    (hc : e.completion ≠ none) (hw : s.control.warm = false) : s.tryHandOff = s.handedOff e rest := by
  unfold State.tryHandOff
  rw [hq, ha]
  simp only [hw, Option.isSome_iff_ne_none.mpr hc, Bool.not_false, Bool.and_self, if_true]
  rfl

/-- Nothing is handed off while the head waits, accounting is BUSY or a warm reset is in progress. -/
theorem State.tryHandOff_of_waiting
    (h : s.accounting = none → s.control.warm = false → ∀ e, s.sorter.queue.head? = some e → e.completion = none) :
    s.tryHandOff = s := by
  unfold State.tryHandOff
  split
  next e rest hq ha =>
    split
    next hc =>
      rw [Bool.and_eq_true, Bool.not_eq_true'] at hc
      have waits := h ha hc.2 e (by rw [hq]; rfl)
      rw [waits] at hc
      exact absurd hc.1 (by decide)
    · rfl
  · rfl

/-- What the hand-off leaves of every entry, and of the sorter beside its queue. -/
theorem State.tryHandOff_sorter (s : State) :
    s.tryHandOff.sorter = { s.sorter with queue := s.tryHandOff.sorter.queue } ∧
      s.tryHandOff.sorter.queue.map Entry.seq = s.sorter.queue.map Entry.seq ∧
      ∀ e ∈ s.sorter.queue, ∃ b, { e with handed := b } ∈ s.tryHandOff.sorter.queue := by
  unfold State.tryHandOff
  split
  next e rest hq _ =>
    split
    · refine ⟨rfl, by rw [hq]; rfl, fun f hf => ?_⟩
      rw [hq] at hf
      rcases List.mem_cons.mp hf with rfl | hf
      · exact ⟨true, List.mem_cons_self⟩
      · exact ⟨f.handed, List.mem_cons_of_mem _ hf⟩
    · exact ⟨rfl, rfl, fun f hf => ⟨f.handed, hf⟩⟩
  · exact ⟨rfl, rfl, fun f hf => ⟨f.handed, hf⟩⟩

theorem State.tryHandOff_length (s : State) : s.tryHandOff.sorter.queue.length = s.sorter.queue.length := by
  have seqs := congrArg List.length s.tryHandOff_sorter.2.1
  rwa [List.length_map, List.length_map] at seqs

end

/-! ### A take of the sorter -/

section
variable {s : State} {l : LinkId} {x : TaggedFrame} {rest : List TaggedFrame}

theorem State.sorterTake_of_held (h : s.sorter.heldFrame ≠ none) : s.sorterTake l = s := by
  unfold State.sorterTake
  split
  next hnone _ => exact absurd hnone h
  · rfl

theorem State.sorterTake_of_fifo (hheld : s.sorter.heldFrame = none) (hfifo : s.links[l].fifo = x :: rest) :
    s.sorterTake l = ((s.putLink l { s.links[l] with fifo := rest }).handleFrame l x).tryHandOff := by
  unfold State.sorterTake
  rw [hheld, hfifo]

theorem State.sorterTake_link (hheld : s.sorter.heldFrame = none) (hfifo : s.links[l].fifo = x :: rest) :
    (s.sorterTake l).links[l] = { s.links[l] with fifo := rest } := by
  rw [State.sorterTake_of_fifo hheld hfifo, (State.tryHandOff_touches _).links (by decide),
    (State.handleFrame_touches _ l x).links (by decide), State.putLink_links, getElem_fin_set_self]

theorem State.handleFrame_of_mapped {p : PointId} (hp : s.mappedPoint l x.frame.port = some p) :
    s.handleFrame l x = s.arrive l p x := by
  unfold State.handleFrame
  rw [hp]

theorem State.handleFrame_of_unmapped (hp : s.mappedPoint l x.frame.port = none) : s.handleFrame l x = s.dropUnmapped := by
  unfold State.handleFrame
  rw [hp]

theorem State.sorterTake_of_mapped (hheld : s.sorter.heldFrame = none) (hfifo : s.links[l].fifo = x :: rest) {p : PointId}
    (hp : s.mappedPoint l x.frame.port = some p) :
    s.sorterTake l = ((s.putLink l { s.links[l] with fifo := rest }).arrive l p x).tryHandOff := by
  have mapped : (s.putLink l { s.links[l] with fifo := rest }).mappedPoint l x.frame.port = some p := hp
  rw [State.sorterTake_of_fifo hheld hfifo, State.handleFrame_of_mapped mapped]

end

/-- Settles O20. -/
theorem sorterTakeDropsFrame : Obligations.SorterTakeDropsFrame := by
  intro s l x rest hr hheld hfifo hwait
  refine ⟨_, exec_of_ready _ hr, State.sorterTake_link hheld hfifo, ?_⟩
  have heffect : commandEffect (.sorterTake l) s = s.sorterTake l := rfl
  rw [heffect]
  let u := s.putLink l { s.links[l] with fifo := rest }
  have waits (y : Sorter) (hy : y.queue = s.sorter.queue) : (u.putSorter y).tryHandOff.sorter = y := by
    rw [State.tryHandOff_of_waiting (s := u.putSorter y)]
    · rfl
    · intro ha hw e he
      exact hwait ha hw e (hy ▸ he)
  refine ⟨fun hp => ?_, fun p hp => ?_⟩
  · have unmapped : u.mappedPoint l x.frame.port = none := hp
    rw [State.sorterTake_of_fifo hheld hfifo, State.handleFrame_of_unmapped unmapped]
    exact waits _ rfl
  · rw [State.sorterTake_of_mapped hheld hfifo hp]
    refine ⟨fun hbehind hfew => ?_, fun hbehind => ?_⟩
    · rw [State.arrive_of_behind (s := u) hbehind, State.dropLate_of_few (s := u) hfew]
      exact waits _ rfl
    · refine ⟨fun e he hfree => ?_, fun hnew hactive => ?_, fun hnew hactive hplace hfew => ?_⟩
      · rw [State.arrive_of_entry (s := u) hbehind he hfree]
        refine ⟨fun hp => ?_, fun y hy hframe => ?_⟩
        · have absent : e.expected.find? (fun y => y.point == p) = none := by
            refine List.find?_eq_none.mpr fun y hy => ?_
            rw [beq_iff_eq]
            exact fun hyp => hp (hyp ▸ List.mem_map_of_mem hy)
          rw [absent]
          exact waits _ rfl
        · have arrived : y.arrived = true := Option.isSome_iff_ne_none.mpr hframe
          rw [hy, Option.elim_some, if_pos arrived]
          exact waits _ rfl
      · have inactive : u.profiles[p].active = false := hactive
        rw [State.arrive_of_new (s := u) hbehind hnew, if_pos inactive]
        exact waits _ rfl
      · rw [State.arrive_of_misplaced (s := u) hbehind hnew hactive hplace, State.dropLate_of_few (s := u) hfew]
        exact waits _ rfl

end Sys2Proof.Machine
end

section
/-! SUPPORT. Entries opened, stored in and completed; the resync; the events of the sorter that keep a frame (R21 to R36). -/

namespace Sys2Proof.Machine

/-! ### Entries -/

theorem newer_asymm {a b : Seq16} (h : newer a b = true) : newer b a = false := by
  unfold newer at *
  simp only [Bool.and_eq_true, decide_eq_true_eq, Bool.and_eq_false_iff, decide_eq_false_iff_not] at *
  bv_omega

theorem Entry.complete_of_open {e : Entry} (h : e.completion = none) (c : Completion) :
    e.complete c = { e with completion := some c, timer := none } := by
  unfold Entry.complete
  rw [h]

theorem Entry.complete_of_complete {e : Entry} (h : e.completion ≠ none) (c : Completion) : e.complete c = e := by
  unfold Entry.complete
  split
  next hnone => exact absurd hnone h
  · rfl

theorem Entry.complete_ne_none (e : Entry) (c : Completion) : (e.complete c).completion ≠ none := by
  unfold Entry.complete
  split
  · simp
  next h => simp [h]

theorem Entry.complete_expected (e : Entry) (c : Completion) : (e.complete c).expected = e.expected := by
  unfold Entry.complete
  split <;> rfl

/-- The expected points with a frame stored in one point's buffer. -/
def Entry.stored (e : Entry) (p : PointId) (x : TaggedFrame) : Entry :=
  { e with expected := e.expected.map fun y => if y.point = p then { y with frame := some x } else y }

theorem Entry.store_eq (e : Entry) (p : PointId) (x : TaggedFrame) :
    e.store p x = if (e.stored p x).full = true then (e.stored p x).complete .allArrived else e.stored p x := rfl

theorem Entry.store_expected (e : Entry) (p : PointId) (x : TaggedFrame) :
    (e.store p x).expected = e.expected.map fun y => if y.point = p then { y with frame := some x } else y := by
  rw [Entry.store_eq]
  split
  · exact Entry.complete_expected _ _
  · rfl

theorem Entry.full_iff (e : Entry) : e.full = true ↔ ∀ y ∈ e.expected, y.frame ≠ none := by
  unfold Entry.full
  rw [List.all_eq_true]
  exact forall₂_congr fun y _ => Option.isSome_iff_ne_none

/-- An entry whose last frame has come completes with ALL_ARRIVED (R24). -/
theorem Entry.store_of_full {e : Entry} {p : PointId} {x : TaggedFrame} (hfull : ∀ y ∈ (e.store p x).expected, y.frame ≠ none)
    (hopen : e.completion = none) : (e.store p x).completion = some .allArrived ∧ (e.store p x).timer = none := by
  rw [Entry.store_expected] at hfull
  have full : (e.stored p x).full = true := (Entry.full_iff _).mpr hfull
  have still : (e.stored p x).completion = none := hopen
  rw [Entry.store_eq, if_pos full, Entry.complete_of_open still]
  exact ⟨rfl, rfl⟩

theorem State.mem_expectedNow {s : State} {p : PointId} {x : TaggedFrame} {y : Expected} : y ∈ s.expectedNow p x ↔
    ∃ i : PointId, s.profiles[i].active = true ∧
      y = ⟨i, s.profiles[i].mask, s.profiles[i].invert, false, if i = p then some x else none⟩ := by
  unfold State.expectedNow
  simp only [List.mem_filterMap, List.mem_finRange, true_and, Option.ite_none_right_eq_some, Option.some.injEq]
  exact exists_congr fun i => and_congr_right fun _ => eq_comm

theorem State.newEntry_eq (s : State) (p : PointId) (x : TaggedFrame) : s.newEntry p x =
    if (s.expectedNow p x).all Expected.arrived = true then
      { seq := x.frame.seq, expected := s.expectedNow p x, completion := some .allArrived, handed := false, timer := none }
    else
      { seq := x.frame.seq, expected := s.expectedNow p x, completion := none, handed := false
        timer := some s.sorter.timeout } := rfl

theorem State.expectedNow_arrived (s : State) (p : PointId) (x : TaggedFrame) :
    (s.expectedNow p x).all Expected.arrived = true ↔ ∀ i : PointId, s.profiles[i].active = true → i = p := by
  rw [List.all_eq_true]
  constructor
  · intro h i hi
    have arrived := h _ (State.mem_expectedNow.mpr ⟨i, hi, rfl⟩)
    by_contra hne
    simp [Expected.arrived, hne] at arrived
  · intro h y hy
    obtain ⟨i, hi, rfl⟩ := State.mem_expectedNow.mp hy
    simp [Expected.arrived, h i hi]

/-- The new entry is one that its frame opens, handed off or not (R21, R24). -/
theorem State.newEntry_opens (s : State) (p : PointId) (x : TaggedFrame) (b : Bool) :
    s.Opens { s.newEntry p x with handed := b } p x := by
  have expected : (s.newEntry p x).expected = s.expectedNow p x := by
    rw [State.newEntry_eq]
    split <;> rfl
  refine ⟨(s.newEntry_spec p x).1, fun i => ?_, fun y hy => ?_, fun hopen => ?_, ?_⟩
  · simp only [expected, List.mem_map, State.mem_expectedNow]
    constructor
    · rintro ⟨y, ⟨j, hj, rfl⟩, rfl⟩
      exact hj
    · exact fun hi => ⟨_, ⟨i, hi, rfl⟩, rfl⟩
  · rw [expected] at hy
    obtain ⟨i, hi, rfl⟩ := State.mem_expectedNow.mp hy
    exact ⟨rfl, rfl, rfl, rfl⟩
  · rw [State.newEntry_eq] at hopen ⊢
    split at hopen
    · cases hopen
    next h => rw [if_neg h]
  · rw [State.newEntry_eq, ← s.expectedNow_arrived p x]
    split
    next h => exact iff_of_true rfl h
    next h => exact iff_of_false (by simp) h

theorem State.openEntry_spec (s : State) (p : PointId) (x : TaggedFrame) :
    (s.openEntry p x).sorter.queue.length = s.sorter.queue.length + 1 ∧
      (∀ e ∈ s.sorter.queue, e ∈ (s.openEntry p x).sorter.queue) ∧ s.newEntry p x ∈ (s.openEntry p x).sorter.queue := by
  have queue : (s.openEntry p x).sorter.queue =
      entriesBefore s.sorter.queue x.frame.seq ++ s.newEntry p x :: entriesBehind s.sorter.queue x.frame.seq := rfl
  have whole := entriesBefore_append_entriesBehind s.sorter.queue x.frame.seq
  rw [queue]
  refine ⟨?_, fun e he => ?_, by simp⟩
  · rw [← congrArg List.length whole]
    simp only [List.length_append, List.length_cons]
    omega
  · rw [← whole] at he
    simp only [List.mem_append, List.mem_cons] at he ⊢
    exact he.imp_right Or.inr

/-! ### SORTER_TAKE of a frame that is kept -/

section
variable {s : State} {l : LinkId} {x : TaggedFrame} {p : PointId}

theorem State.openEntry_handed (s : State) (p : PointId) (x : TaggedFrame) :
    (s.openEntry p x).tryHandOff.sorter.queue.length = s.sorter.queue.length + 1 ∧
      (s.openEntry p x).tryHandOff.sorter.consecutiveLate = 0 ∧
      (∀ f ∈ s.sorter.queue, f.seq ∈ (s.openEntry p x).tryHandOff.sorter.queue.map Entry.seq) ∧
      ∃ e ∈ (s.openEntry p x).tryHandOff.sorter.queue, s.Opens e p x := by
  obtain ⟨hlength, hold, hnew⟩ := s.openEntry_spec p x
  obtain ⟨hrest, hseqs, hentries⟩ := (s.openEntry p x).tryHandOff_sorter
  refine ⟨(State.tryHandOff_length _).trans hlength, by rw [hrest]; rfl, fun f hf => ?_, ?_⟩
  · rw [hseqs]
    exact List.mem_map_of_mem (hold f hf)
  · obtain ⟨b, hb⟩ := hentries _ hnew
    exact ⟨_, hb, s.newEntry_opens p x b⟩

theorem State.arrive_of_force (h : s.behindHorizon x.frame.seq = false) (hnew : x.frame.seq ∉ s.sorter.queue.map Entry.seq)
    (hactive : s.profiles[p].active = true) (hplace : placeable s.sorter.queue x.frame.seq = true) {e : Entry}
    {tail : List Entry} (hq : s.sorter.queue = e :: tail) (hfull : tail.length = 3) (hnewer : newer x.frame.seq e.seq = true) :
    s.arrive l p x =
      s.putSorter { s.sorter with queue := e.complete .forced :: tail, heldFrame := some ⟨l, x⟩ } := by
  have full : ¬s.sorter.queue.length < 4 := by rw [hq, List.length_cons, hfull]; decide
  rw [State.arrive_of_new h hnew, if_neg (ne_false_of_eq_true hactive), if_neg (ne_false_of_eq_true hplace), if_neg full]
  have forced : s.forceAndHold l x =
      s.putSorter { s.sorter with queue := e.complete .forced :: tail, heldFrame := some ⟨l, x⟩ } := by
    unfold State.forceAndHold
    rw [hq]
  rw [hq, List.head?_cons, Option.elim_some, if_neg (by rw [newer_asymm hnewer]; decide), forced]

theorem State.storeFrame_queue (s : State) (p : PointId) (x : TaggedFrame) : (s.storeFrame p x).sorter.queue =
    s.sorter.queue.map fun e => if e.seq = x.frame.seq then e.store p x else e := rfl

theorem State.storeFrame_seqs (s : State) (p : PointId) (x : TaggedFrame) :
    (s.storeFrame p x).sorter.queue.map Entry.seq = s.sorter.queue.map Entry.seq := by
  rw [State.storeFrame_queue, List.map_map]
  refine List.map_congr_left fun e _ => ?_
  simp only [Function.comp]
  split
  · exact (e.store_kept p x).seq
  · rfl

end

/-- Settles O21. -/
theorem sorterTakeKeepsFrame : Obligations.SorterTakeKeepsFrame := by
  refine ⟨fun s l hr hheld => ?_, fun s l x rest p hr hheld hfifo hp hbehind => ?_⟩
  · rw [exec_of_ready _ hr]
    exact congrArg Host.Outcome.next (State.sorterTake_of_held hheld)
  let u := s.putLink l { s.links[l] with fifo := rest }
  have heffect : commandEffect (.sorterTake l) s = (u.arrive l p x).tryHandOff := State.sorterTake_of_mapped hheld hfifo hp
  have hlink : (commandEffect (.sorterTake l) s).links[l] = { s.links[l] with fifo := rest } :=
    State.sorterTake_link hheld hfifo
  refine ⟨fun hnew hactive hplace => ⟨fun hroom => ?_, fun e tail hq hfull hnewer => ?_⟩, fun e he hfree hempty => ?_⟩
  · refine ⟨_, exec_of_ready _ hr, hlink, ?_⟩
    rw [heffect, State.arrive_of_opening (s := u) hbehind hnew hactive hplace hroom]
    obtain ⟨hlength, hlate, -, hopens⟩ := u.openEntry_handed p x
    exact ⟨hlength, hlate, hopens⟩
  · have forced := State.arrive_of_force (s := u) (l := l) hbehind hnew hactive hplace hq hfull hnewer
    have complete := e.complete_ne_none .forced
    have causes : (e.completion = none → (e.complete .forced).completion = some .forced ∧ (e.complete .forced).timer = none) ∧
        (e.completion ≠ none → (e.complete .forced).completion = e.completion ∧ (e.complete .forced).timer = e.timer) := by
      refine ⟨fun hopen => ?_, fun hdone => ?_⟩
      · rw [Entry.complete_of_open hopen]
        exact ⟨rfl, rfl⟩
      · rw [Entry.complete_of_complete hdone]
        exact ⟨rfl, rfl⟩
    generalize hv : u.putSorter { u.sorter with queue := e.complete .forced :: tail, heldFrame := some ⟨l, x⟩ } = v at forced
    have hqueue : v.sorter = { s.sorter with queue := e.complete .forced :: tail, heldFrame := some ⟨l, x⟩ } := hv ▸ rfl
    have hacc : v.accounting = s.accounting := hv ▸ rfl
    have hwarm : v.control.warm = s.control.warm := hv ▸ rfl
    by_cases hidle : s.accounting = none ∧ s.control.warm = false
    · refine ⟨_, { e.complete .forced with handed := true }, exec_of_ready _ hr, hlink, ?_⟩
      rw [heffect, forced, State.tryHandOff_of_ready (by rw [hqueue]) (hacc.trans hidle.1) complete (hwarm.trans hidle.2),
        if_pos hidle]
      refine ⟨?_, (e.complete_kept .forced).seq, e.complete_expected .forced, causes.1, causes.2, rfl, _, rfl, ?_, rfl⟩
      · unfold State.handedOff
        rw [hqueue]
      · rw [hqueue]
    · have waits : v.tryHandOff = v :=
        State.tryHandOff_of_waiting fun ha hw => absurd ⟨hacc.symm.trans ha, hwarm.symm.trans hw⟩ hidle
      refine ⟨_, e.complete .forced, exec_of_ready _ hr, hlink, ?_⟩
      rw [heffect, forced, waits, if_neg hidle]
      exact ⟨hqueue, (e.complete_kept .forced).seq, e.complete_expected .forced, causes.1, causes.2,
        (e.complete_kept .forced).handed, hacc⟩
  · refine ⟨_, exec_of_ready _ hr, hlink, ?_⟩
    obtain ⟨y, hy, hframe⟩ := hempty
    have notArrived : ¬y.arrived = true := by simp [Expected.arrived, hframe]
    have stored : u.arrive l p x = u.storeFrame p x := by
      rw [State.arrive_of_entry (s := u) hbehind he hfree, hy, Option.elim_some, if_neg notArrived]
    have hmem : e ∈ s.sorter.queue := List.mem_of_find?_eq_some he
    have hseq : e.seq = x.frame.seq := by simpa using List.find?_some he
    have member : e.store p x ∈ (u.storeFrame p x).sorter.queue :=
      List.mem_map.mpr ⟨e, hmem, by rw [if_pos hseq]⟩
    obtain ⟨hrest, hseqs, hentries⟩ := (u.storeFrame p x).tryHandOff_sorter
    obtain ⟨b, hb⟩ := hentries _ member
    rw [heffect, stored]
    exact ⟨hseqs.trans (u.storeFrame_seqs p x), by rw [hrest]; rfl, _, hb, (e.store_kept p x).seq.trans hseq,
      e.store_expected p x, Entry.store_of_full⟩

/-! ### The resync -/

/-- The sorter after a resync (R35). -/
def Sorter.resynced (x : Sorter) : Sorter :=
  { x with
    queue := x.queue.filter Entry.handed
    resyncMark := x.resyncMark || x.queue.any Entry.handed
    lastHanded := none
    consecutiveLate := 0
    discarded := x.discarded + BitVec.ofNat 32 (x.queue.filter fun e => !e.handed).length }

theorem State.resync_eq (s : State) (l : LinkId) (f : WindowFrame) : s.resync l f =
    (s.putSorter s.sorter.resynced).push .sequenceResync (BitVec.ofNat 32 l.val)
      (BitVec.ofNat 32 (f.seq.toNat + 65536 * f.port.val)) (seqWord s.sorter.lastHanded)
      (BitVec.ofNat 32 (s.sorter.queue.filter fun e => !e.handed).length) noCopy := rfl

/-- The 64th LATE drop in a row takes the resync (R34). -/
theorem State.dropLate_of_last {s : State} (h : s.sorter.consecutiveLate = 63) (l : LinkId) (f : WindowFrame) :
    s.dropLate l f = (s.putSorter { s.sorter with late := s.sorter.late + 1, consecutiveLate := 64 }).resync l f := by
  unfold State.dropLate
  rw [h]
  exact if_pos rfl

theorem State.resync_sorter (s : State) (l : LinkId) (f : WindowFrame) : (s.resync l f).sorter = s.sorter.resynced := by
  rw [State.resync_eq]
  exact (State.push_pushed _ _ _ _ _ _ _).sorter

theorem or_flag_latched {t : State} {w : BitVec 6} {c : Cause} (h : t.notices.latched = w ||| c.flag) : t.latched c = true := by
  have flag : c.flag.getLsbD c.index.val = true := by
    cases c <;> rfl
  unfold State.latched
  rw [h, BitVec.getLsbD_or, flag, Bool.or_true]

/-- Settles O22. -/
theorem resyncDiscardsQueue : Obligations.ResyncDiscardsQueue := by
  intro s l x rest p hr hok hheld hfifo hp hlate hlast
  let u := s.putLink l { s.links[l] with fifo := rest }
  let v := u.putSorter { u.sorter with late := u.sorter.late + 1, consecutiveLate := 64 }
  have dropped : u.arrive l p x = v.resync l x.frame := by
    rw [← State.dropLate_of_last (s := u) hlast]
    rcases hlate with hbehind | ⟨hahead, hnew, hactive, hplace⟩
    · exact State.arrive_of_behind (s := u) hbehind
    · refine State.arrive_of_misplaced (s := u) hahead hnew hactive (hplace.imp_right ?_)
      rintro ⟨hfull, e, he, hnewer⟩
      refine ⟨hfull, fun f hf => ?_⟩
      rw [Option.some.inj (he.symm.trans hf)] at hnewer
      exact hnewer
  have hsorter : (v.resync l x.frame).sorter = v.sorter.resynced := v.resync_sorter l x.frame
  have hany : s.sorter.queue.any Entry.handed = s.accounting.isSome := hok.inOrder.any_handed
  have waits : (v.resync l x.frame).tryHandOff = v.resync l x.frame := by
    refine State.tryHandOff_of_waiting fun hidle _ e he => ?_
    have idle : s.accounting = none := by
      rw [(v.resync_touches l x.frame).accounting (by decide)] at hidle
      exact hidle
    rw [hsorter] at he
    have handed : e ∈ s.sorter.queue ∧ e.handed = true := List.mem_filter.mp (List.mem_of_mem_head? he)
    rw [idle] at hany
    exact absurd handed.2 (List.any_eq_false.mp hany e handed.1)
  have heffect : commandEffect (.sorterTake l) s = v.resync l x.frame := by
    have taken : commandEffect (.sorterTake l) s = (u.arrive l p x).tryHandOff := State.sorterTake_of_mapped hheld hfifo hp
    rw [taken, dropped, waits]
  refine ⟨_, exec_of_ready _ hr, ?_⟩
  rw [heffect, hsorter]
  refine ⟨rfl, rfl, rfl, rfl, rfl, ?_, ?_, fun hfull => ?_, fun n hn => ?_⟩
  · have mark : v.sorter.resynced.resyncMark = (s.sorter.resyncMark || s.sorter.queue.any Entry.handed) := rfl
    rw [mark, Bool.or_eq_true, hany, Option.isSome_iff_ne_none]
  · rw [State.resync_eq]
    exact or_flag_latched (State.push_latched _ _ _ _ _ _ _)
  · rw [State.resync_eq]
    exact (State.push_exceptions_of_full (v.putSorter v.sorter.resynced) _ _ _ _ _ _ hfull).1
  · have room : (v.putSorter v.sorter.resynced).exceptions.top = n.val + 1 := hn
    rw [State.resync_eq, State.push_exceptions_of_room _ _ _ _ _ _ _ n room]
    dsimp only
    rw [getElem_fin_set_self]
    exact ⟨rfl, rfl, rfl, rfl, rfl, rfl, rfl⟩

/-! ### ALIGNMENT_TIMER_EXPIRY -/

/-- Settles O23. -/
theorem alignmentExpiryCompletesEntry : Obligations.AlignmentExpiryCompletesEntry := by
  intro s e hr hok he htimer
  have hopen : e.completion = none := (hok.inOrder.entries e he).1.mp (Option.isSome_iff_ne_none.mpr htimer)
  let expire (f : Entry) : Entry := if f.seq = e.seq ∧ f.timer.isSome then f.complete .timeout else f
  have expired : expire e = { e with completion := some .timeout, timer := none } := by
    rw [← Entry.complete_of_open hopen]
    exact if_pos ⟨rfl, Option.isSome_iff_ne_none.mpr htimer⟩
  let u : State := { s with sorter := { s.sorter with queue := s.sorter.queue.map expire } }
  have heffect : commandEffect (.alignmentTimerExpiry e.seq) s = u.tryHandOff := rfl
  have keptSeq (f : Entry) : (expire f).seq = f.seq := by
    by_cases h : f.seq = e.seq ∧ f.timer.isSome
    · exact (congrArg Entry.seq (if_pos h)).trans (f.complete_kept .timeout).seq
    · exact congrArg Entry.seq (if_neg h)
  have seqs : u.sorter.queue.map Entry.seq = s.sorter.queue.map Entry.seq := by
    refine (List.map_map ..).trans (List.map_congr_left fun f _ => keptSeq f)
  obtain ⟨-, hseqs, hentries⟩ := u.tryHandOff_sorter
  refine ⟨_, exec_of_ready _ hr, ?_⟩
  rw [heffect]
  refine ⟨hseqs.trans seqs, ?_⟩
  by_cases hhead : s.sorter.queue.head? = some e ∧ s.accounting = none ∧ s.control.warm = false
  · obtain ⟨hhead, hidle, hwarm⟩ := hhead
    obtain ⟨rest, hq⟩ : ∃ rest, s.sorter.queue = e :: rest := List.head?_eq_some_iff.mp hhead
    have queue : u.sorter.queue = expire e :: rest.map expire := by
      change s.sorter.queue.map expire = _
      rw [hq]
      rfl
    rw [State.tryHandOff_of_ready queue hidle (by rw [expired]; simp) hwarm]
    refine ⟨_, List.mem_cons_self, ?_⟩
    rw [expired]
    exact ⟨rfl, rfl, rfl, rfl, fun _ _ _ => ⟨rfl, _, rfl, rfl, rfl⟩⟩
  · obtain ⟨b, hb⟩ := hentries (expire e) (List.mem_map_of_mem he)
    rw [expired] at hb
    exact ⟨_, hb, rfl, rfl, rfl, rfl, fun h1 h2 h3 => absurd ⟨h1, h2, h3⟩ hhead⟩

/-! ### RELEASE -/

section
variable {s : State}

/-- The handed entry leaves (R33, R36). -/
theorem State.dropHanded_eq {e : Entry} {rest : List Entry} (hq : s.sorter.queue = e :: rest) : s.dropHanded =
    { s with
      sorter := { s.sorter with queue := rest, lastHanded := s.releasedLast e, resyncMark := false }
      accounting := none } := by
  unfold State.dropHanded State.releasedLast
  rw [hq]

/-- A frame that finds room in the queue is not held. -/
theorem State.arrive_heldFrame {l : LinkId} {p : PointId} {x : TaggedFrame} (hroom : s.sorter.queue.length < 4) :
    (s.arrive l p x).sorter.heldFrame = s.sorter.heldFrame := by
  have late : (s.dropLate l x.frame).sorter.heldFrame = s.sorter.heldFrame := by
    unfold State.dropLate
    dsimp only
    split
    · rw [State.resync_sorter]
      rfl
    · rfl
  unfold State.arrive
  dsimp only
  split
  · exact late
  · split
    · split
      · exact late
      · split
        · rfl
        · split <;> rfl
    · split
      · rfl
      · split
        · exact late
        · rfl

theorem State.handleFrame_heldFrame {l : LinkId} {x : TaggedFrame} (hroom : s.sorter.queue.length < 4) :
    (s.handleFrame l x).sorter.heldFrame = s.sorter.heldFrame := by
  unfold State.handleFrame
  split
  · rfl
  · exact State.arrive_heldFrame hroom

/-- A sequence newer than the last handed one is ahead of the horizon while no entry is handed (R22). -/
theorem State.behindHorizon_of_newer {q : Seq16} (hfree : s.handedEntry = none)
    (h : ∀ r, s.sorter.lastHanded = some r → newer q r = true) : s.behindHorizon q = false := by
  unfold State.behindHorizon State.horizon
  rw [hfree]
  dsimp only
  split
  next r hr => rw [h r hr, Bool.not_true]
  · rfl

theorem State.endStall_of_free (h : s.sorter.heldFrame = none) : s.endStall = s := by
  unfold State.endStall
  rw [h]

theorem State.endStall_of_held {h : HeldFrame} (hheld : s.sorter.heldFrame = some h) :
    s.endStall = { s with sorter := { s.sorter with heldFrame := none } }.handleFrame h.link h.item := by
  unfold State.endStall
  rw [hheld]

/-- After a release no frame is held. -/
theorem State.endStall_heldFrame (hroom : s.sorter.queue.length < 4) : s.endStall.sorter.heldFrame = none := by
  cases hheld : s.sorter.heldFrame with
  | none => rw [State.endStall_of_free hheld, hheld]
  | some h =>
    rw [State.endStall_of_held hheld]
    exact State.handleFrame_heldFrame (s := { s with sorter := { s.sorter with heldFrame := none } }) hroom

/-- What the hand-off does while accounting is IDLE: a complete head is handed unless a warm reset is in progress (R31). -/
theorem State.tryHandOff_of_idle (hidle : s.accounting = none) :
    (s.tryHandOff.accounting ≠ none ↔
      ∃ f, s.tryHandOff.sorter.queue.head? = some f ∧ f.completion ≠ none ∧ s.control.warm = false) ∧
    ∀ a, s.tryHandOff.accounting = some a → a.carriedLast = s.tryHandOff.sorter.lastHanded ∧ a.calculation = none := by
  by_cases h : ∃ e rest, s.sorter.queue = e :: rest ∧ e.completion ≠ none ∧ s.control.warm = false
  · obtain ⟨e, rest, hq, hc, hw⟩ := h
    rw [State.tryHandOff_of_ready hq hidle hc hw]
    refine ⟨iff_of_true (by simp [State.handedOff]) ⟨_, rfl, hc, hw⟩, fun a ha => ?_⟩
    cases ha
    exact ⟨rfl, rfl⟩
  · have waits : s.tryHandOff = s := by
      refine State.tryHandOff_of_waiting fun _ hw e he => ?_
      obtain ⟨rest, hq⟩ := List.head?_eq_some_iff.mp he
      by_contra hc
      exact h ⟨e, rest, hq, hc, hw⟩
    rw [waits]
    refine ⟨iff_of_false (fun hne => hne hidle) ?_, fun a ha => ?_⟩
    · rintro ⟨f, hf, hc, hw⟩
      obtain ⟨rest, hq⟩ := List.head?_eq_some_iff.mp hf
      exact h ⟨f, rest, hq, hc, hw⟩
    · rw [hidle] at ha
      cases ha

end

/-- Settles O24. -/
theorem releaseEndsAccounting : Obligations.ReleaseEndsAccounting := by
  intro s a e rest hr hok ha hfinished hq
  have order := hok.inOrder
  have busy : s.accounting.isSome = true := by rw [ha]; rfl
  have hroom : rest.length < 4 := by
    have length := order.length_le
    rw [hq, List.length_cons] at length
    omega
  have free : ∀ f ∈ rest, f.handed = false := (order.handed_cons hq).2
  let u : State := { s with
    sorter := { s.sorter with queue := rest, lastHanded := s.releasedLast e, resyncMark := false }
    accounting := none }
  have hu : s.dropHanded = u := State.dropHanded_eq hq
  have heffect : commandEffect .release s = u.endStall.tryHandOff.refreshQuota := by
    have released : commandEffect .release s = s.dropHanded.endStall.tryHandOff.refreshQuota := by
      change s.release = _
      unfold State.release
      rw [ha]
      exact if_pos hfinished
    rw [released, hu]
  have vok : u.endStall.QueueOk := hu ▸ hok.endStall_dropHanded busy
  have tok : u.endStall.tryHandOff.QueueOk := vok.tryHandOff
  have touches : u.Touches Part.ofFrame u.endStall := u.endStall_touches
  have vidle : u.endStall.accounting = none := touches.accounting (by decide)
  have vwarm : u.endStall.control = s.control := touches.control (by decide)
  obtain ⟨hrest, hseqs, -⟩ := u.endStall.tryHandOff_sorter
  obtain ⟨hready, hcarried⟩ := State.tryHandOff_of_idle vidle
  refine ⟨_, exec_of_ready _ hr, ?_⟩
  rw [heffect]
  refine ⟨rfl, rfl, ?_, ?_, ?_, fun f hf => ?_, hcarried, fun hheld => ?_, fun h hheld => ?_⟩
  · change u.endStall.tryHandOff.sorter.heldFrame = none
    rw [hrest]
    exact State.endStall_heldFrame hroom
  · change u.endStall.tryHandOff.sorter.resyncMark = false
    rw [hrest]
    have mark := vok.inOrder.mark
    rw [vidle] at mark
    exact Bool.eq_false_iff.mpr fun hm => absurd (mark hm).1 (by decide)
  · rw [← vwarm]
    exact hready
  · obtain ⟨tail, hqueue⟩ := List.head?_eq_some_iff.mp hf
    change f.handed = true ↔ u.endStall.tryHandOff.accounting ≠ none
    rw [(tok.inOrder.handed_cons hqueue).1, Option.isSome_iff_ne_none]
  · have stays : u.endStall = u := State.endStall_of_free hheld
    change u.endStall.tryHandOff.sorter.lastHanded = _ ∧ u.endStall.tryHandOff.sorter.queue.map Entry.seq = _
    rw [hseqs, hrest, stays]
    exact ⟨rfl, rfl⟩
  · let w : State := { u with sorter := { u.sorter with heldFrame := none } }
    have handled : u.endStall = w.handleFrame h.link h.item := State.endStall_of_held hheld
    refine ⟨fun hunmapped => ?_, fun p hp hnewer hnew => ?_⟩
    · have dropped : u.endStall = w.dropUnmapped := handled.trans (State.handleFrame_of_unmapped hunmapped)
      change u.endStall.tryHandOff.sorter.lastHanded = _ ∧ u.endStall.tryHandOff.sorter.queue.map Entry.seq = _ ∧
        u.endStall.tryHandOff.sorter.unmapped = _
      rw [hseqs, hrest, dropped]
      exact ⟨rfl, rfl, rfl⟩
    · have arrived : u.endStall = w.arrive h.link p h.item := handled.trans (State.handleFrame_of_mapped hp)
      have idle : w.handedEntry = none := List.find?_eq_none.mpr fun f hf => by rw [free f hf]; decide
      have ahead : w.behindHorizon h.item.frame.seq = false := State.behindHorizon_of_newer idle hnewer
      refine ⟨fun hinactive => ?_, fun hactive hplace => ?_⟩
      · have dropped : u.endStall = w.dropUnexpected := by
          rw [arrived, State.arrive_of_new ahead hnew]
          exact if_pos hinactive
        change u.endStall.tryHandOff.sorter.lastHanded = _ ∧ u.endStall.tryHandOff.sorter.queue.map Entry.seq = _ ∧
          u.endStall.tryHandOff.sorter.unexpected = _
        rw [hseqs, hrest, dropped]
        exact ⟨rfl, rfl, rfl⟩
      · have opened : u.endStall = w.openEntry p h.item :=
          arrived.trans (State.arrive_of_opening ahead hnew hactive hplace hroom)
        have last : u.endStall.tryHandOff.sorter.lastHanded = s.releasedLast e := by
          rw [hrest, opened]
          rfl
        rw [opened] at last
        rw [opened]
        obtain ⟨hlength, hlate, hold, hopens⟩ := w.openEntry_handed p h.item
        exact ⟨last, hlate, hlength, hold, hopens⟩

end Sys2Proof.Machine
end

section
/-! SUPPORT. The window calculator: angles, point results, the balance result and the polarity watch (R43 to R59). -/

namespace Sys2Proof.Machine

/-! ### Angles -/

theorem cosTable_half_turn (d : BitVec 16) : cosTable (d + 32768) = -cosTable d := by
  have hd := d.isLt
  have turned : (d + 32768 : BitVec 16).toNat = if d.toNat < 32768 then d.toNat + 32768 else d.toNat - 32768 := by
    rw [BitVec.toNat_add]
    split <;> simp <;> omega
  unfold cosTable
  dsimp only
  rw [turned]
  generalize d.toNat = n at *
  by_cases h1 : n ≤ 16384
  · rw [if_pos (show n < 32768 by omega), if_pos h1]
    by_cases h0 : n = 0
    · subst h0
      rfl
    · rw [if_neg (by omega), if_neg (by omega), if_pos (by omega), Nat.add_sub_cancel]
  · by_cases h2 : n ≤ 32768
    · rw [if_neg h1, if_pos h2, neg_neg]
      by_cases hn : n = 32768
      · subst hn
        rfl
      · rw [if_pos (show n < 32768 by omega), if_neg (by omega), if_neg (by omega), if_neg (by omega)]
        exact congrArg quarterCos (by omega)
    · rw [if_neg (show ¬n < 32768 by omega), if_neg h1, if_neg h2]
      by_cases h3 : n ≤ 49152
      · rw [if_pos h3, neg_neg, if_pos (by omega)]
      · rw [if_neg h3, if_neg (by omega), if_pos (by omega)]
        exact congrArg (fun k => -quarterCos k) (by omega)

theorem sinTable_half_turn (d : BitVec 16) : sinTable (d + 32768) = -sinTable d := by
  have swap : d + 32768 - 16384 = d - 16384 + 32768 := by bv_omega
  unfold sinTable
  rw [swap, cosTable_half_turn]

/-- INVERT takes half a turn from the angle difference (R44, R49). -/
theorem Phasor.delta_invert (p : Phasor) : p.delta true = p.delta false + 32768 := by
  unfold Phasor.delta
  simp only [if_true, Bool.false_eq_true, if_false]
  bv_omega

theorem Phasor.active_invert (p : Phasor) : p.active true = -p.active false := by
  unfold Phasor.active
  rw [Phasor.delta_invert, cosTable_half_turn, mul_neg]

theorem Phasor.reactive_invert (p : Phasor) : p.reactive true = -p.reactive false := by
  unfold Phasor.reactive
  rw [Phasor.delta_invert, sinTable_half_turn, mul_neg]

theorem Phases.activeSum_invert (p : Phases) : p.activeSum true = -p.activeSum false := by
  unfold Phases.activeSum
  simp only [Phasor.active_invert]
  omega

theorem Phases.reactiveSum_invert (p : Phases) : p.reactiveSum true = -p.reactiveSum false := by
  unfold Phases.reactiveSum
  simp only [Phasor.reactive_invert]
  omega

/-- Settles O30. -/
theorem invertReversesSums : Obligations.InvertReversesSums := by
  refine ⟨by decide +kernel, by decide +kernel, fun d => ⟨cosTable_half_turn d, sinTable_half_turn d⟩, fun f =>
    ⟨f.fundamental.activeSum_invert, f.fundamental.reactiveSum_invert, fun h => ?_⟩⟩
  unfold WindowFrame.harmonicSum
  rw [Option.map_map]
  congr 1
  funext y
  exact y.phases.activeSum_invert

/-! ### Point results -/

theorem FrameStatus.invalid_iff (st : FrameStatus) : st.invalid = true ↔ st.unlock = true ∨ st.gap = true ∨ st.range = true := by
  unfold FrameStatus.invalid
  rw [Bool.or_eq_true, Bool.or_eq_true, or_assoc]

/-- The frame of a point that arrived without marks (R42). -/
theorem Expected.validFrame_eq_some {x : Expected} {f : WindowFrame} : x.validFrame = some f ↔
    ∃ t, x.frame = some t ∧ t.status.invalid = false ∧ f = t.frame := by
  unfold Expected.validFrame
  cases hx : x.frame with
  | none => simp
  | some t =>
    dsimp only
    split
    next ht =>
      refine iff_of_false (by simp) ?_
      rintro ⟨u, hu, hvalid, -⟩
      rw [Option.some.inj hu, hvalid] at ht
      cases ht
    next ht =>
      constructor
      · exact fun h => ⟨t, rfl, Bool.eq_false_iff.mpr ht, (Option.some.inj h).symm⟩
      · rintro ⟨u, hu, -, rfl⟩
        rw [Option.some.inj hu]

theorem Expected.validFrame_isSome (x : Expected) : x.validFrame.isSome = true ↔
    ∃ t, x.frame = some t ∧ t.status.unlock = false ∧ t.status.gap = false ∧ t.status.range = false := by
  have unmarked (st : FrameStatus) : st.invalid = false ↔ st.unlock = false ∧ st.gap = false ∧ st.range = false := by
    rw [← Bool.not_eq_true, FrameStatus.invalid_iff]
    simp only [not_or, Bool.not_eq_true]
  rw [Option.isSome_iff_exists]
  constructor
  · rintro ⟨f, hf⟩
    obtain ⟨t, ht, hvalid, -⟩ := Expected.validFrame_eq_some.mp hf
    exact ⟨t, ht, (unmarked _).mp hvalid⟩
  · rintro ⟨t, ht, hvalid⟩
    exact ⟨t.frame, Expected.validFrame_eq_some.mpr ⟨t, ht, (unmarked _).mpr hvalid, rfl⟩⟩

theorem Expected.status_of_absent {x : Expected} (h : x.frame = none) : x.status = .absent := by
  unfold Expected.status
  rw [h]

theorem Expected.status_of_frame {x : Expected} {t : TaggedFrame} (h : x.frame = some t) :
    x.status = if t.status.invalid = true then .invalid else .valid (pointEnergies t.frame x.mask x.invert) t.status.clip := by
  unfold Expected.status
  rw [h]

/-! ### The calculation -/

/-- The calculation of an entry (R41). -/
def State.calculationOf (s : State) (e : Entry) : Calculation :=
  { points := e.expected.map Expected.result, balance := s.balanceResult e }

theorem State.calculate_eq {s : State} {a : Accounting} {e : Entry} (ha : s.accounting = some a) (hc : a.calculation = none)
    (he : s.handedEntry = some e) : s.calculate =
      e.expected.foldl (State.watchPoint e.seq)
        { s with accounting := some { a with calculation := some (s.calculationOf e) } } := by
  unfold State.calculate
  rw [ha, he]
  simp only [hc, Option.isSome_none, Bool.false_eq_true, if_false]
  rfl

/-- The watches' events of a window leave the accounting alone. -/
theorem State.foldl_watchPoint_touches (s : State) (q : Seq16) (xs : List Expected) :
    s.Touches [.watches, .exceptions, .latched, .exchangeMarks] (xs.foldl (State.watchPoint q) s) :=
  .foldl (fun u x => State.watchPoint_touches q u x) xs s

theorem State.calculate_accounting {s : State} {a : Accounting} {e : Entry} (ha : s.accounting = some a)
    (hc : a.calculation = none) (he : s.handedEntry = some e) :
    s.calculate.accounting = some { a with calculation := some (s.calculationOf e) } := by
  rw [State.calculate_eq ha hc he]
  exact (State.foldl_watchPoint_touches _ _ _).accounting (by decide)

/-! ### The polarity watch -/

/-- The watch of an expected point after its window (R58). -/
def State.watched (s : State) (q : Seq16) (x : Expected) : Watch :=
  if s.suspicious x = true then s.watches[x.point].advance q else { s.watches[x.point] with count := 0, armed := true }

/-- The window is the 25th of an armed run (R58, R59). -/
def State.alarms (s : State) (x : Expected) : Bool :=
  s.suspicious x && s.watches[x.point].count == 24 && s.watches[x.point].armed

/-- The push of a POLARITY_SUSPECT (R59). -/
def State.pushSuspect (s : State) (q : Seq16) (x : Expected) (runStart : Option Seq16) : State :=
  s.push .polaritySuspect (BitVec.ofNat 32 x.point.val) (seqWord (some q)) (seqWord runStart)
    (BitVec.ofNat 32 (bit x.invert)) noCopy

/-- One expected point's watch written, and its alarm. -/
theorem State.watchPoint_eq (q : Seq16) (s : State) (x : Expected) : State.watchPoint q s x =
    if s.alarms x = true then (s.putWatch x.point (s.watched q x)).pushSuspect q x s.watches[x.point].runStart
    else s.putWatch x.point (s.watched q x) := by
  unfold State.watchPoint State.alarms State.watched
  dsimp only
  by_cases hs : s.suspicious x = true
  · simp only [hs, Bool.true_and, if_true, Bool.and_eq_true, decide_eq_true_eq, beq_iff_eq]
    by_cases hrun : s.watches[x.point].count = 24 ∧ s.watches[x.point].armed = true
    · rw [if_pos hrun, if_pos hrun]
      have start : (s.watches[x.point].advance q).runStart = s.watches[x.point].runStart := by
        unfold Watch.advance
        rw [hrun.1]
        rfl
      rw [start]
      rfl
    · rw [if_neg hrun, if_neg hrun]
  · simp only [hs, Bool.false_and, Bool.false_eq_true, if_false]

theorem State.watchPoint_watches (q : Seq16) (s : State) (x : Expected) :
    (State.watchPoint q s x).watches = s.watches.set x.point (s.watched q x) := by
  rw [State.watchPoint_eq]
  split
  · exact (State.push_pushed _ _ _ _ _ _ _).watches
  · rfl

/-- A watch's next step looks at its own point alone. -/
theorem State.watchPoint_others (q : Seq16) (s : State) (x : Expected) {y : Expected} (h : y.point ≠ x.point) :
    (State.watchPoint q s x).watched q y = s.watched q y ∧ (State.watchPoint q s x).alarms y = s.alarms y ∧
      (State.watchPoint q s x).watches[y.point] = s.watches[y.point] := by
  have profiles := (State.watchPoint_touches q s x).profiles (by decide)
  have watches : (State.watchPoint q s x).watches[y.point] = s.watches[y.point] := by
    rw [State.watchPoint_watches, getElem_fin_set_of_ne _ _ h]
  have suspicious : (State.watchPoint q s x).suspicious y = s.suspicious y := by
    unfold State.suspicious
    rw [profiles]
  refine ⟨?_, ?_, watches⟩
  · unfold State.watched
    rw [suspicious, watches]
  · unfold State.alarms
    rw [suspicious, watches]

/-- The watches after a window with one frame to each point. -/
theorem State.foldl_watchPoint_watches (s : State) (q : Seq16) (xs : List Expected) (h : (xs.map Expected.point).Nodup) :
    (∀ x ∈ xs, (xs.foldl (State.watchPoint q) s).watches[x.point] = s.watched q x) ∧
      ∀ p : PointId, p ∉ xs.map Expected.point → (xs.foldl (State.watchPoint q) s).watches[p] = s.watches[p] := by
  induction xs generalizing s with
  | nil => exact ⟨fun x hx => absurd hx List.not_mem_nil, fun _ _ => rfl⟩
  | cons x xs ih =>
    rw [List.map_cons, List.nodup_cons] at h
    obtain ⟨hx, hrest⟩ := h
    obtain ⟨hin, hout⟩ := ih (State.watchPoint q s x) hrest
    simp only [List.foldl_cons]
    refine ⟨fun y hy => ?_, fun p hp => ?_⟩
    · rcases List.mem_cons.mp hy with rfl | hy
      · rw [hout _ hx, State.watchPoint_watches, getElem_fin_set_self]
      · have ne : y.point ≠ x.point := fun heq => hx (heq ▸ List.mem_map_of_mem hy)
        rw [hin y hy, (State.watchPoint_others q s x ne).1]
    · rw [List.map_cons, List.mem_cons, not_or] at hp
      rw [hout p hp.2, State.watchPoint_watches, getElem_fin_set_of_ne _ _ hp.1]

/-- Settles O26. -/
theorem calculationGivesResults : Obligations.CalculationGivesResults := by
  intro s a e hr ha hc he hnodup
  have touches : s.Touches [.accounting, .watches, .exceptions, .latched, .exchangeMarks] s.calculate := s.calculate_touches
  refine ⟨_, s.calculationOf e, exec_of_ready _ hr, State.calculate_accounting ha hc he, ?_, fun x hx => ?_, ?_⟩
  · exact List.map_map
  · refine ⟨x.result, List.mem_map_of_mem hx, rfl, rfl, rfl, rfl, ?_⟩
    have status : x.result.status = x.status := rfl
    rw [status]
    split
    next hframe => exact Expected.status_of_absent hframe
    next t hframe =>
      rw [Expected.status_of_frame hframe]
      by_cases hmark : t.status.invalid = true
      · rw [if_pos hmark, if_pos ((FrameStatus.invalid_iff _).mp hmark)]
      · rw [if_neg hmark, if_neg fun h => hmark ((FrameStatus.invalid_iff _).mpr h)]
  · have watches : (commandEffect .calculation s).watches = (e.expected.foldl (State.watchPoint e.seq)
        { s with accounting := some { a with calculation := some (s.calculationOf e) } }).watches :=
      congrArg State.watches (State.calculate_eq ha hc he)
    obtain ⟨hin, hout⟩ := State.foldl_watchPoint_watches
      { s with accounting := some { a with calculation := some (s.calculationOf e) } } e.seq e.expected hnodup
    rw [watches]
    exact ⟨fun x hx => hin x hx, fun p hp => hout p hp, touches.banks (by decide)⟩

end Sys2Proof.Machine
end

section
/-! SUPPORT. The balance result and the alarms of the polarity watch (R53 to R59). -/

namespace Sys2Proof.Machine

/-! ### The alarms -/

/-- The records from an index on are those of another unit, but for their counts of later losses. -/
def ExceptionUnit.KeepsFrom (e : ExceptionUnit) (top : Nat) (e' : ExceptionUnit) : Prop :=
  ∀ n : Fin 64, top ≤ n.val → ∃ k, e'.records[n] = { e.records[n] with lostAfter := k }

theorem ExceptionUnit.KeepsFrom.trans {e f g : ExceptionUnit} {i j : Nat} (h : e.KeepsFrom i f) (h' : f.KeepsFrom j g)
    (hij : j ≤ i) : e.KeepsFrom i g := by
  intro n hn
  obtain ⟨k, hk⟩ := h n hn
  obtain ⟨m, hm⟩ := h' n (Nat.le_trans hij hn)
  exact ⟨m, by rw [hm, hk]⟩

/-- What a push does to the stack: its top, its count of losses, and the records that stand in it. -/
theorem State.push_stack (s : State) (k : ExceptionKind) (a b c d : Word) (v : Vector Word 8) (htop : s.exceptions.top ≤ 64) :
    (s.push k a b c d v).exceptions.top = s.exceptions.top - 1 ∧
      (s.push k a b c d v).exceptions.lost = s.exceptions.lost + BitVec.ofNat 32 (1 - s.exceptions.top) ∧
      s.exceptions.KeepsFrom s.exceptions.top (s.push k a b c d v).exceptions := by
  rcases Nat.eq_zero_or_pos s.exceptions.top with hfull | hroom
  · rw [State.push_exceptions_of_top_zero _ _ _ _ _ _ _ hfull, hfull]
    refine ⟨rfl, rfl, fun n _ => ?_⟩
    dsimp only
    by_cases hn : n = 0
    · subst hn
      rw [getElem_fin_set_self]
      exact ⟨_, rfl⟩
    · rw [getElem_fin_set_of_ne _ _ hn]
      exact ⟨s.exceptions.records[n].lostAfter, rfl⟩
  · obtain ⟨n, hn⟩ : ∃ n : Fin 64, s.exceptions.top = n.val + 1 := ⟨⟨s.exceptions.top - 1, by omega⟩, by dsimp only; omega⟩
    rw [State.push_exceptions_of_room _ _ _ _ _ _ _ n hn, hn]
    refine ⟨rfl, ?_, fun m hm => ?_⟩
    · rw [Nat.sub_eq_zero_of_le (by omega)]
      exact (BitVec.add_zero _).symm
    · have ne : m ≠ n := fun h => by rw [h] at hm; omega
      dsimp only
      rw [getElem_fin_set_of_ne _ _ ne]
      exact ⟨s.exceptions.records[m].lostAfter, rfl⟩

/-- The record of a POLARITY_SUSPECT (R59). -/
def ExceptionRecord.Suspects (r : ExceptionRecord) (q : Seq16) (x : Expected) (runStart : Option Seq16) : Prop :=
  r.tag = .new ∧ r.kind = 7 ∧ r.subject = BitVec.ofNat 32 x.point.val ∧ r.d0 = BitVec.ofNat 32 q.toNat ∧
    r.d1 = seqWord runStart ∧ r.d2 = if x.invert = true then 1 else 0

theorem State.pushSuspect_record (s : State) (q : Seq16) (x : Expected) (runStart : Option Seq16) {n : Fin 64}
    (h : s.exceptions.top = n.val + 1) : ((s.pushSuspect q x runStart).exceptions.records[n]).Suspects q x runStart := by
  unfold State.pushSuspect
  rw [State.push_exceptions_of_room _ _ _ _ _ _ _ n h]
  dsimp only
  rw [getElem_fin_set_self]
  refine ⟨rfl, rfl, rfl, ?_, rfl, ?_⟩
  · exact BitVec.eq_of_toNat_eq (by simp [seqWord])
  · cases x.invert <;> rfl

theorem ExceptionRecord.Suspects.withLost {r : ExceptionRecord} {q : Seq16} {x : Expected} {m : Option Seq16}
    (h : r.Suspects q x m) (k : BitVec 16) : ({ r with lostAfter := k } : ExceptionRecord).Suspects q x m := h

/-- The stack after the watches of a window, each alarm pushed in turn (R59, assumption 11). -/
structure State.Alarmed (s : State) (q : Seq16) (alarms : List Expected) (t : State) : Prop where
  notices : t.notices = if alarms = [] then s.notices else
    { s.notices with latched := s.notices.latched ||| Cause.exception.flag }
  unchanged : alarms = [] → t.exceptions = s.exceptions
  top : t.exceptions.top = s.exceptions.top - alarms.length
  lost : t.exceptions.lost = s.exceptions.lost + BitVec.ofNat 32 (alarms.length - s.exceptions.top)
  keeps : s.exceptions.KeepsFrom s.exceptions.top t.exceptions
  records : ∀ (i : Nat) (x : Expected) (n : Fin 64), alarms[i]? = some x → s.exceptions.top = n.val + i + 1 →
    (t.exceptions.records[n]).Suspects q x s.watches[x.point].runStart

theorem State.Alarmed.none {s t : State} (q : Seq16) (hn : t.notices = s.notices) (he : t.exceptions = s.exceptions) :
    s.Alarmed q [] t where
  notices := hn
  unchanged _ := he
  top := congrArg ExceptionUnit.top he
  lost := by rw [he]; simp
  keeps n _ := ⟨s.exceptions.records[n].lostAfter, by rw [he]⟩
  records i x n h := by cases h

/-- One alarm and those that follow it. -/
theorem State.Alarmed.cons {s u t : State} {q : Seq16} {x : Expected} {xs : List Expected} (htop : s.exceptions.top ≤ 64)
    (hnotices : u.notices = (s.pushSuspect q x s.watches[x.point].runStart).notices)
    (hexceptions : u.exceptions = (s.pushSuspect q x s.watches[x.point].runStart).exceptions)
    (hwatches : ∀ y ∈ xs, u.watches[y.point].runStart = s.watches[y.point].runStart) (h : u.Alarmed q xs t) :
    s.Alarmed q (x :: xs) t := by
  obtain ⟨hutop, hulost, hukeeps⟩ := s.push_stack .polaritySuspect (BitVec.ofNat 32 x.point.val) (seqWord (some q))
    (seqWord s.watches[x.point].runStart) (BitVec.ofNat 32 (bit x.invert)) noCopy htop
  change (s.pushSuspect q x s.watches[x.point].runStart).exceptions.top = _ at hutop
  change (s.pushSuspect q x s.watches[x.point].runStart).exceptions.lost = _ at hulost
  change s.exceptions.KeepsFrom s.exceptions.top (s.pushSuspect q x s.watches[x.point].runStart).exceptions at hukeeps
  rw [← hexceptions] at hutop hulost hukeeps
  have latched : u.notices = { s.notices with latched := s.notices.latched ||| Cause.exception.flag } :=
    hnotices.trans (State.push_notices _ _ _ _ _ _ _)
  refine ⟨?_, fun hnil => (List.cons_ne_nil x xs hnil).elim, ?_, ?_, hukeeps.trans h.keeps (by omega), fun i y n hy hn => ?_⟩
  · rw [h.notices, latched, if_neg (List.cons_ne_nil x xs)]
    split
    · rfl
    · simp only [BitVec.or_assoc, BitVec.or_self]
  · rw [h.top, hutop, List.length_cons]
    omega
  · rw [h.lost, hulost, hutop, List.length_cons, BitVec.add_assoc, ← BitVec.ofNat_add]
    congr 2
    omega
  · cases i with
    | zero =>
      cases hy
      obtain ⟨k, hk⟩ := h.keeps n (by omega)
      rw [hk, hexceptions]
      exact (s.pushSuspect_record q x _ hn).withLost k
    | succ i =>
      have hin : xs[i]? = some y := hy
      rw [← hwatches y (List.mem_of_getElem? hin)]
      exact h.records i y n hin (by omega)

/-- A push does not look at the watches. -/
theorem State.pushSuspect_putWatch (s : State) (p : PointId) (w : Watch) (q : Seq16) (x : Expected) (m : Option Seq16)
    (htop : s.exceptions.top ≤ 64) : ((s.putWatch p w).pushSuspect q x m).exceptions = (s.pushSuspect q x m).exceptions := by
  unfold State.pushSuspect
  rcases Nat.eq_zero_or_pos s.exceptions.top with hfull | hroom
  · rw [State.push_exceptions_of_top_zero s _ _ _ _ _ _ hfull, State.push_exceptions_of_top_zero (s.putWatch p w) _ _ _ _ _ _ hfull]
    rfl
  · obtain ⟨n, hn⟩ : ∃ n : Fin 64, s.exceptions.top = n.val + 1 := ⟨⟨s.exceptions.top - 1, by omega⟩, by dsimp only; omega⟩
    rw [State.push_exceptions_of_room s _ _ _ _ _ _ n hn, State.push_exceptions_of_room (s.putWatch p w) _ _ _ _ _ _ n hn]
    rfl

/-- The alarms of a window, in the order of its expected points. -/
theorem State.foldl_watchPoint_alarmed (s : State) (q : Seq16) (xs : List Expected) (h : (xs.map Expected.point).Nodup)
    (htop : s.exceptions.top ≤ 64) : s.Alarmed q (xs.filter s.alarms) (xs.foldl (State.watchPoint q) s) := by
  induction xs generalizing s with
  | nil => exact .none q rfl rfl
  | cons x xs ih =>
    rw [List.map_cons, List.nodup_cons] at h
    obtain ⟨hx, hrest⟩ := h
    have ne {y : Expected} (hy : y ∈ xs) : y.point ≠ x.point := fun heq => hx (heq ▸ List.mem_map_of_mem hy)
    have later : xs.filter s.alarms = xs.filter (State.watchPoint q s x).alarms :=
      List.filter_congr fun y hy => (State.watchPoint_others q s x (ne hy)).2.1.symm
    have step := State.watchPoint_eq q s x
    rw [List.foldl_cons, List.filter_cons, later]
    by_cases hal : s.alarms x = true
    · rw [if_pos hal] at step ⊢
      have hexceptions : (State.watchPoint q s x).exceptions = (s.pushSuspect q x s.watches[x.point].runStart).exceptions := by
        rw [step, State.pushSuspect_putWatch _ _ _ _ _ _ htop]
      have hnotices : (State.watchPoint q s x).notices = (s.pushSuspect q x s.watches[x.point].runStart).notices := by
        rw [step]
        exact (State.push_notices _ _ _ _ _ _ _).trans (State.push_notices s _ _ _ _ _ _).symm
      have utop : (State.watchPoint q s x).exceptions.top ≤ 64 := by
        have pushed : (s.pushSuspect q x s.watches[x.point].runStart).exceptions.top = _ := (s.push_stack _ _ _ _ _ _ htop).1
        rw [hexceptions, pushed]
        omega
      refine State.Alarmed.cons htop hnotices hexceptions (fun y hy => ?_) (ih _ hrest utop)
      rw [(State.watchPoint_others q s x (ne (List.mem_filter.mp hy).1)).2.2]
    · rw [if_neg hal] at step ⊢
      have hn : (State.watchPoint q s x).notices = s.notices := by rw [step]; rfl
      have he : (State.watchPoint q s x).exceptions = s.exceptions := by rw [step]; rfl
      have rest := ih (State.watchPoint q s x) hrest (he ▸ htop)
      refine ⟨hn ▸ rest.notices, fun h => (rest.unchanged h).trans he, he ▸ rest.top, he ▸ rest.lost, he ▸ rest.keeps,
        fun i y n hy hn => ?_⟩
      have hmem : y ∈ xs := (List.mem_filter.mp (List.mem_of_getElem? hy)).1
      rw [← (State.watchPoint_others q s x (ne hmem)).2.2]
      exact rest.records i y n hy (he ▸ hn)

theorem State.suspicious_iff (s : State) (x : Expected) : s.suspicious x = true ↔
    s.profiles[x.point].role = .feeder ∧ ∃ f, x.frame = some f ∧
      f.status.unlock = false ∧ f.status.gap = false ∧ f.status.range = false ∧
      f.frame.fundamental.a.active x.invert < 0 ∧ f.frame.fundamental.b.active x.invert < 0 ∧
      f.frame.fundamental.c.active x.invert < 0 := by
  unfold State.suspicious
  cases hv : x.validFrame with
  | none =>
    refine iff_of_false (by simp) ?_
    rintro ⟨-, f, hf, hunlock, hgap, hrange, -⟩
    have some := x.validFrame_isSome.mpr ⟨f, hf, hunlock, hgap, hrange⟩
    rw [hv] at some
    cases some
  | some f =>
    obtain ⟨t, ht, hunlock, hgap, hrange⟩ := x.validFrame_isSome.mp (by rw [hv]; rfl)
    obtain ⟨u, hu, -, rfl⟩ := Expected.validFrame_eq_some.mp hv
    rw [ht] at hu
    cases hu
    simp only [Bool.and_eq_true, decide_eq_true_eq, beq_iff_eq, and_assoc]
    refine and_congr_right fun _ => ⟨fun h => ⟨t, ht, hunlock, hgap, hrange, h⟩, ?_⟩
    rintro ⟨u, hu, -, -, -, h⟩
    rw [ht] at hu
    cases hu
    exact h

/-- Settles O29. -/
theorem polaritySuspectPushed : Obligations.PolaritySuspectPushed := by
  intro s a e alarms hr ha hc he hnodup htop halarms
  refine ⟨s.suspicious_iff, _, exec_of_ready _ hr, ?_⟩
  let u : State := { s with accounting := some { a with calculation := some (s.calculationOf e) } }
  have heffect : commandEffect .calculation s = e.expected.foldl (State.watchPoint e.seq) u := State.calculate_eq ha hc he
  have filtered : alarms = e.expected.filter u.alarms := halarms
  have alarmed : u.Alarmed e.seq alarms (commandEffect .calculation s) := by
    rw [heffect, filtered]
    exact u.foldl_watchPoint_alarmed e.seq e.expected hnodup htop
  refine ⟨fun h => ⟨alarmed.unchanged h, ?_⟩, fun h => ?_, alarmed.top, alarmed.lost, alarmed.records⟩
  · rw [alarmed.notices, if_pos h]
  · refine or_flag_latched (w := s.notices.latched) ?_
    rw [alarmed.notices, if_neg h]

/-! ### The balance result -/

theorem State.bankActive_iff (s : State) (b : BankId) :
    s.bankActive b = true ↔ ∃ i : Fin 5, s.profiles[pointAt b i].active = true := by
  unfold State.bankActive
  simp only [List.any_eq_true, List.mem_finRange, true_and]

theorem State.startMark_eq_some {s : State} {b : BankId} {q r : Seq16} : s.startMark b q = some r ↔
    ∃ i, s.banks[b].phase.accumulating = some i ∧ s.banks[b].sets[i].start.getD q = r := by
  unfold State.startMark
  cases s.banks[b].phase.accumulating with
  | none => simp
  | some i => simp

/-- R54 in terms of the accumulating sets' start marks. -/
theorem State.inStep_iff (s : State) (q : Seq16) : s.inStep q = true ↔
    ∀ b : BankId, (∃ i : Fin 5, s.profiles[pointAt b i].active = true) →
      ∃ i j, s.banks[b].phase.accumulating = some i ∧ s.banks[(0 : BankId)].phase.accumulating = some j ∧
        s.banks[b].sets[i].start.getD q = s.banks[(0 : BankId)].sets[j].start.getD q := by
  unfold State.inStep
  simp only [List.all_eq_true, List.mem_finRange, true_implies, Bool.or_eq_true, Bool.not_eq_true', Bool.and_eq_true, beq_iff_eq]
  refine forall_congr' fun b => ?_
  rw [← s.bankActive_iff b]
  constructor
  · intro h hactive
    obtain ⟨hsome, hequal⟩ := h.resolve_left (ne_false_of_eq_true hactive)
    obtain ⟨r, hr⟩ := Option.isSome_iff_exists.mp hsome
    obtain ⟨i, hi, hir⟩ := State.startMark_eq_some.mp hr
    obtain ⟨j, hj, hjr⟩ := State.startMark_eq_some.mp (hequal ▸ hr)
    exact ⟨i, j, hi, hj, hir.trans hjr.symm⟩
  · intro h
    cases hactive : s.bankActive b with
    | false => exact Or.inl rfl
    | true =>
      obtain ⟨i, j, hi, hj, hij⟩ := h hactive
      have hb := State.startMark_eq_some.mpr ⟨i, hi, hij⟩
      have h0 := (State.startMark_eq_some (q := q)).mpr ⟨j, hj, rfl⟩
      exact Or.inr ⟨by rw [hb]; rfl, hb.trans h0.symm⟩

/-- R53's conditions. -/
theorem State.balanced_iff (s : State) (e : Entry) : s.balanced e = true ↔
    (∃ x ∈ e.expected, s.profiles[x.point].role = .pcc) ∧
    (∀ x ∈ e.expected, ∃ f, x.frame = some f ∧ f.status.unlock = false ∧ f.status.gap = false ∧
      f.status.range = false) ∧ s.inStep e.seq = true := by
  unfold State.balanced
  simp only [Bool.and_eq_true, List.any_eq_true, List.all_eq_true, beq_iff_eq, Expected.validFrame_isSome, and_assoc]

/-- One expected point's part in a residual term: its role's sign and its frame's duration (R55). -/
def State.residualPart (s : State) (x : Expected) (term : Expected → WindowFrame → Int) : Int :=
  match x.frame with
  | some f => s.profiles[x.point].role.sign * (term x f.frame * f.frame.duration.toNat)
  | none => 0

/-- The terms of a role, point by point. -/
theorem State.residualTerm_eq (s : State) (e : Entry) (term : Expected → WindowFrame → Int) :
    s.residualTerm e term = (e.expected.map fun x => s.residualPart x term).sum := by
  unfold State.residualTerm State.roleTerms
  induction e.expected with
  | nil => rfl
  | cons x xs ih =>
    rw [List.map_cons, List.sum_cons, ← ih]
    simp only [List.filter_cons]
    unfold State.residualPart
    cases hrole : s.profiles[x.point].role <;> cases hframe : x.frame <;>
      simp [hframe, Role.sign] <;> omega

/-- While every frame is valid the residual is the sum of R55. -/
theorem State.residual_eq_residualTerm {s : State} {e : Entry} (h : ∀ x ∈ e.expected, x.validFrame.isSome = true)
    (term : Expected → WindowFrame → Int) : s.residual e term = s.residualTerm e term := by
  rw [State.residualTerm_eq]
  unfold State.residual
  congr 1
  refine List.map_congr_left fun x hx => ?_
  obtain ⟨f, hf⟩ := Option.isSome_iff_exists.mp (h x hx)
  obtain ⟨t, ht, -, rfl⟩ := Expected.validFrame_eq_some.mp hf
  unfold State.contribution State.residualPart
  rw [hf, ht]

theorem assignEnergies_quadrants (sp sq : Int) (sh : Nat → Option Int) (d : Nat) :
    (assignEnergies sp sq sh d)[2] = (if 0 ≤ sp ∧ 0 ≤ sq then energyOf (sq * d) else 0) ∧
    (assignEnergies sp sq sh d)[3] = (if sp < 0 ∧ 0 ≤ sq then energyOf (sq * d) else 0) ∧
    (assignEnergies sp sq sh d)[4] = (if sp < 0 ∧ sq < 0 then energyOf (sq * d) else 0) ∧
    (assignEnergies sp sq sh d)[5] = (if 0 ≤ sp ∧ sq < 0 then energyOf (sq * d) else 0) := by
  simp [assignEnergies]

/-- A balance result's residual of one order (R56): of every frame that lists it, none when some point's mask excludes it. -/
def State.orderResidual (s : State) (e : Entry) (h : Nat) : Option Int :=
  if (e.expected.all fun x => admitsOrder x.mask h) = true then
    some (s.residual e fun x f => (f.harmonicSum x.invert h).getD 0) else none

theorem State.balanceResult_of_balanced {s : State} {e : Entry} (h : s.balanced e = true) : s.balanceResult e =
    some (assignEnergies (s.residual e fun x f => f.fundamental.activeSum x.invert)
      (s.residual e fun x f => f.fundamental.reactiveSum x.invert) (s.orderResidual e) 1) := if_pos h

/-- Settles O28. -/
theorem balanceResult : Obligations.BalanceResult := by
  intro s a e hr ha hc he
  refine ⟨_, s.calculationOf e, exec_of_ready _ hr, State.calculate_accounting ha hc he, ?_, ?_⟩
  · have result : (s.calculationOf e).balance ≠ none ↔ s.balanced e = true := by
      change s.balanceResult e ≠ none ↔ _
      unfold State.balanceResult
      cases s.balanced e <;> simp
    rw [result, State.balanced_iff, State.inStep_iff]
  · intro es rp rq hes hrp hrq
    have balanced : s.balanced e = true := by
      by_contra h
      have none : s.balanceResult e = none := if_neg h
      exact absurd (none.symm.trans hes) (by simp)
    have valid : ∀ x ∈ e.expected, x.validFrame.isSome = true := fun x hx =>
      x.validFrame_isSome.mpr (((s.balanced_iff e).mp balanced).2.1 x hx)
    have result : s.balanceResult e = some (assignEnergies rp rq (s.orderResidual e) 1) := by
      rw [State.balanceResult_of_balanced balanced, State.residual_eq_residualTerm valid, State.residual_eq_residualTerm valid,
        hrp, hrq]
    obtain rfl : assignEnergies rp rq (s.orderResidual e) 1 = es := Option.some.inj (result.symm.trans hes)
    obtain ⟨h2, h3, h4, h5⟩ := assignEnergies_quadrants rp rq (s.orderResidual e) 1
    rw [Nat.cast_one, Int.mul_one] at h2 h3 h4 h5
    refine ⟨?_, ?_, h2, h3, h4, h5, fun h horder => ?_⟩
    · rw [assignEnergies_activeImport, Nat.cast_one, Int.mul_one]
    · rw [assignEnergies_activeExport, Nat.cast_one, Int.mul_one]
    · have admits : (∀ x ∈ e.expected, x.mask.getLsbD (h - 2) = true) ↔
          (e.expected.all fun x => admitsOrder x.mask h) = true := List.all_eq_true.symm
      dsimp only
      rw [assignEnergies_absorbed _ _ _ _ h horder, assignEnergies_injected _ _ _ _ h horder]
      unfold State.orderResidual
      by_cases hmask : (e.expected.all fun x => admitsOrder x.mask h) = true
      · rw [if_pos hmask, if_pos (admits.mpr hmask), Option.elim_some, Option.elim_some, Nat.cast_one, Int.mul_one,
          State.residual_eq_residualTerm valid]
        have same : (fun (x : Expected) (f : WindowFrame) => (f.harmonicSum x.invert h).getD 0) =
            fun x f => match f.harmonics.find? (fun y => y.order == h) with
              | some y => y.phases.activeSum x.invert
              | none => 0 := by
          funext x f
          unfold WindowFrame.harmonicSum
          cases f.harmonics.find? fun y => y.order == h <;> rfl
        rw [same]
        exact ⟨rfl, rfl⟩
      · rw [if_neg hmask, if_neg fun h => hmask (admits.mp h)]
        exact ⟨rfl, rfl⟩

end Sys2Proof.Machine
end

section
/-! SUPPORT. What the events of one bank leave of the others; the close start and the tariff event (R74 to R84). -/

namespace Sys2Proof.Machine

/-! ### Points, register sets and their banks -/

theorem pointAt_inj {b b' : BankId} {i j : Fin 5} : pointAt b i = pointAt b' j ↔ b = b' ∧ i = j := by
  simp only [pointAt, Fin.ext_iff]
  omega

theorem bankOfSet_entryPoint {b : BankId} {e : Fin 6} (h : e.val < 5 ∨ b = 0) : bankOfSet (entryPoint b e) = b := by
  unfold entryPoint
  by_cases he : e.val < 5
  · rw [dif_pos he]
    unfold bankOfSet
    have hb := b.isLt
    rw [dif_pos (show 5 * b.val + e.val < 40 by omega), Fin.ext_iff]
    dsimp only
    omega
  · rw [dif_neg he, h.resolve_left he]
    rfl

/-- Staged fields applied to a list of points, each once. -/
theorem foldl_putProfile_profiles (f : Profile → Profile) (b : BankId) (es : List (Fin 5)) (h : es.Nodup) (s : State) :
    (∀ e ∈ es, (es.foldl (fun s e => s.putProfile (pointAt b e) (f s.profiles[pointAt b e])) s).profiles[pointAt b e] =
        f s.profiles[pointAt b e]) ∧
      ∀ p : PointId, (∀ e ∈ es, p ≠ pointAt b e) →
        (es.foldl (fun s e => s.putProfile (pointAt b e) (f s.profiles[pointAt b e])) s).profiles[p] = s.profiles[p] := by
  induction es generalizing s with
  | nil => exact ⟨fun e he => absurd he List.not_mem_nil, fun _ _ => rfl⟩
  | cons e es ih =>
    rw [List.nodup_cons] at h
    obtain ⟨hin, hout⟩ := ih h.2 (s.putProfile (pointAt b e) (f s.profiles[pointAt b e]))
    have put (q : PointId) (x : Profile) : (s.putProfile q x).profiles = s.profiles.set q x := rfl
    simp only [List.foldl_cons]
    refine ⟨fun i hi => ?_, fun p hp => ?_⟩
    · rcases List.mem_cons.mp hi with rfl | hi
      · have fresh : ∀ j ∈ es, pointAt b i ≠ pointAt b j := fun j hj hij => by
          obtain ⟨-, rfl⟩ := pointAt_inj.mp hij
          exact h.1 hj
        rw [hout _ fresh, put, getElem_fin_set_self]
      · have ne : pointAt b i ≠ pointAt b e := fun hie => h.1 ((pointAt_inj.mp hie).2 ▸ hi)
        rw [hin i hi, put, getElem_fin_set_of_ne _ _ ne]
    · rw [hout p fun i hi => hp i (List.mem_cons_of_mem _ hi), put, getElem_fin_set_of_ne _ _ (hp e List.mem_cons_self)]

theorem State.applyStaged_profiles (s : State) (b : BankId) :
    (∀ e : Fin 5, (s.applyStaged b).profiles[pointAt b e] = s.profiles[pointAt b e].applyStaged) ∧
      ∀ p : PointId, (∀ e, p ≠ pointAt b e) → (s.applyStaged b).profiles[p] = s.profiles[p] := by
  obtain ⟨hin, hout⟩ := foldl_putProfile_profiles Profile.applyStaged b (List.finRange 5) (List.nodup_finRange 5) s
  exact ⟨fun e => hin e (List.mem_finRange e), fun p hp => hout p fun e _ => hp e⟩

theorem Profile.applyStaged_mask (p : Profile) : p.applyStaged.mask = p.mask ∧ p.applyStaged.invert = p.invert := ⟨rfl, rfl⟩

/-! ### The close start -/

theorem State.closeStart_profiles (s : State) (b : BankId) (a : Fin 2) (h : HeldClose) :
    (s.closeStart b a h).profiles = (s.applyStaged b).profiles := rfl

theorem AccSet.zeroedAs_of_eq {x old : AccSet} {n : Word} {marks : Fin 5 → Bool × BitVec 49 × Bool}
    (h : x = { State.zeroSet old.balance.isSome with
      interval := n
      entries := tabulate 5 fun e =>
        { State.zeroEntry with inUse := (marks e).1, mask := (marks e).2.1, invert := (marks e).2.2 } }) :
    x.ZeroedAs old n marks := by
  subst h
  refine ⟨rfl, rfl, rfl, rfl, rfl, ?_, fun e => ?_⟩
  · cases old.balance <;> rfl
  · dsimp only
    rw [Fin.getElem_fin, getElem_tabulate]
    rfl

theorem State.openedSet_zeroedAs (s : State) (b : BankId) (n : Word) (old : AccSet) :
    ((s.applyStaged b).openedSet b n old.balance.isSome).ZeroedAs old n (s.openMarks b) := by
  refine AccSet.zeroedAs_of_eq ?_
  unfold State.openedSet State.openMarks
  simp only [(s.applyStaged_profiles b).1, Profile.applyStaged_mask]

theorem State.zeroSet_zeroedAs (old : AccSet) :
    (State.zeroSet old.balance.isSome).ZeroedAs old 0 fun _ => (false, 0, false) := by
  refine ⟨rfl, rfl, rfl, rfl, rfl, ?_, fun e => ?_⟩
  · cases old.balance <;> rfl
  · simp [State.zeroSet, State.zeroEntry]

theorem PendingEntry.started_eq (e : PendingEntry) (b : BankId) (n : Word) (waiters : List (SlotId × WaitCause)) :
    e.started b n waiters = if e.slot ∈ waiters.map Prod.fst then { e with work := e.work.beginFold b n } else e := by
  unfold PendingEntry.started
  refine if_congr ?_ rfl rfl
  simp

/-- The sets of a bank after its turnover (R61, R81). -/
theorem State.turnedBank_sets (s : State) (b : BankId) (a : Fin 2) (h : HeldClose) :
    ((s.applyStaged b).turnedBank b a h).sets[a] = { s.banks[b].sets[a] with causes := h.causes } ∧
    ((s.applyStaged b).turnedBank b a h).sets[otherSet a] =
      if h.causes.stop = true then State.zeroSet s.banks[b].sets[otherSet a].balance.isSome
      else (s.applyStaged b).openedSet b (nextInterval s.banks[b].interval) s.banks[b].sets[otherSet a].balance.isSome := by
  have applied : (s.applyStaged b).banks = s.banks := (s.applyStaged_touches b).banks (by decide)
  unfold State.turnedBank
  dsimp only
  rw [applied, getElem_fin_set_self, getElem_fin_set_of_ne _ _ (otherSet_ne a), getElem_fin_set_self]
  exact ⟨rfl, rfl⟩

/-- The turned bank beside its sets (R81). -/
theorem State.turnedBank_eq (s : State) (b : BankId) (a : Fin 2) (h : HeldClose) : (s.applyStaged b).turnedBank b a h =
    { s.banks[b] with
      phase := if h.causes.stop = true then .stopping a else .turning (otherSet a)
      sets := ((s.applyStaged b).turnedBank b a h).sets
      previous := some a
      interval := if h.causes.stop = true then s.banks[b].interval else nextInterval s.banks[b].interval
      timing := s.timing
      held := none } := by
  have applied : (s.applyStaged b).banks = s.banks := (s.applyStaged_touches b).banks (by decide)
  have timing : (s.applyStaged b).timing = s.timing := (s.applyStaged_touches b).timing (by decide)
  unfold State.turnedBank
  dsimp only
  rw [applied, timing]

/-- Settles O34. -/
theorem closeStartTurnsBankOver : Obligations.CloseStartTurnsBankOver := by
  intro s b a h hwarm hphase hheld hmay
  have turned : (s.closeStart b a h).banks[b] = (s.applyStaged b).turnedBank b a h := by
    rw [State.closeStart_banks, getElem_fin_set_self]
  obtain ⟨hclosed, hother⟩ := s.turnedBank_sets b a h
  rw [State.heldTest_of_mayStart hwarm hphase hheld hmay, turned, hclosed, State.turnedBank_eq, State.closeStart_folds,
    State.closeStart_profiles, State.closeStart_regs, State.closeStart_table, getElem_fin_set_self]
  refine ⟨rfl, rfl, rfl, rfl, rfl, ?_, rfl, rfl, rfl, (s.applyStaged_profiles b).1, fun p => ?_, fun b' hb => ?_, ?_⟩
  · by_cases hstop : h.causes.stop = true
    · rw [if_pos hstop, hother, if_pos hstop, if_pos hstop, if_pos hstop]
      exact ⟨rfl, rfl, State.zeroSet_zeroedAs _⟩
    · rw [if_neg hstop, hother, if_neg hstop, if_neg hstop, if_neg hstop]
      exact ⟨rfl, rfl, s.openedSet_zeroedAs b _ _⟩
  · rw [Fin.getElem_fin, getElem_tabulate]
  · rw [State.closeStart_banks, getElem_fin_set_of_ne _ _ hb, getElem_fin_set_of_ne _ _ hb]
    exact ⟨rfl, rfl⟩
  · exact List.map_congr_left fun e _ => e.started_eq b _ _

end Sys2Proof.Machine
end

section
/-! SUPPORT. The tariff event and the window addition at a bank that adds nothing (R69, R74). -/

namespace Sys2Proof.Machine

/-! ### Asks and held-close tests at one bank -/

/-- A bank and its fold after an ask of a cause and the test that follows it (R77, R78): a close start with the cause, or the
held close alone. -/
def Bank.Closes (x : Bank) (f : Option Fold) (warm : Bool) (cause : Causes → Bool) (asked y : Bank) (g : Option Fold) : Prop :=
  if asked.mayStart = true ∧ warm = false then
    ∃ z, g = some z ∧ cause z.causes = true ∧ z.interval = x.interval ∧ y.held = none
  else y = asked ∧ g = f

theorem Bank.mayStart_spec {x : Bank} (h : x.mayStart = true) : ∃ a c, x.phase = .opened a ∧ x.held = some c := by
  unfold Bank.mayStart at h
  split at h
  next a c hp hh => exact ⟨a, c, hp, hh⟩
  · cases h

theorem State.heldTest_of_idle {s : State} {b : BankId} (h : ¬(s.banks[b].mayStart = true ∧ s.control.warm = false)) :
    s.heldTest b = s := by
  rcases s.heldTest_cases b with heq | ⟨a, c, hw, -, -, hm, -⟩
  · exact heq
  · exact absurd ⟨hm, hw⟩ h

/-- The test of a held close that may start: the bank's fold and its held close after it. -/
theorem State.heldTest_at {s : State} {b : BankId} (hm : s.banks[b].mayStart = true) (hw : s.control.warm = false) :
    ∃ a c, s.banks[b].phase = .opened a ∧ s.banks[b].held = some c ∧ s.heldTest b = s.closeStart b a c ∧
      (s.heldTest b).folds[b] = some (s.begunFold b a c) ∧ (s.heldTest b).banks[b].held = none := by
  obtain ⟨a, c, hp, hh⟩ := Bank.mayStart_spec hm
  have start := State.heldTest_of_mayStart hw hp hh hm
  refine ⟨a, c, hp, hh, start, ?_, ?_⟩
  · rw [start, State.closeStart_folds, getElem_fin_set_self]
  · rw [start, State.closeStart_banks, getElem_fin_set_self]
    rfl

theorem State.heldTest_other (s : State) {b b' : BankId} (h : b' ≠ b) :
    (s.heldTest b).banks[b'] = s.banks[b'] ∧ (s.heldTest b).folds[b'] = s.folds[b'] := by
  rcases s.heldTest_cases b with heq | ⟨a, c, -, -, -, -, heq⟩
  · rw [heq]
    exact ⟨rfl, rfl⟩
  · rw [heq, State.closeStart_banks, State.closeStart_folds, getElem_fin_set_of_ne _ _ h, getElem_fin_set_of_ne _ _ h]
    exact ⟨rfl, rfl⟩

theorem State.askClose_other (s : State) {b b' : BankId} (h : b' ≠ b) (cause : Causes) (w : List (SlotId × WaitCause)) :
    (s.askClose b cause w).banks[b'] = s.banks[b'] ∧ (s.askClose b cause w).folds[b'] = s.folds[b'] := by
  obtain ⟨hbanks, hfolds⟩ := (s.putBank b (s.banks[b].ask cause w)).heldTest_other h
  exact ⟨hbanks.trans (getElem_fin_set_of_ne _ _ h), hfolds⟩

/-- The causes that a bank's held close has after an ask include the causes asked (R77). -/
theorem Bank.ask_causes {x : Bank} (hx : x.takesClose = true) {cause : Causes} {w : List (SlotId × WaitCause)} {c : HeldClose}
    (h : (x.ask cause w).held = some c) : c.causes = x.heldCauses.union cause := by
  rw [Bank.ask_eq, if_pos hx] at h
  cases h
  rfl

theorem Bank.ask_interval (x : Bank) (cause : Causes) (w : List (SlotId × WaitCause)) :
    (x.ask cause w).interval = x.interval := by
  rw [Bank.ask_eq]

theorem State.askClose_closes (s : State) (b : BankId) {cause : Causes} {w : List (SlotId × WaitCause)} {has : Causes → Bool}
    (hx : s.banks[b].takesClose = true) (hhas : ∀ c, has (Causes.union c cause) = true) :
    s.banks[b].Closes s.folds[b] s.control.warm has (s.banks[b].ask cause w) (s.askClose b cause w).banks[b]
      (s.askClose b cause w).folds[b] := by
  let u := s.putBank b (s.banks[b].ask cause w)
  have own : u.banks[b] = s.banks[b].ask cause w := getElem_fin_set_self _ _ _
  unfold Bank.Closes
  split
  next h =>
    obtain ⟨a, c, -, hheld, -, hfold, hnone⟩ := State.heldTest_at (s := u) (own ▸ h.1) h.2
    have interval : (u.begunFold b a c).interval = s.banks[b].interval := by
      unfold State.begunFold
      dsimp only
      rw [own, Bank.ask_interval]
    have causes : (u.begunFold b a c).causes = s.banks[b].heldCauses.union cause := Bank.ask_causes hx (own ▸ hheld)
    exact ⟨_, hfold, causes ▸ hhas _, interval, hnone⟩
  next h =>
    have stays : s.askClose b cause w = u := State.heldTest_of_idle (by rw [own]; exact h)
    rw [stays]
    exact ⟨own, rfl⟩

/-! ### The tariff event -/

/-- The bank takes a tariff event (R74). -/
def Bank.tariffed (x : Bank) : Bool := x.timing.coupled && x.takesClose

/-- A bank and its fold after a tariff event (R74). -/
def Bank.TariffTaken (x : Bank) (f : Option Fold) (warm : Bool) (y : Bank) (g : Option Fold) : Prop :=
  if x.timing.coupled = true ∧ x.takesClose = true then x.Closes f warm Causes.tariff (x.ask Causes.onlyTariff []) y g
  else y = x ∧ g = f

theorem State.tariffAt_own (s : State) (b : BankId) : s.banks[b].TariffTaken s.folds[b] s.control.warm
    (s.tariffAt b).banks[b] (s.tariffAt b).folds[b] := by
  unfold Bank.TariffTaken State.tariffAt
  by_cases h : s.banks[b].timing.coupled = true ∧ s.banks[b].takesClose = true
  · rw [if_pos h, if_pos (Bool.and_eq_true_iff.mpr h)]
    exact s.askClose_closes b h.2 fun c => Bool.or_true _
  · rw [if_neg h, if_neg fun hand => h (Bool.and_eq_true_iff.mp hand)]
    exact ⟨rfl, rfl⟩

theorem State.tariffAt_other (s : State) {b b' : BankId} (h : b' ≠ b) :
    (s.tariffAt b).banks[b'] = s.banks[b'] ∧ (s.tariffAt b).folds[b'] = s.folds[b'] := by
  unfold State.tariffAt
  split
  · exact s.askClose_other h _ _
  · exact ⟨rfl, rfl⟩

theorem State.tariffAt_counted (s : State) (b : BankId) : (s.tariffAt b).control = s.control ∧
    (s.tariffAt b).bankCounters.ignoredTariff =
      s.bankCounters.ignoredTariff + BitVec.ofNat 32 (if s.banks[b].tariffed = true then 0 else 1) := by
  unfold State.tariffAt
  by_cases h : s.banks[b].tariffed = true
  · have taken : (s.banks[b].timing.coupled && s.banks[b].takesClose) = true := h
    have effect : s.Touches ([.banks, .exchangeMarks] ++ Part.ofClose) (s.askClose b Causes.onlyTariff []) :=
      ((s.askClose_closeEffect b _ _).touches.mono (by decide))
    rw [if_pos h, if_pos taken, effect.control (by decide), effect.bankCounters (by decide)]
    exact ⟨rfl, (BitVec.add_zero _).symm⟩
  · have ignored : ¬(s.banks[b].timing.coupled && s.banks[b].takesClose) = true := h
    rw [if_neg h, if_neg ignored]
    exact ⟨rfl, rfl⟩

/-- The tariff event at a list of banks, each once. -/
theorem State.foldl_tariffAt (bs : List BankId) (h : bs.Nodup) (s : State) :
    (bs.foldl State.tariffAt s).bankCounters.ignoredTariff = s.bankCounters.ignoredTariff +
        BitVec.ofNat 32 (bs.filter fun b => !s.banks[b].tariffed).length ∧
      (∀ b ∈ bs, s.banks[b].TariffTaken s.folds[b] s.control.warm (bs.foldl State.tariffAt s).banks[b]
        (bs.foldl State.tariffAt s).folds[b]) ∧
      ∀ b, b ∉ bs → (bs.foldl State.tariffAt s).banks[b] = s.banks[b] ∧ (bs.foldl State.tariffAt s).folds[b] = s.folds[b] := by
  induction bs generalizing s with
  | nil => exact ⟨(BitVec.add_zero _).symm, fun b hb => absurd hb List.not_mem_nil, fun _ _ => ⟨rfl, rfl⟩⟩
  | cons b bs ih =>
    rw [List.nodup_cons] at h
    obtain ⟨hb, hrest⟩ := h
    obtain ⟨hcount, hin, hout⟩ := ih hrest (s.tariffAt b)
    obtain ⟨hcontrol, hcounted⟩ := s.tariffAt_counted b
    have ne {b' : BankId} (hb' : b' ∈ bs) : b' ≠ b := fun heq => hb (heq ▸ hb')
    have filtered : (bs.filter fun b' => !(s.tariffAt b).banks[b'].tariffed) = bs.filter fun b' => !s.banks[b'].tariffed :=
      List.filter_congr fun b' hb' => by rw [(s.tariffAt_other (ne hb')).1]
    simp only [List.foldl_cons]
    refine ⟨?_, fun b' hb' => ?_, fun b' hb' => ?_⟩
    · rw [hcount, hcounted, filtered, BitVec.add_assoc, ← BitVec.ofNat_add, List.filter_cons]
      cases s.banks[b].tariffed with
      | true => simp
      | false => simp [Nat.add_comm]
    · rcases List.mem_cons.mp hb' with rfl | hmem
      · rw [(hout b' hb).1, (hout b' hb).2]
        exact s.tariffAt_own b'
      · have taken := hin b' hmem
        rw [(s.tariffAt_other (ne hmem)).1, (s.tariffAt_other (ne hmem)).2, hcontrol] at taken
        exact taken
    · rw [List.mem_cons, not_or] at hb'
      rw [(hout b' hb'.2).1, (hout b' hb'.2).2]
      exact s.tariffAt_other hb'.1

/-- Settles O33. -/
theorem tariffEventAsksClose : Obligations.TariffEventAsksClose := by
  intro s hr
  have heffect : exec .tariffEvent s = .next ((List.finRange 8).foldl State.tariffAt s) := exec_of_ready _ hr
  obtain ⟨hcount, hin, -⟩ := State.foldl_tariffAt (List.finRange 8) (List.nodup_finRange 8) s
  generalize (List.finRange 8).foldl State.tariffAt s = t at heffect hcount hin
  exact ⟨t, heffect, hcount, fun b => hin b (List.mem_finRange b)⟩

/-! ### A window addition that adds nothing -/

section
variable {s : State} {b : BankId} {a : Accounting} {c : Calculation} {e : Entry}

/-- The state in which a bank takes its addition: the taking noted, and bank 0's windows counted (R41, R69). -/
def State.additionNoted (s : State) (b : BankId) (a : Accounting) (m : Nat) : State :=
  ({ s with accounting := some { a with added := a.added.set b true } } : State).countHanded b m

theorem State.windowAddition_eq (ha : s.accounting = some a) (hc : a.calculation = some c) (he : s.handedEntry = some e)
    (hadded : a.added[b] = false) : s.windowAddition b =
      (if a.setAside[b] = true then none else s.banks[b].phase.accumulating).elim
        (s.additionNoted b a (missing a.carriedLast e.seq)).countNotAccounted
        fun i => (s.additionNoted b a (missing a.carriedLast e.seq)).addWindow b i e.seq (missing a.carriedLast e.seq) c := by
  have banks : (s.additionNoted b a (missing a.carriedLast e.seq)).banks = s.banks :=
    (State.countHanded_touches _ b _).banks (by decide)
  unfold State.windowAddition
  split
  next a' e' ha' he' =>
    cases ha.symm.trans ha'
    cases he.symm.trans he'
    split
    next c' hc' =>
      cases hc.symm.trans hc'
      rw [if_neg (by rw [hadded]; decide)]
      unfold State.additionNoted at banks ⊢
      dsimp only
      rw [banks]
      split
      next i hi =>
        by_cases hset : a.setAside[b] = true
        · rw [if_pos hset, if_pos hset, Option.elim_none]
        · rw [if_neg hset, if_neg hset, hi, Option.elim_some]
      next hi => rw [hi, ite_self, Option.elim_none]
    next hnone =>
      rw [hc] at hnone
      cases hnone
  next hnone => exact absurd he (hnone a e ha)

theorem State.additionNoted_counters (s : State) (b : BankId) (a : Accounting) (m : Nat) :
    (s.additionNoted b a m).bankCounters = if b = 0 then { s.bankCounters with
        accounted := s.bankCounters.accounted + 1, missing := s.bankCounters.missing + BitVec.ofNat 32 m }
      else s.bankCounters := by
  unfold State.additionNoted State.countHanded
  split
  · rfl
  · rfl

theorem State.additionNoted_touches (s : State) (b : BankId) (a : Accounting) (m : Nat) :
    s.Touches [.accounting, .bankCounters, .exchangeMarks] (s.additionNoted b a m) := by
  refine State.Touches.trans ?_ ((State.countHanded_touches _ b m).mono (by decide))
  exact State.Touches.mono (ps := [.accounting]) (.of_eq _ rfl) (by decide)

theorem State.additionNoted_accounting (s : State) (b : BankId) (a : Accounting) (m : Nat) :
    (s.additionNoted b a m).accounting = some { a with added := a.added.set b true } :=
  (State.countHanded_touches _ b m).accounting (by decide)

end

/-- Settles O31. -/
theorem additionAtStoppedBank : Obligations.AdditionAtStoppedBank := by
  intro s b a c e hr ha hc he hadded hidle
  have none : (if a.setAside[b] = true then none else s.banks[b].phase.accumulating) = none := by
    split
    · rfl
    next h => exact hidle.resolve_right h
  have heffect : commandEffect (.windowAddition b) s = (s.additionNoted b a (missing a.carriedLast e.seq)).countNotAccounted := by
    have added := State.windowAddition_eq ha hc he hadded
    rw [none] at added
    exact added
  have counters := s.additionNoted_counters b a (missing a.carriedLast e.seq)
  have counted : (commandEffect (.windowAddition b) s).bankCounters =
      { (s.additionNoted b a (missing a.carriedLast e.seq)).bankCounters with
        notAccounted := (s.additionNoted b a (missing a.carriedLast e.seq)).bankCounters.notAccounted + 1 } := by
    rw [heffect]
    rfl
  refine ⟨_, exec_of_ready _ hr, ?_, ?_, ?_⟩
  · rw [heffect, (State.countNotAccounted_touches _).banks (by decide), (s.additionNoted_touches b a _).banks (by decide)]
  · rw [heffect, (State.countNotAccounted_touches _).accounting (by decide), State.additionNoted_accounting]
  · rw [counted, counters]
    by_cases hb : b = 0
    · rw [if_pos hb]
      exact ⟨rfl, rfl, fun _ => ⟨rfl, rfl⟩, fun hne => absurd hb hne⟩
    · rw [if_neg hb]
      exact ⟨rfl, rfl, fun h0 => absurd h0 hb, fun _ => ⟨rfl, rfl⟩⟩

end Sys2Proof.Machine
end

section
/-! SUPPORT. The window addition at a bank that accumulates (R65 to R71, R75, R76). -/

namespace Sys2Proof.Machine

/-! ### One entry's addition -/

theorem addEnergy_toNat (a : BitVec 64) (n : Nat) : (addEnergy a n).toNat = min (a.toNat + n) 18446744073709551615 := by
  unfold addEnergy
  split
  next h =>
    rw [BitVec.toNat_ofNat, Nat.mod_eq_of_lt (by omega)]
    omega
  next h =>
    have limit : (18446744073709551615 : BitVec 64).toNat = 18446744073709551615 := rfl
    rw [limit]
    omega

theorem addEnergies_toNat (acc : Vector (BitVec 64) 104) (es : Vector Nat 104) (q : QuantityId) :
    (addEnergies acc es)[q].toNat = min (acc[q].toNat + es[q]) 18446744073709551615 := by
  unfold addEnergies
  rw [Fin.getElem_fin, getElem_tabulate]
  exact addEnergy_toNat _ _

theorem anyEnergyPasses_iff (acc : Vector (BitVec 64) 104) (es : Vector Nat 104) :
    anyEnergyPasses acc es = true ↔ ∃ q : QuantityId, 18446744073709551615 < acc[q].toNat + es[q] := by
  unfold anyEnergyPasses energyPasses
  simp only [List.any_eq_true, List.mem_finRange, true_and, Bool.not_eq_true', decide_eq_false_iff_not, Nat.not_le]

/-- An entry with the damage of a span that passed its limit (assumption 18). -/
def PointEntry.spanDamaged (x : PointEntry) (passes : Bool) : PointEntry := { x with damaged := x.damaged || passes }

/-- The counts and accumulators of an entry in use after one window (R66, R71). -/
theorem PointEntry.count_received (x : PointEntry) (m : Nat) (passes : Bool) (es : Vector Nat 104) (clip : Bool) :
    let y := (x.count m (some (.valid es clip))).spanDamaged passes
    y.present.toNat = min (x.present.toNat + 1) 4294967295 ∧ y.absent.toNat = min (x.absent.toNat + m) 4294967295 ∧
    y.clipped.toNat = min (x.clipped.toNat + bit clip) 4294967295 ∧
    (∀ q : QuantityId, y.acc[q].toNat = min (x.acc[q].toNat + es[q]) 18446744073709551615) ∧
    (y.damaged = true ↔ x.damaged = true ∨ passes = true ∨ 4294967295 < x.present.toNat + 1 ∨
      4294967295 < x.absent.toNat + m ∨ 4294967295 < x.clipped.toNat + bit clip ∨
      ∃ q : QuantityId, 18446744073709551615 < x.acc[q].toNat + es[q]) := by
  refine ⟨addCount_toNat _ _, addCount_toNat _ _, addCount_toNat _ _, addEnergies_toNat _ _, ?_⟩
  unfold PointEntry.spanDamaged PointEntry.count
  simp only [Bool.or_eq_true, addCount_passes, anyEnergyPasses_iff]
  tauto

theorem PointEntry.count_absent (x : PointEntry) (m : Nat) (passes : Bool) {st : Option PointStatus}
    (h : ∀ es clip, st ≠ some (.valid es clip)) :
    let y := (x.count m st).spanDamaged passes
    y.present = x.present ∧ y.absent.toNat = min (x.absent.toNat + (1 + m)) 4294967295 ∧ y.clipped = x.clipped ∧
    y.acc = x.acc ∧
    (y.damaged = true ↔ x.damaged = true ∨ passes = true ∨ 4294967295 < x.absent.toNat + (1 + m)) := by
  have counted : x.count m st =
      { x with absent := (addCount x.absent (1 + m)).1, damaged := x.damaged || (addCount x.absent (1 + m)).2 } := by
    unfold PointEntry.count
    split
    next es clip => exact absurd rfl (h es clip)
    · rfl
  rw [counted]
  refine ⟨rfl, addCount_toNat _ _, rfl, rfl, ?_⟩
  unfold PointEntry.spanDamaged
  simp only [Bool.or_eq_true, addCount_passes]
  tauto

theorem PointEntry.add_of_unused {x : PointEntry} (h : x.inUse = false) (m : Nat) (later : Bool) (r : Option PointResult) :
    x.add m later r = x := by
  unfold PointEntry.add
  rw [if_neg (by rw [h]; decide)]

theorem PointEntry.add_of_used {x : PointEntry} (h : x.inUse = true) (m : Nat) (later : Bool) (r : Option PointResult) :
    x.add m later r = (x.count m (r.map PointResult.status)).noteProfile later r := if_pos h

theorem PointEntry.count_kept (x : PointEntry) (m : Nat) (st : Option PointStatus) : (x.count m st).inUse = x.inUse ∧
    (x.count m st).mask = x.mask ∧ (x.count m st).invert = x.invert ∧ (x.count m st).maskChanged = x.maskChanged := by
  unfold PointEntry.count
  split
  · exact ⟨rfl, rfl, rfl, rfl⟩
  · exact ⟨rfl, rfl, rfl, rfl⟩

/-- An entry's addition, as R66, R67 and R71 say it. -/
theorem PointEntry.add_received (x : PointEntry) (m : Nat) (later passes : Bool) (r : Option PointResult) :
    x.Received ((x.add m later r).spanDamaged passes) m later passes r := by
  cases hu : x.inUse with
  | false =>
    rw [PointEntry.add_of_unused hu]
    exact ⟨rfl, fun _ => rfl, fun h => absurd (hu.symm.trans h) (by decide)⟩
  | true =>
    rw [PointEntry.add_of_used hu]
    obtain ⟨huse, hmask, hinvert, hchanged⟩ := x.count_kept m (r.map PointResult.status)
    cases r with
    | none =>
      refine ⟨huse, fun h => absurd (hu.symm.trans h) (by decide), fun _ => ⟨?_, hmask, hinvert, hchanged⟩⟩
      exact x.count_absent (st := none) m passes fun es clip h => by cases h
    | some r =>
      refine ⟨huse, fun h => absurd (hu.symm.trans h) (by decide), fun _ => ⟨?_, rfl, rfl, ?_⟩⟩
      · obtain ⟨p, st, mark, mask, invert⟩ := r
        cases st with
        | valid es clip => exact x.count_received m passes es clip
        | absent => exact x.count_absent (st := some .absent) m passes fun es clip h => by cases h
        | invalid => exact x.count_absent (st := some .invalid) m passes fun es clip h => by cases h
      · unfold PointEntry.spanDamaged PointEntry.noteProfile
        simp only [hmask, hinvert, hchanged, Bool.or_eq_true, Bool.and_eq_true, bne_iff_ne]
        tauto

theorem BalanceEntry.add_received (x : BalanceEntry) (m : Nat) (passes : Bool) (r : Option (Vector Nat 104)) :
    x.Received { x.add m r with damaged := (x.add m r).damaged || passes } m passes r := by
  unfold BalanceEntry.Received BalanceEntry.add
  cases r with
  | some es =>
    refine ⟨addCount_toNat _ _, addCount_toNat _ _, addEnergies_toNat _ _, ?_⟩
    simp only [Bool.or_eq_true, addCount_passes, anyEnergyPasses_iff]
    tauto
  | none =>
    refine ⟨rfl, addCount_toNat _ _, rfl, ?_⟩
    simp only [Bool.or_eq_true, addCount_passes]
    tauto

/-! ### The set's addition -/

/-- A set after an addition, field by field (R65 to R68, assumption 18). -/
theorem AccSet.add_fields (x : AccSet) (b : BankId) (q : Seq16) (m : Nat) (c : Calculation) :
    (x.add b q m x.start.isSome c).span.toNat = min (x.span.toNat + 1 + m) 4294967295 ∧
    (x.add b q m x.start.isSome c).start = some (x.start.getD q) ∧ (x.add b q m x.start.isSome c).last = some q ∧
    (∀ n : Fin 5, x.entries[n].Received (x.add b q m x.start.isSome c).entries[n] m x.start.isSome
      (decide (4294967295 < x.span.toNat + 1 + m)) (c.resultAt b n)) ∧
    ∀ z, x.balance = some z → ∃ z', (x.add b q m x.start.isSome c).balance = some z' ∧
      z.Received z' m (decide (4294967295 < x.span.toNat + 1 + m)) c.balance := by
  have span : (addCount x.span (1 + m)).1.toNat = min (x.span.toNat + 1 + m) 4294967295 := by
    rw [addCount_toNat]
    omega
  have passes : decide (4294967295 < x.span.toNat + 1 + m) = (addCount x.span (1 + m)).2 := by
    rw [Bool.eq_iff_iff, addCount_passes, decide_eq_true_eq]
    omega
  have start : (if x.start.isSome = true then x.start else some q) = some (x.start.getD q) := by
    cases x.start <;> rfl
  have entry (n : Fin 5) := x.entries[n].add_received m x.start.isSome (addCount x.span (1 + m)).2 (c.resultAt b n)
  rw [passes]
  unfold AccSet.add
  dsimp only
  cases hp : (addCount x.span (1 + m)).2 with
  | false =>
    rw [if_neg (by decide)]
    refine ⟨span, start, rfl, fun n => ?_, fun z hz => ?_⟩
    · have received := entry n
      rw [hp] at received
      simp only [PointEntry.spanDamaged, Bool.or_false] at received
      rw [Fin.getElem_fin (tabulate 5 _), getElem_tabulate]
      exact received
    · refine ⟨_, by rw [hz]; rfl, ?_⟩
      have received := z.add_received m false c.balance
      simp only [Bool.or_false] at received
      exact received
  | true =>
    rw [if_pos rfl]
    refine ⟨span, start, rfl, fun n => ?_, fun z hz => ?_⟩
    · have received := entry n
      rw [hp] at received
      simp only [PointEntry.spanDamaged, Bool.or_true] at received
      unfold AccSet.damageAll
      dsimp only
      rw [Fin.getElem_fin (tabulate 5 _), getElem_tabulate]
      simp only [Fin.getElem_fin, getElem_tabulate]
      exact received
    · refine ⟨_, by unfold AccSet.damageAll; rw [hz]; rfl, ?_⟩
      have received := z.add_received m true c.balance
      simp only [Bool.or_true] at received
      exact received

/-! ### The addition at a bank of a table without errors -/

theorem State.addToSet_of_clean {s : State} (h : s.ecc.accounting = []) (b : BankId) (i : Fin 2) (q : Seq16) (m : Nat)
    (c : Calculation) : s.addToSet b i q m c = (s.putBank b (s.banks[b].withSet i
      (s.banks[b].sets[i].add b q m s.banks[b].sets[i].start.isSome c))).spanWritten b := by
  unfold State.addToSet
  dsimp only
  rw [State.checkAccs_of_clean h, State.checkAccs_of_clean h]
  rfl

theorem Bank.askTiming_eq (x : Bank) : x.askTiming = { x with held := x.askTiming.held } := by
  unfold Bank.askTiming
  split
  · rfl
  · rw [Bank.ask_eq]

/-- A bank and its fold after the timing test's ask and the held-close test (R75, R76, R78). -/
theorem State.timingTest_cases (s : State) (b : BankId) :
    (((s.putBank b s.banks[b].askTiming).heldTest b).banks[b] = s.banks[b].askTiming) ∨
    ∃ a h, s.banks[b].phase = .opened a ∧ s.banks[b].askTiming.held = some h ∧
      ((s.putBank b s.banks[b].askTiming).heldTest b).folds[b] = some ⟨a, s.banks[b].interval, h.causes, 0, 0, 0⟩ ∧
      ((s.putBank b s.banks[b].askTiming).heldTest b).banks[b].held = none ∧
      ((s.putBank b s.banks[b].askTiming).heldTest b).banks[b].sets[a] = { s.banks[b].sets[a] with causes := h.causes } := by
  let u := s.putBank b s.banks[b].askTiming
  have own : u.banks[b] = s.banks[b].askTiming := getElem_fin_set_self _ _ _
  rcases u.heldTest_cases b with heq | ⟨a, h, -, hphase, hheld, -, heq⟩
  · left
    rw [show s.putBank b s.banks[b].askTiming = u from rfl, heq, own]
  · right
    rw [own] at hphase hheld
    rw [Bank.askTiming_eq] at hphase
    have interval : u.banks[b].interval = s.banks[b].interval := by
      rw [own, Bank.askTiming_eq]
    have sets : u.banks[b].sets = s.banks[b].sets := by
      rw [own, Bank.askTiming_eq]
    refine ⟨a, h, hphase, hheld, ?_⟩
    rw [show s.putBank b s.banks[b].askTiming = u from rfl, heq, State.closeStart_folds, State.closeStart_banks,
      getElem_fin_set_self, getElem_fin_set_self, (u.turnedBank_sets b a h).1, sets]
    refine ⟨?_, rfl, rfl⟩
    unfold State.begunFold
    rw [interval]

/-- The causes of a held close after the timing test (R75, R76, R77). -/
theorem Bank.askTiming_held {x : Bank} (hx : x.takesClose = true) :
    (x.timingCause.isEmpty = true → x.askTiming = x) ∧
    (x.timingCause.isEmpty = false → ∃ h, x.askTiming.held = some h ∧ h.causes = x.heldCauses.union x.timingCause) := by
  unfold Bank.askTiming
  refine ⟨fun h => if_pos h, fun h => ?_⟩
  rw [if_neg (by rw [h]; decide), Bank.ask_eq, if_pos hx]
  exact ⟨_, rfl, rfl⟩

theorem Bank.span_of_accumulating {x : Bank} {i : Fin 2} (h : x.phase.accumulating = some i) :
    x.span = x.sets[i].span.toNat := by
  unfold Bank.span
  rw [h]

/-- What the timing test asks (R75, R76). -/
theorem Bank.timingCause_spec (x : Bank) :
    (x.timing.coupled = false → x.timing.length ≤ x.span → x.timingCause = Causes.onlyCount) ∧
    (x.timing.coupled = true → 2 * x.timing.length ≤ x.span → x.timingCause = Causes.onlyOverlong) ∧
    (x.span < (if x.timing.coupled = true then 2 * x.timing.length else x.timing.length) → x.timingCause = State.noCauses) ∧
    (x.timingCause.overlong = true ↔ x.timing.coupled = true ∧ 2 * x.timing.length ≤ x.span) := by
  unfold Bank.timingCause
  cases x.timing.coupled with
  | false =>
    refine ⟨fun _ h => if_pos h, fun h => absurd h (by decide), fun h => if_neg (Nat.not_le.mpr h), ?_⟩
    refine iff_of_false ?_ fun h => absurd h.1 (by decide)
    rw [if_neg (by decide)]
    split <;> decide
  | true =>
    refine ⟨fun h => absurd h (by decide), fun _ h => if_pos h, fun h => if_neg (Nat.not_le.mpr h), ?_⟩
    rw [if_pos rfl]
    split
    next h => exact iff_of_true rfl ⟨rfl, h⟩
    next h => exact iff_of_false (by decide) fun hand => h hand.2

theorem State.asked_of_timing {s t : State} {b : BankId} {i : Fin 2} (hacc : s.banks[b].phase.accumulating = some i)
    (hbanks : t.banks[b] = ((s.putBank b s.banks[b].askTiming).heldTest b).banks[b])
    (hfolds : t.folds[b] = ((s.putBank b s.banks[b].askTiming).heldTest b).folds[b]) {cause : Causes → Bool}
    (hcause : ∃ h, s.banks[b].askTiming.held = some h ∧ cause h.causes = true) : t.Asked b i cause := by
  obtain ⟨h, hheld, hin⟩ := hcause
  rcases s.timingTest_cases b with hstay | ⟨a, g, hphase, hg, hfold, -, -⟩
  · left
    exact ⟨h, by rw [hbanks, hstay, hheld], hin⟩
  · right
    rw [hheld] at hg
    cases hg
    rw [hphase] at hacc
    cases hacc
    exact ⟨_, hfolds.trans hfold, rfl, hin⟩

/-- The OVERLONG push of a timing test (R76). -/
theorem State.pushOverlong_spec (s : State) (b : BankId) (x : Bank) :
    if x.timing.coupled = true ∧ 2 * x.timing.length ≤ x.span ∧ x.heldCauses.overlong = false then
      (s.pushOverlong b x).latched .exception = true ∧
      (s.exceptions.top = 0 → (s.pushOverlong b x).exceptions.lost = s.exceptions.lost + 1) ∧
      ∀ n : Fin 64, s.exceptions.top = n.val + 1 → (s.pushOverlong b x).exceptions.top = n.val ∧
        (s.pushOverlong b x).exceptions.records[n].kind = 3 ∧
        (s.pushOverlong b x).exceptions.records[n].subject = BitVec.ofNat 32 b.val ∧
        (s.pushOverlong b x).exceptions.records[n].d0 = x.interval ∧
        (s.pushOverlong b x).exceptions.records[n].d1 = BitVec.ofNat 32 x.span ∧
        (s.pushOverlong b x).exceptions.records[n].d2 = BitVec.ofNat 32 x.timing.length
    else (s.pushOverlong b x).exceptions = s.exceptions := by
  have cond : (x.timingCause.overlong && !x.heldCauses.overlong) = true ↔
      x.timing.coupled = true ∧ 2 * x.timing.length ≤ x.span ∧ x.heldCauses.overlong = false := by
    rw [Bool.and_eq_true, Bool.not_eq_true', x.timingCause_spec.2.2.2, and_assoc]
  by_cases h : x.timing.coupled = true ∧ 2 * x.timing.length ≤ x.span ∧ x.heldCauses.overlong = false
  · have pushed : s.pushOverlong b x = s.push .overlong (BitVec.ofNat 32 b.val) x.interval (BitVec.ofNat 32 x.span)
        (BitVec.ofNat 32 x.timing.length) noCopy := if_pos (cond.mpr h)
    rw [if_pos h, pushed]
    refine ⟨or_flag_latched (State.push_latched _ _ _ _ _ _ _), fun hfull => ?_, fun n hn => ?_⟩
    · exact (State.push_exceptions_of_full _ _ _ _ _ _ _ hfull).1
    · rw [State.push_exceptions_of_room _ _ _ _ _ _ _ n hn]
      dsimp only
      rw [getElem_fin_set_self]
      exact ⟨rfl, rfl, rfl, rfl, rfl, rfl⟩
  · have stays : s.pushOverlong b x = s := if_neg fun hc => h (cond.mp hc)
    rw [if_neg h, stays]

/-- The ACCUMULATING set after the timing test is the set as it was, but for the causes of a close start. -/
theorem State.timingTest_set {s : State} {b : BankId} {i : Fin 2} (hacc : s.banks[b].phase.accumulating = some i) :
    ∃ causes, ((s.putBank b s.banks[b].askTiming).heldTest b).banks[b].sets[i] =
      { s.banks[b].sets[i] with causes := causes } := by
  rcases s.timingTest_cases b with hstay | ⟨a, h, hphase, -, -, -, hset⟩
  · refine ⟨s.banks[b].sets[i].causes, ?_⟩
    rw [hstay, Bank.askTiming_eq]
  · rw [hphase] at hacc
    cases hacc
    exact ⟨_, hset⟩

/-- What the timing test and the held-close test do to a bank that accumulates (R75 to R78). -/
theorem State.timingTest_spec {s t : State} {b : BankId} {i : Fin 2} (hacc : s.banks[b].phase.accumulating = some i)
    (hbanks : t.banks[b] = ((s.putBank b s.banks[b].askTiming).heldTest b).banks[b])
    (hfolds : t.folds[b] = ((s.putBank b s.banks[b].askTiming).heldTest b).folds[b]) :
    (t.banks[b].phase = s.banks[b].phase ∨ ∃ f, t.folds[b] = some f ∧ f.set = i ∧ f.interval = s.banks[b].interval) ∧
    (s.banks[b].timing.coupled = false → s.banks[b].timing.length ≤ s.banks[b].span → t.Asked b i Causes.count) ∧
    (s.banks[b].timing.coupled = true → 2 * s.banks[b].timing.length ≤ s.banks[b].span → t.Asked b i Causes.overlong) ∧
    (s.banks[b].span < (if s.banks[b].timing.coupled = true then 2 * s.banks[b].timing.length
        else s.banks[b].timing.length) → t.banks[b].held = s.banks[b].held ∨
      ∃ f, t.folds[b] = some f ∧ f.set = i ∧ s.banks[b].held.map HeldClose.causes = some f.causes) := by
  have takes : s.banks[b].takesClose = true := by
    unfold Bank.takesClose
    rw [hacc]
    rfl
  obtain ⟨hcount, hoverlong, hshort, -⟩ := s.banks[b].timingCause_spec
  obtain ⟨hempty, hasked⟩ := Bank.askTiming_held takes
  refine ⟨?_, fun hc hl => ?_, fun hc hl => ?_, fun hlt => ?_⟩
  · rcases s.timingTest_cases b with hstay | ⟨a, h, hphase, -, hfold, -, -⟩
    · left
      rw [hbanks, hstay, Bank.askTiming_eq]
    · right
      rw [hphase] at hacc
      cases hacc
      exact ⟨_, hfolds.trans hfold, rfl, rfl⟩
  · have cause := hcount hc hl
    obtain ⟨h, hheld, hunion⟩ := hasked (by rw [cause]; rfl)
    exact State.asked_of_timing hacc hbanks hfolds ⟨h, hheld, by rw [hunion, cause]; exact Bool.or_true _⟩
  · have cause := hoverlong hc hl
    obtain ⟨h, hheld, hunion⟩ := hasked (by rw [cause]; rfl)
    exact State.asked_of_timing hacc hbanks hfolds ⟨h, hheld, by rw [hunion, cause]; exact Bool.or_true _⟩
  · have same := hempty (by rw [hshort hlt]; rfl)
    rcases s.timingTest_cases b with hstay | ⟨a, h, hphase, hheld, hfold, -, -⟩
    · left
      rw [hbanks, hstay, same]
    · right
      rw [hphase] at hacc
      cases hacc
      rw [same] at hheld
      exact ⟨_, hfolds.trans hfold, rfl, by rw [hheld]; rfl⟩

/-- What an addition at a bank that accumulates does, with the set after it (R65 to R68, R75, R76). -/
def State.AddsWindow (s : State) (b : BankId) (i : Fin 2) (q : Seq16) (m : Nat) (c : Calculation) (x y : AccSet) (t : State) :
    Prop :=
  t.banks[b].sets[i] = y ∧
  (t.banks[b].phase = s.banks[b].phase ∨ ∃ f, t.folds[b] = some f ∧ f.set = i ∧ f.interval = s.banks[b].interval) ∧
  y.span.toNat = min (x.span.toNat + 1 + m) 4294967295 ∧ y.start = some (x.start.getD q) ∧ y.last = some q ∧
  (∀ n : Fin 5, x.entries[n].Received y.entries[n] m x.start.isSome
    (decide (4294967295 < x.span.toNat + 1 + m)) (c.resultAt b n)) ∧
  (∀ z, x.balance = some z → ∃ z', y.balance = some z' ∧
    z.Received z' m (decide (4294967295 < x.span.toNat + 1 + m)) c.balance) ∧
  t.bankCounters = s.bankCounters ∧ t.accounting = s.accounting ∧
  (s.banks[b].timing.coupled = false → s.banks[b].timing.length ≤ y.span.toNat → t.Asked b i Causes.count) ∧
  (s.banks[b].timing.coupled = true → 2 * s.banks[b].timing.length ≤ y.span.toNat → t.Asked b i Causes.overlong) ∧
  (y.span.toNat < (if s.banks[b].timing.coupled = true then 2 * s.banks[b].timing.length
      else s.banks[b].timing.length) →
    t.banks[b].held = s.banks[b].held ∨
      ∃ f, t.folds[b] = some f ∧ f.set = i ∧ s.banks[b].held.map HeldClose.causes = some f.causes) ∧
  if s.banks[b].timing.coupled = true ∧ 2 * s.banks[b].timing.length ≤ y.span.toNat ∧
      s.banks[b].heldCauses.overlong = false then
    t.latched .exception = true ∧ (s.exceptions.top = 0 → t.exceptions.lost = s.exceptions.lost + 1) ∧
    ∀ n : Fin 64, s.exceptions.top = n.val + 1 → t.exceptions.top = n.val ∧ t.exceptions.records[n].kind = 3 ∧
      t.exceptions.records[n].subject = BitVec.ofNat 32 b.val ∧ t.exceptions.records[n].d0 = s.banks[b].interval ∧
      t.exceptions.records[n].d1 = y.span ∧
      t.exceptions.records[n].d2 = BitVec.ofNat 32 s.banks[b].timing.length
  else t.exceptions = s.exceptions

/-- The tests after the addition leave the set but for its causes, so that the addition's results stand (R65 to R68). -/
theorem State.addWindow_addsWindow {s : State} {b : BankId} {i : Fin 2} (hclean : s.ecc.accounting = [])
    (hacc : s.banks[b].phase.accumulating = some i) (q : Seq16) (m : Nat) (c : Calculation) :
    ∃ y, s.AddsWindow b i q m c s.banks[b].sets[i] y (s.addWindow b i q m c) := by
  let x := s.banks[b].sets[i]
  let v := (s.putBank b (s.banks[b].withSet i (x.add b q m x.start.isSome c))).spanWritten b
  have hv : s.addToSet b i q m c = v := State.addToSet_of_clean hclean b i q m c
  have vbank : v.banks[b] = s.banks[b].withSet i (x.add b q m x.start.isSome c) := getElem_fin_set_self _ _ _
  have vset : v.banks[b].sets[i] = x.add b q m x.start.isSome c := by
    rw [vbank]
    exact getElem_fin_set_self _ _ _
  have vphase : v.banks[b].phase = s.banks[b].phase := by rw [vbank]; rfl
  have vtiming : v.banks[b].timing = s.banks[b].timing := by rw [vbank]; rfl
  have vheld : v.banks[b].held = s.banks[b].held := by rw [vbank]; rfl
  have vinterval : v.banks[b].interval = s.banks[b].interval := by rw [vbank]; rfl
  have vcauses : v.banks[b].heldCauses = s.banks[b].heldCauses := by
    unfold Bank.heldCauses
    rw [vheld]
  have vacc : v.banks[b].phase.accumulating = some i := vphase ▸ hacc
  have vspan : v.banks[b].span = (x.add b q m x.start.isSome c).span.toNat := by
    rw [Bank.span_of_accumulating vacc, vset]
  generalize hw : (v.putBank b v.banks[b].askTiming).heldTest b = w
  have heq : s.addWindow b i q m c = w.pushOverlong b v.banks[b] := by
    unfold State.addWindow
    rw [hv, ← hw]
  have pushed : w.Touches [.exceptions, .latched, .exchangeMarks] (w.pushOverlong b v.banks[b]) :=
    w.pushOverlong_touches b v.banks[b]
  have tested : v.Touches (.banks :: Part.ofClose) w := by
    rw [← hw]
    exact ((v.putBank_touches b _).mono (by decide)).trans ((State.heldTest_closeEffect _ b).touches.mono (by decide))
  have hbanks := congrArg (fun z => z[b]) (pushed.banks (by decide))
  have hfolds := congrArg (fun z => z[b]) (pushed.folds (by decide))
  have exceptions : w.exceptions = s.exceptions := tested.exceptions (by decide)
  obtain ⟨causes, hset⟩ := State.timingTest_set vacc
  obtain ⟨hphase, hcount, hoverlong, hshort⟩ := State.timingTest_spec (t := w.pushOverlong b v.banks[b]) vacc
    (hbanks.trans (by rw [hw])) (hfolds.trans (by rw [hw]))
  obtain ⟨aspan, astart, alast, aentries, abalance⟩ := x.add_fields b q m c
  have overlong := w.pushOverlong_spec b v.banks[b]
  rw [hw, vset] at hset
  rw [vphase, vinterval] at hphase
  rw [vtiming, vspan] at hcount hoverlong hshort
  rw [vheld] at hshort
  rw [vtiming, vspan, vcauses, vinterval, exceptions, BitVec.ofNat_toNat, BitVec.setWidth_eq] at overlong
  rw [heq]
  refine ⟨{ x.add b q m x.start.isSome c with causes := causes }, (congrArg (fun z : Bank => z.sets[i]) hbanks).trans hset,
    hphase, aspan, astart, alast, aentries, abalance, ?_, ?_, hcount, hoverlong, hshort, overlong⟩
  · exact (pushed.bankCounters (by decide)).trans (tested.bankCounters (by decide))
  · exact (pushed.accounting (by decide)).trans (tested.accounting (by decide))

/-- Settles O32. -/
theorem additionAtOpenBank : Obligations.AdditionAtOpenBank := by
  intro s b i a c e m x hr hclean ha hc he hadded haside hacc hm hx
  let u := s.additionNoted b a m
  have heffect : exec (.windowAddition b) s = .next (u.addWindow b i e.seq m c) := by
    have added := State.windowAddition_eq ha hc he hadded
    rw [hm, if_neg (by rw [haside]; decide), hacc, Option.elim_some] at added
    rw [exec_of_ready _ hr]
    exact congrArg Host.Outcome.next added
  have touches : s.Touches [.accounting, .bankCounters, .exchangeMarks] u := s.additionNoted_touches b a m
  have ubanks : u.banks = s.banks := touches.banks (by decide)
  obtain ⟨y, adds⟩ := State.addWindow_addsWindow (s := u) ((touches.accountingMarks (by decide)).trans hclean)
    (by rw [ubanks]; exact hacc) e.seq m c
  unfold State.AddsWindow at adds
  rw [ubanks, hx, touches.exceptions (by decide), s.additionNoted_counters, s.additionNoted_accounting] at adds
  obtain ⟨hy, hphase, hspan, hstart, hlast, hentries, hbalance, hcounters, haccounting, hrest⟩ := adds
  refine ⟨_, y, heffect, hy, haccounting, hphase, hspan, hstart, hlast, hentries, hbalance, ?_, hrest⟩
  by_cases hb : b = 0
  · rw [if_pos hb] at hcounters ⊢
    exact hcounters
  · rw [if_neg hb] at hcounters ⊢
    exact hcounters

end Sys2Proof.Machine
end

section
/-! SUPPORT. The point step over stores without errors: the register set it leaves (R97 to R103). -/

namespace Sys2Proof.Machine

/-! ### The parts of a point step -/

theorem State.stepReads_of_clean {s : State} (h : s.TablesClean) (b : BankId) (i : Fin 2) (e : Fin 6) :
    s.stepReads b i e = s := by
  unfold State.stepReads
  dsimp only
  rw [State.checkRegs_of_clean h.2, State.checkRegs_of_clean h.2, State.checkAccs_of_clean h.1]

theorem State.stepScale_regs (s : State) (p : SetId) (n : Word) :
    (s.stepScale p n).regs = s.regs.set p s.regs[p].scalePart := by
  unfold State.stepScale
  dsimp only
  split
  · exact (State.push_pushed _ _ _ _ _ _ _).regs
  · rfl

theorem State.stepSettle_regs (s : State) (p : SetId) (n : Word) (totals : Vector (BitVec 64) 104) :
    (s.stepSettle p n totals).regs = s.regs.set p (s.regs[p].settle totals) := by
  have ended (u : State) (x : PendingRebase) : (u.endRebase p n x).regs = u.regs :=
    (u.endDeferred_touches _ _ _ _ _ _ _).regs (by decide)
  unfold State.stepSettle
  dsimp only
  split
  · refine (State.push_pushed _ _ _ _ _ _ _).regs.trans ?_
    split
    · exact ended _ _
    · rfl
  · split
    · exact ended _ _
    · rfl

/-- The register set after a point step without errors. -/
def RegisterSet.stepped (r : RegisterSet) (totals : Vector (BitVec 64) 104) (n : Word) : RegisterSet :=
  { r.scalePart.settle totals with lastFolded := n }

theorem State.stepScale_banks (s : State) (p : SetId) (n : Word) : (s.stepScale p n).banks = s.banks :=
  (s.stepScale_touches p n).banks (by decide)

/-- The state in which a point step without errors writes its record: the scale part and the second part done. -/
def State.stepSettled (s : State) (b : BankId) (f : Fold) (e : Fin 6) : State :=
  (s.stepScale (entryPoint b e) f.interval).stepSettle (entryPoint b e) f.interval (s.banks[b].sets[f.set].totals e)

/-- The due REBASE stays through the scale part. -/
theorem RegisterSet.scalePart_rebase (r : RegisterSet) : r.scalePart.rebase = r.rebase := by
  unfold RegisterSet.scalePart
  split
  · split
    · rfl
    · rfl
  · rfl

theorem RegisterSet.dueRebase_scalePart (r : RegisterSet) : r.scalePart.dueRebase = r.dueRebase := by
  unfold RegisterSet.dueRebase
  rw [RegisterSet.scalePart_rebase]

/-- The end of a step: the last folded interval, and the fold's position (R97). -/
def State.stepEnded (s : State) (b : BankId) (n : Word) (e : Fin 6) : State :=
  (s.stepInterval (entryPoint b e) n).putFold b (s.folds[b].map fun g => { g with position := e.val + 1 })

theorem State.stepEnded_touches (s : State) (b : BankId) (n : Word) (e : Fin 6) :
    s.Touches [.regs, .folds, .registerMarks] (s.stepEnded b n e) :=
  ((s.stepInterval_touches _ n).mono (by decide)).trans ((State.putFold_touches _ b _).mono (by decide))

theorem State.stepEnded_folds (s : State) (b : BankId) (n : Word) (e : Fin 6) :
    (s.stepEnded b n e).folds[b] = s.folds[b].map fun g => { g with position := e.val + 1 } := getElem_fin_set_self _ _ _

theorem State.stepEnded_regs (s : State) (b : BankId) (n : Word) (e : Fin 6) :
    (s.stepEnded b n e).regs = s.regs.set (entryPoint b e) { s.regs[entryPoint b e] with lastFolded := n } := rfl

theorem State.stepEntry_of_clean {s : State} (h : s.TablesClean) (b : BankId) (f : Fold) (e : Fin 6) :
    s.stepEntry b f e =
      ((s.stepSettled b f e).stepRecord b e f s.regs[entryPoint b e].dueRebase.isSome).stepEnded b f.interval e := by
  have due : (s.stepScale (entryPoint b e) f.interval).regs[entryPoint b e].dueRebase = s.regs[entryPoint b e].dueRebase := by
    rw [State.stepScale_regs, getElem_fin_set_self, RegisterSet.dueRebase_scalePart]
  unfold State.stepEntry
  dsimp only
  rw [State.stepReads_of_clean h, due, State.stepScale_banks]
  rfl

theorem State.stepSettled_regs (s : State) (b : BankId) (f : Fold) (e : Fin 6) : (s.stepSettled b f e).regs =
    s.regs.set (entryPoint b e) (s.regs[entryPoint b e].scalePart.settle (s.banks[b].sets[f.set].totals e)) := by
  unfold State.stepSettled
  rw [State.stepSettle_regs, State.stepScale_regs, getElem_fin_set_self, Vector.set_set]

/-- The register store after a point step without errors: the step's point alone changed. -/
theorem State.stepEntry_regs {s : State} (h : s.TablesClean) (b : BankId) (f : Fold) (e : Fin 6) : (s.stepEntry b f e).regs =
    s.regs.set (entryPoint b e) (s.regs[entryPoint b e].stepped (s.banks[b].sets[f.set].totals e) f.interval) := by
  have recorded : ((s.stepSettled b f e).stepRecord b e f s.regs[entryPoint b e].dueRebase.isSome).regs =
      s.regs.set (entryPoint b e) (s.regs[entryPoint b e].scalePart.settle (s.banks[b].sets[f.set].totals e)) :=
    ((s.stepSettled b f e).stepRecord_touches b e f _).regs (by decide) |>.trans (s.stepSettled_regs b f e)
  rw [State.stepEntry_of_clean h, State.stepEnded_regs, recorded, getElem_fin_set_self, Vector.set_set]
  rfl

/-! ### The register set -/

theorem RegisterSet.scalePart_scale (r : RegisterSet) :
    r.scalePart.scale = if r.abandons.isSome then r.scale else r.dueScale.getD r.scale := by
  unfold RegisterSet.scalePart
  cases hd : r.dueScale with
  | none => simp
  | some v =>
    dsimp only
    split
    · rfl
    · rfl

theorem RegisterSet.scalePart_staged (r : RegisterSet) :
    r.scalePart.staged = if r.dueScale.isSome then none else r.staged := by
  unfold RegisterSet.scalePart
  cases hd : r.dueScale with
  | none => rfl
  | some v =>
    dsimp only
    split
    · rfl
    · rfl

theorem RegisterSet.dueScale_ne {r : RegisterSet} (h : r.Ok) {v : Fin 4} (hv : r.dueScale = some v) : v ≠ r.scale := by
  unfold RegisterSet.dueScale at hv
  split at hv
  next x hx =>
    split at hv
    · cases hv
      exact h.2.1 x hx
    · cases hv
  · cases hv

/-- The scale part keeps every quantity's state and the stored value of every VALID one (R99, R100). -/
theorem RegisterSet.scalePart_quantity {r : RegisterSet} (h : r.Ok) (q : QuantityId) :
    r.scalePart.quantities[q].valid = r.quantities[q].valid ∧
      (r.quantities[q].valid = true →
        r.scalePart.quantities[q].stored r.scalePart.scale = r.quantities[q].stored r.scale) := by
  unfold RegisterSet.scalePart
  cases hd : r.dueScale with
  | none => exact ⟨rfl, fun _ => rfl⟩
  | some v =>
    dsimp only
    by_cases ha : r.abandons.isSome = true
    · rw [if_pos ha]
      exact ⟨rfl, fun _ => rfl⟩
    · rw [if_neg ha]
      have passes : v < r.scale → r.failing (r.scale.val - v.val) = none := fun hlt => by
        have none : r.abandons = none := Option.not_isSome_iff_eq_none.mp ha
        unfold RegisterSet.abandons at none
        rw [hd] at none
        simpa only [if_pos hlt] using none
      obtain ⟨hscale, -, -, hquantities⟩ := scaleChangeKeepsStoredValue r v h (RegisterSet.dueScale_ne h hd) passes
      rw [hscale]
      exact hquantities q

theorem Quantity.stored_addTotal (q : Quantity) (scale : Fin 4) (total : Nat) :
    if q.valid = true then
      if q.stored scale + total < registerLimit * residueLimit scale then
        (q.addTotal scale total).valid = true ∧ (q.addTotal scale total).stored scale = q.stored scale + total
      else (q.addTotal scale total).valid = false ∧ (q.addTotal scale total).stored scale = q.stored scale
    else (q.addTotal scale total).valid = false := by
  have overflow : registerLimit ≤ q.register + (q.residue + total) / residueLimit scale ↔
      registerLimit * residueLimit scale ≤ q.stored scale + total := by
    unfold Quantity.stored
    rw [← Nat.mul_add_div (residueLimit_pos scale), Nat.le_div_iff_mul_le (residueLimit_pos scale), Nat.mul_comm (residueLimit scale)
      q.register, Nat.add_assoc]
  unfold Quantity.addTotal
  cases hv : q.valid with
  | false => simp [hv]
  | true =>
    simp only [Bool.not_true, Bool.false_eq_true, if_false, if_true]
    by_cases ho : registerLimit ≤ q.register + (q.residue + total) / residueLimit scale
    · have passes : q.overflows scale total = true := by
        unfold Quantity.overflows
        rw [hv, decide_eq_true ho]
        rfl
      rw [if_neg (Nat.not_lt.mpr (overflow.mp ho)), if_pos passes]
      exact ⟨rfl, rfl⟩
    · have under : ¬q.overflows scale total = true := by
        unfold Quantity.overflows
        rw [hv, decide_eq_false ho]
        decide
      rw [if_pos (Nat.not_le.mp fun hle => ho (overflow.mpr hle)), if_neg under]
      refine ⟨rfl, ?_⟩
      unfold Quantity.stored
      dsimp only
      rw [Nat.add_mul, Nat.add_assoc, Nat.mul_comm (_ / _), Nat.div_add_mod, Nat.add_assoc]

theorem RegisterSet.settle_quantity (r : RegisterSet) (totals : Vector (BitVec 64) 104) (q : QuantityId) :
    (r.settle totals).quantities[q] =
      r.quantities[q].settle r.scale (r.dueRebase.bind fun x => x.valueFor q.val) totals[q].toNat := by
  unfold RegisterSet.settle RegisterSet.mapQuantities
  simp only [getElem_fin_tabulate]

/-- The record of a step over a table without errors (R98). -/
theorem State.stepRecord_of_clean {s : State} (h : s.ecc.accounting = []) (b : BankId) (e : Fin 6) (f : Fold) (rebased : Bool) :
    s.stepRecord b e f rebased = if s.banks[b].archive = true then
      s.writeRecord b s.banks[b].sets[f.set].interval
        ((s.banks[b].sets[f.set].recordHead b e rebased s.regs[entryPoint b e].anyInvalid).bytes
          (s.banks[b].sets[f.set].totals e)) else s := by
  unfold State.stepRecord
  rw [State.checkAccs_of_clean h]

theorem State.stepSettled_touches (s : State) (b : BankId) (f : Fold) (e : Fin 6) :
    s.Touches Part.ofSettle (s.stepSettled b f e) := by
  unfold State.stepSettled
  exact ((s.stepScale_touches _ _).mono (by decide)).trans (State.stepSettle_touches _ _ _ _)

theorem State.stepRecord_settled {s : State} (h : s.TablesClean) (b : BankId) (f : Fold) (e : Fin 6) (rebased : Bool) :
    (s.stepSettled b f e).stepRecord b e f rebased = if s.banks[b].archive = true then
      (s.stepSettled b f e).writeRecord b s.banks[b].sets[f.set].interval
        ((s.banks[b].sets[f.set].recordHead b e rebased (s.stepSettled b f e).regs[entryPoint b e].anyInvalid).bytes
          (s.banks[b].sets[f.set].totals e)) else s.stepSettled b f e := by
  have touches := s.stepSettled_touches b f e
  rw [State.stepRecord_of_clean ((touches.accountingMarks (by decide)).trans h.1), touches.banks (by decide)]

theorem State.writeRecord_fold {s : State} {b : BankId} {f : Fold} (hf : s.folds[b] = some f) (n : Word) (r : List Byte) :
    ∃ g : Fold, (s.writeRecord b n r).folds[b] = some g ∧ g.set = f.set ∧ g.interval = f.interval := by
  rcases s.writeRecord_folds b n r with hsame | ⟨m, hlost⟩
  · exact ⟨f, by rw [hsame, hf], rfl, rfl⟩
  · refine ⟨f.lose m, ?_, rfl, rfl⟩
    rw [hlost, getElem_fin_set_self, hf]
    rfl

/-- What a step's record leaves: the banks, and the fold but for its losses. -/
theorem State.stepRecord_fold {s : State} (h : s.TablesClean) {b : BankId} {f : Fold} (hf : s.folds[b] = some f) (e : Fin 6)
    (rebased : Bool) : ((s.stepSettled b f e).stepRecord b e f rebased).banks = s.banks ∧
      ∃ g : Fold, ((s.stepSettled b f e).stepRecord b e f rebased).folds[b] = some g ∧ g.set = f.set ∧ g.interval = f.interval := by
  have touches := s.stepSettled_touches b f e
  have folds : (s.stepSettled b f e).folds = s.folds := touches.folds (by decide)
  rw [State.stepRecord_settled h]
  by_cases ha : s.banks[b].archive = true
  · rw [if_pos ha]
    refine ⟨((State.writeRecord_recordEffect _ b _ _).touches.banks (by decide)).trans (touches.banks (by decide)), ?_⟩
    exact State.writeRecord_fold (folds ▸ hf) _ _
  · rw [if_neg ha]
    exact ⟨touches.banks (by decide), f, by rw [folds, hf], rfl, rfl⟩

theorem State.nextStep_spec {s : State} {b : BankId} {f : Fold} {e : Fin 6} (h : s.nextStep b = some (f, e)) :
    s.folds[b] = some f ∧ s.banks[b].sets[f.set].hasStep e = true := by
  unfold State.nextStep at h
  split at h
  next g hg =>
    obtain ⟨i, hi, heq⟩ := Option.map_eq_some_iff.mp h
    cases heq
    have found := List.find?_some hi
    exact ⟨hg, (Bool.and_eq_true_iff.mp found).2⟩
  · cases h

theorem State.exec_pointStep {s : State} {b : BankId} {f : Fold} {e : Fin 6} (hr : s.control.ready = true)
    (h : s.nextStep b = some (f, e)) : exec (.pointStep b) s = .next (s.stepEntry b f e) := by
  rw [exec_of_ready _ hr]
  refine congrArg Host.Outcome.next (?_ : s.pointStep b = _)
  unfold State.pointStep
  rw [h]

/-- The register set after a step: its scale, its items, and each quantity by the law of R103 (R97 to R103). -/
theorem RegisterSet.stepped_spec {r : RegisterSet} (h : r.Ok) (totals : Vector (BitVec 64) 104) (n : Word) :
    (r.stepped totals n).lastFolded = n ∧
    (r.stepped totals n).scale = (if r.abandons.isSome then r.scale else r.dueScale.getD r.scale) ∧
    (r.stepped totals n).staged = (if r.dueScale.isSome then none else r.staged) ∧
    (r.stepped totals n).rebase = (if r.dueRebase.isSome then none else r.rebase) ∧
    ∀ q : QuantityId,
      match r.dueRebase.bind fun x => x.valueFor q.val with
      | some v => (r.stepped totals n).quantities[q] = ⟨v, 0, true⟩
      | none =>
        if r.quantities[q].valid = true then
          if r.quantities[q].stored r.scale + (totals[q]).toNat < registerLimit * residueLimit (r.stepped totals n).scale then
            (r.stepped totals n).quantities[q].valid = true ∧
            (r.stepped totals n).quantities[q].stored (r.stepped totals n).scale =
              r.quantities[q].stored r.scale + (totals[q]).toNat
          else
            (r.stepped totals n).quantities[q].valid = false ∧
            (r.stepped totals n).quantities[q].stored (r.stepped totals n).scale = r.quantities[q].stored r.scale
        else (r.stepped totals n).quantities[q].valid = false := by
  have rebase : (r.stepped totals n).rebase = if r.scalePart.dueRebase.isSome then none else r.scalePart.rebase := rfl
  have scale : (r.stepped totals n).scale = r.scalePart.scale := rfl
  refine ⟨rfl, r.scalePart_scale, r.scalePart_staged, ?_, fun q => ?_⟩
  · rw [rebase, RegisterSet.dueRebase_scalePart, RegisterSet.scalePart_rebase]
  · have quantity : (r.stepped totals n).quantities[q] = r.scalePart.quantities[q].settle r.scalePart.scale
        (r.dueRebase.bind fun x => x.valueFor q.val) totals[q].toNat := by
      rw [← r.dueRebase_scalePart]
      exact r.scalePart.settle_quantity totals q
    rw [quantity, scale]
    cases r.dueRebase.bind fun x => x.valueFor q.val with
    | some v => rfl
    | none =>
      obtain ⟨hvalid, hstored⟩ := RegisterSet.scalePart_quantity h q
      have added := r.scalePart.quantities[q].stored_addTotal r.scalePart.scale totals[q].toNat
      rw [hvalid] at added
      dsimp only [Quantity.settle]
      by_cases hv : r.quantities[q].valid = true
      · rw [if_pos hv] at added ⊢
        rw [hstored hv] at added
        exact added
      · rw [if_neg hv] at added ⊢
        exact added

/-- Settles O35. -/
theorem pointStepFoldsInterval : Obligations.PointStepFoldsInterval := by
  intro s b f e hr hok hclean hstep
  obtain ⟨hfold, -⟩ := State.nextStep_spec hstep
  have regs := State.stepEntry_regs hclean b f e
  obtain ⟨hbanks, g, hg, hset, hinterval⟩ :=
    State.stepRecord_fold hclean hfold e s.regs[entryPoint b e].dueRebase.isSome
  have folds : (s.stepEntry b f e).folds[b] = some { g with position := e.val + 1 } := by
    rw [State.stepEntry_of_clean hclean, State.stepEnded_folds, hg]
    rfl
  have banks : (s.stepEntry b f e).banks = s.banks := by
    rw [State.stepEntry_of_clean hclean, (State.stepEnded_touches _ b _ e).banks (by decide)]
    exact hbanks
  refine ⟨_, State.exec_pointStep hr hstep, ⟨_, folds, hset, hinterval, rfl⟩, banks, fun p hp => ?_, ?_⟩
  · rw [regs, getElem_fin_set_of_ne _ _ hp]
  · rw [regs, getElem_fin_set_self]
    have spec := RegisterSet.stepped_spec (hok.1 (entryPoint b e)) (s.banks[b].sets[f.set].totals e) f.interval
    generalize s.regs[entryPoint b e] = r at spec ⊢
    generalize s.banks[b].sets[f.set].totals e = totals at spec ⊢
    obtain ⟨hlast, hscale, hstaged, hrebase, hquantities⟩ := spec
    refine ⟨hlast, hscale, hstaged, hrebase, fun q => ?_⟩
    have quantity := hquantities q
    generalize r.stepped totals f.interval = r' at quantity ⊢
    cases hnamed : r.dueRebase.bind fun x => x.valueFor q.val with
    | some v =>
      rw [hnamed] at quantity
      exact quantity
    | none =>
      rw [hnamed] at quantity
      exact quantity

end Sys2Proof.Machine
end

section
/-! SUPPORT. The bytes of an interval record (R98, R124, R125). -/

namespace Sys2Proof.Machine

/-! ### Fields of a byte list -/

theorem drop_append_of_length_le {α : Type} {a c : List α} {n : Nat} (h : a.length ≤ n) :
    (a ++ c).drop n = c.drop (n - a.length) := by
  rw [List.drop_append, List.drop_eq_nil_of_le h, List.nil_append]

theorem take_append_of_length_le {α : Type} {a c : List α} {n : Nat} (h : a.length ≤ n) :
    (a ++ c).take n = a ++ c.take (n - a.length) := by
  rw [List.take_append, List.take_of_length_le h]

/-- One of the items of equal length that a list is made of. -/
theorem flatMap_item {α β : Type} {f : α → List β} {w : Nat} (hf : ∀ x, (f x).length = w) {xs : List α} {i : Nat} {x : α}
    (h : xs[i]? = some x) (rest : List β) : ((xs.flatMap f ++ rest).drop (w * i)).take w = f x := by
  induction xs generalizing i with
  | nil => cases h
  | cons y ys ih =>
    rw [List.flatMap_cons, List.append_assoc]
    cases i with
    | zero =>
      cases h
      rw [Nat.mul_zero, List.drop_zero, List.take_left' (hf _)]
    | succ i =>
      rw [drop_append_of_length_le (by rw [hf, Nat.mul_succ]; omega), hf, Nat.mul_succ, Nat.add_sub_cancel]
      exact ih h

/-! ### The record -/

/-- The six fundamental quantities of a record. -/
def fundamentalBytes (acc : Vector (BitVec 64) 104) (q : Fin 6) : List Byte :=
  leBytes 8 acc[(⟨q.val, by omega⟩ : Fin 104)].toNat

theorem fundamentalBytes_length (acc : Vector (BitVec 64) 104) (q : Fin 6) : (fundamentalBytes acc q).length = 8 :=
  leBytes_length _ _

/-- A record as the fields of its head and its two parts of quantities. -/
theorem RecordHead.bytes_eq (h : RecordHead) (acc : Vector (BitVec 64) 104) : h.bytes acc =
    leBytes 4 (112 + 24 * (recordOrders acc).length) ++ (leBytes 2 (if h.balance then 2 else 1) ++
      (leBytes 2 (recordOrders acc).length ++ (leBytes 2 h.point.val ++ (leBytes 2 h.bank.val ++ (wordBytes h.interval ++
      (wordBytes (seqWord h.start) ++ (wordBytes (seqWord h.last) ++ (wordBytes h.span ++ (wordBytes h.present ++
      (wordBytes h.absent ++ (wordBytes h.clipped ++ (leBytes 4 h.causes.code ++ (leBytes 4 h.flags ++
      (leBytes 8 h.mask.toNat ++ ((List.finRange 6).flatMap (fundamentalBytes acc) ++ (List.replicate 8 0 ++
      (recordOrders acc).flatMap (harmonicBytes acc))))))))))))))))) := by
  unfold RecordHead.bytes
  simp only [List.append_assoc]
  rfl

/-- The fields of a record at their offsets (spec 11.4). -/
theorem RecordHead.bytes_fields (h : RecordHead) (acc : Vector (BitVec 64) 104) :
    (h.bytes acc).take 4 = leBytes 4 (112 + 24 * (recordOrders acc).length) ∧
    ((h.bytes acc).drop 4).take 4 = leBytes 2 (if h.balance then 2 else 1) ++ leBytes 2 (recordOrders acc).length ∧
    ((h.bytes acc).drop 8).take 4 = leBytes 2 h.point.val ++ leBytes 2 h.bank.val ∧
    ((h.bytes acc).drop 12).take 16 =
      wordBytes h.interval ++ wordBytes (seqWord h.start) ++ wordBytes (seqWord h.last) ++ wordBytes h.span ∧
    ((h.bytes acc).drop 16).take 4 = wordBytes (seqWord h.start) ∧
    ((h.bytes acc).drop 28).take 12 = wordBytes h.present ++ wordBytes h.absent ++ wordBytes h.clipped ∧
    ((h.bytes acc).drop 40).take 4 = leBytes 4 h.causes.code ∧
    ((h.bytes acc).drop 44).take 4 = leBytes 4 h.flags ∧
    ((h.bytes acc).drop 48).take 8 = leBytes 8 h.mask.toNat := by
  rw [RecordHead.bytes_eq]
  simp (disch := simp) only [drop_append_of_length_le, take_append_of_length_le, leBytes_length, wordBytes_length,
    Nat.reduceSub, List.drop_zero, List.take_zero, List.append_nil, List.append_assoc, and_self]

/-- The quantities of a record (R124). -/
theorem RecordHead.bytes_quantities (h : RecordHead) (acc : Vector (BitVec 64) 104) :
    (∀ q : Fin 6, ((h.bytes acc).drop (56 + 8 * q.val)).take 8 = fundamentalBytes acc q) ∧
    ((h.bytes acc).drop 104).take 8 = List.replicate 8 0 ∧
    ∀ (i : Nat) (j : Fin 49), (recordOrders acc)[i]? = some j →
      ((h.bytes acc).drop (112 + 24 * i)).take 24 = harmonicBytes acc j := by
  have fundamentals : ((List.finRange 6).flatMap (fundamentalBytes acc)).length = 48 :=
    (length_flatMap_of_length _ _ 8 fun q _ => fundamentalBytes_length acc q).trans (by rw [List.length_finRange])
  have tail : (h.bytes acc).drop 56 = (List.finRange 6).flatMap (fundamentalBytes acc) ++ (List.replicate 8 0 ++
      (recordOrders acc).flatMap (harmonicBytes acc)) := by
    rw [RecordHead.bytes_eq]
    simp (disch := simp) only [drop_append_of_length_le, leBytes_length, wordBytes_length, Nat.reduceSub, List.drop_zero]
  refine ⟨fun q => ?_, ?_, fun i j hj => ?_⟩
  · have hq : (List.finRange 6)[q.val]? = some q := by simp
    rw [← List.drop_drop, tail]
    exact flatMap_item (fundamentalBytes_length acc) hq _
  · rw [show 104 = 56 + 48 from rfl, ← List.drop_drop, tail, List.drop_left' fundamentals, List.take_left' (by simp)]
  · rw [show 112 + 24 * i = 56 + (48 + (8 + 24 * i)) by omega, ← List.drop_drop, tail, ← List.drop_drop,
      List.drop_left' fundamentals, ← List.drop_drop, List.drop_left' (by simp)]
    have item := flatMap_item (harmonicBytes_length acc) hj []
    rwa [List.append_nil] at item

theorem recordOrders_eq (acc : Vector (BitVec 64) 104) : recordOrders acc = (List.finRange 49).filter fun j =>
    decide (acc[(⟨6 + 2 * j.val, by omega⟩ : Fin 104)] ≠ 0 ∨ acc[(⟨7 + 2 * j.val, by omega⟩ : Fin 104)] ≠ 0) := by
  unfold recordOrders
  refine List.filter_congr fun j _ => ?_
  rw [Bool.eq_iff_iff, Bool.or_eq_true, bne_iff_ne, bne_iff_ne, decide_eq_true_eq]

/-- The head of a point's record (R98, R125). -/
theorem AccSet.recordHead_of_point (x : AccSet) (b : BankId) {e : Fin 6} {i : Fin 5} (h : e.val = i.val) (rebased regInvalid : Bool) :
    x.recordHead b e rebased regInvalid =
      { balance := false, point := entryPoint b e, bank := b, interval := x.interval, start := x.start, last := x.last
        span := x.span, present := x.entries[i].present, absent := x.entries[i].absent, clipped := x.entries[i].clipped
        causes := x.causes, damaged := x.entries[i].damaged, maskChanged := x.entries[i].maskChanged
        invert := x.entries[i].invert, rebased := rebased, regInvalid := regInvalid, mask := x.entries[i].mask } := by
  have hlt : e.val < 5 := by omega
  unfold AccSet.recordHead
  rw [dif_pos hlt]
  simp only [h, Fin.getElem_fin]

/-- The head of the balance record (R98, R125). -/
theorem AccSet.recordHead_of_balance (x : AccSet) (b : BankId) {e : Fin 6} (h : e.val = 5) (rebased regInvalid : Bool) :
    x.recordHead b e rebased regInvalid =
      { balance := true, point := 40, bank := 0, interval := x.interval, start := x.start, last := x.last
        span := x.span, present := (x.balance.getD State.zeroBalance).balanced
        absent := (x.balance.getD State.zeroBalance).unbalanced, clipped := 0, causes := x.causes
        damaged := (x.balance.getD State.zeroBalance).damaged, maskChanged := false, invert := false, rebased := rebased
        regInvalid := regInvalid, mask := BitVec.allOnes 49 } := by
  unfold AccSet.recordHead
  rw [dif_neg (by omega)]

theorem AccSet.recordHead_common (x : AccSet) (b : BankId) (e : Fin 6) (rebased regInvalid : Bool) :
    (x.recordHead b e rebased regInvalid).interval = x.interval ∧ (x.recordHead b e rebased regInvalid).start = x.start ∧
    (x.recordHead b e rebased regInvalid).last = x.last ∧ (x.recordHead b e rebased regInvalid).span = x.span ∧
    (x.recordHead b e rebased regInvalid).causes = x.causes := by
  unfold AccSet.recordHead
  split
  · exact ⟨rfl, rfl, rfl, rfl, rfl⟩
  · exact ⟨rfl, rfl, rfl, rfl, rfl⟩

theorem AccSet.totals_of_point (x : AccSet) {e : Fin 6} {i : Fin 5} (h : e.val = i.val) : x.totals e = x.entries[i].acc := by
  have hlt : e.val < 5 := by omega
  unfold AccSet.totals
  rw [dif_pos hlt]
  simp only [h, Fin.getElem_fin]

theorem AccSet.totals_of_balance (x : AccSet) {e : Fin 6} (h : e.val = 5) {y : BalanceEntry} (hy : x.balance = some y) :
    x.totals e = y.acc := by
  unfold AccSet.totals
  rw [dif_neg (by omega), hy]

/-- Settles O40. -/
theorem intervalRecordForm : Obligations.IntervalRecordForm := by
  intro x b e rebased regInvalid rec acc orders hrec hacc horders
  subst hacc
  obtain rfl : orders = recordOrders (x.totals e) := horders.trans (recordOrders_eq _).symm
  subst hrec
  generalize hh : x.recordHead b e rebased regInvalid = h
  obtain ⟨hsize, hkind, hpoint, hset, hstart, hcounts, hcauses, hflags, hmask⟩ := h.bytes_fields (x.totals e)
  obtain ⟨hfundamental, hzeros, hharmonic⟩ := h.bytes_quantities (x.totals e)
  obtain ⟨hinterval, hxstart, hlast, hspan, hxcauses⟩ := x.recordHead_common b e rebased regInvalid
  rw [hh] at hinterval hxstart hlast hspan hxcauses
  rw [hinterval, hxstart, hlast, hspan] at hset
  rw [hxstart] at hstart
  rw [hxcauses] at hcauses
  refine ⟨h.bytes_length _, ?_, ?_, ?_, hset, fun hnone => ?_, hcauses, fun i hi => ?_, fun y he hy => ?_,
    fun q hq => hfundamental ⟨q.val, hq⟩, hzeros, hharmonic⟩
  · rw [h.bytes_length, hsize]
  · rw [hkind]
    by_cases he : e.val < 5
    · rw [if_pos he, ← hh, x.recordHead_of_point b (i := ⟨e.val, he⟩) rfl]
      rfl
    · rw [if_neg he, ← hh, x.recordHead_of_balance b (by omega)]
      rfl
  · rw [hpoint]
    by_cases he : e.val < 5
    · rw [if_pos he, ← hh, x.recordHead_of_point b (i := ⟨e.val, he⟩) rfl]
      unfold entryPoint
      rw [dif_pos he]
    · rw [if_neg he, ← hh, x.recordHead_of_balance b (by omega)]
      rfl
  · rw [hstart, hnone]
    rfl
  · rw [hcounts, hflags, hmask, ← hh, x.recordHead_of_point b hi]
    exact ⟨x.totals_of_point hi, rfl, rfl, rfl⟩
  · rw [hcounts, hflags, hmask, ← hh, x.recordHead_of_balance b he, hy]
    refine ⟨x.totals_of_balance he hy, rfl, ?_, rfl⟩
    simp [RecordHead.flags, bit]

end Sys2Proof.Machine
end

section
/-! SUPPORT. A record on its page: the memory and the writer after a record write (R115 to R118). -/

namespace Sys2Proof.Machine

/-! ### Bytes of the memory -/

/-- A part of a range's bytes. -/
theorem Memory.bytes_part (m : Memory) {a i k n : Nat} (h : i + k ≤ n) :
    ((m.bytes a n).drop i).take k = m.bytes (a + i) k := by
  refine List.ext_getElem ?_ fun j h1 h2 => ?_
  · simp
    omega
  · simp only [List.length_take, List.length_drop, Memory.bytes_length, Nat.lt_min] at h1
    simp [Memory.bytes, Nat.add_assoc]

theorem Memory.bytes_add (m : Memory) (a n k : Nat) : m.bytes a (n + k) = m.bytes a n ++ m.bytes (a + n) k := by
  unfold Memory.bytes
  rw [List.range_add, List.map_append, List.map_map]
  simp [Function.comp_def, Nat.add_assoc]

/-- The six words that a page header begins with. -/
theorem Memory.bytes_header (m : Memory) (a : Nat) : m.bytes a 24 = m.bytes a 4 ++ m.bytes (a + 4) 4 ++
    m.bytes (a + 8) 4 ++ m.bytes (a + 12) 4 ++ m.bytes (a + 16) 4 ++ m.bytes (a + 20) 4 := by
  rw [← Memory.bytes_add, ← Memory.bytes_add, ← Memory.bytes_add, ← Memory.bytes_add, ← Memory.bytes_add]

/-! ### The memory after a record -/

/-- The memory with a record behind the last one of a page, and the page header updated (R116). -/
def Memory.withRecord (m : Memory) (base : Nat) (f : Filling) (n : Word) (r : List Byte) : Memory :=
  let counted := (m.writeBytes (base + (64 + f.used)) r).writeBytes (base + 4) (leBytes 4 (f.count + 1))
  let first := if f.count = 0 then counted.writeBytes (base + 8) (wordBytes n) else counted
  (first.writeBytes (base + 12) (wordBytes n)).writeBytes (base + 20) (leBytes 4 (f.used + r.length))

theorem State.updateHeader_mem (s : State) (f : Filling) (n : Word) (used : Nat) :
    (s.updateHeader f n used).mem =
      let counted := s.mem.writeBytes (pageByte f.page + 4) (leBytes 4 (f.count + 1))
      let first := if f.count = 0 then counted.writeBytes (pageByte f.page + 8) (wordBytes n) else counted
      (first.writeBytes (pageByte f.page + 12) (wordBytes n)).writeBytes (pageByte f.page + 20) (leBytes 4 used) := by
  unfold State.updateHeader
  dsimp only
  by_cases h : f.count = 0
  · rw [if_pos h, if_pos h]
    simp only [State.writePage_mem]
  · rw [if_neg h, if_neg h]
    simp only [State.writePage_mem]

theorem State.recordPlaced_mem (s : State) (f : Filling) (n : Word) (r : List Byte) :
    (s.recordPlaced f n r).mem = s.mem.withRecord (pageByte f.page) f n r := by
  unfold State.recordPlaced Memory.withRecord
  rw [State.putWriter_mem, State.updateHeader_mem, State.writePage_mem]

/-- A record's bytes and the header's fields read as written, and the memory elsewhere as before (R116). -/
theorem Memory.withRecord_bytes {m : Memory} (h : m.wf) (base : Nat) (f : Filling) (n : Word) (r : List Byte) :
    (m.withRecord base f n r).bytes (base + 64 + f.used) r.length = r ∧
    (m.withRecord base f n r).bytes (base + 4) 4 = leBytes 4 (f.count + 1) ∧
    (m.withRecord base f n r).bytes (base + 8) 4 = (if f.count = 0 then wordBytes n else m.bytes (base + 8) 4) ∧
    (m.withRecord base f n r).bytes (base + 12) 4 = wordBytes n ∧
    (m.withRecord base f n r).bytes (base + 20) 4 = leBytes 4 (f.used + r.length) ∧
    (m.withRecord base f n r).wf ∧
    ∀ x, (x < base + 4 ∨ base + 16 ≤ x ∧ x < base + 20 ∨ base + 24 ≤ x) →
      (x < base + 64 + f.used ∨ base + 64 + f.used + r.length ≤ x) → (m.withRecord base f n r).read x = m.read x := by
  let recorded := m.writeBytes (base + (64 + f.used)) r
  let counted := recorded.writeBytes (base + 4) (leBytes 4 (f.count + 1))
  let first := if f.count = 0 then counted.writeBytes (base + 8) (wordBytes n) else counted
  let last := first.writeBytes (base + 12) (wordBytes n)
  have hwhole : m.withRecord base f n r = last.writeBytes (base + 20) (leBytes 4 (f.used + r.length)) := rfl
  have hrecorded : recorded.wf := Memory.wf_writeBytes h _ _
  have hcounted : counted.wf := Memory.wf_writeBytes hrecorded _ _
  have hfirst : first.wf := by
    by_cases hc : f.count = 0
    · simp only [first, if_pos hc]
      exact Memory.wf_writeBytes hcounted _ _
    · simp only [first, if_neg hc]
      exact hcounted
  have hlast : last.wf := Memory.wf_writeBytes hfirst _ _
  have firstRead (x : Nat) (hx : x < base + 8 ∨ base + 12 ≤ x) : first.read x = counted.read x := by
    by_cases hc : f.count = 0
    · simp only [first, if_pos hc]
      exact Memory.read_writeBytes_of_outside _ _ (by rw [wordBytes_length]; omega)
    · simp only [first, if_neg hc]
  have read (x : Nat) (h1 : x < base + 8 ∨ base + 16 ≤ x ∧ x < base + 20 ∨ base + 24 ≤ x) :
      (m.withRecord base f n r).read x = counted.read x := by
    rw [hwhole, Memory.read_writeBytes_of_outside _ _ (by rw [leBytes_length]; omega),
      Memory.read_writeBytes_of_outside _ _ (by rw [wordBytes_length]; omega), firstRead x (by omega)]
  refine ⟨?_, ?_, ?_, ?_, ?_, Memory.wf_writeBytes hlast _ _, fun x h1 h2 => ?_⟩
  · rw [Memory.bytes_congr fun x hlow hhigh => (read x (by omega)).trans
      (Memory.read_writeBytes_of_outside recorded (leBytes 4 (f.count + 1)) (by rw [leBytes_length]; omega))]
    have written := Memory.bytes_writeBytes_self h (base + (64 + f.used)) r
    rw [← Nat.add_assoc base (64 : Nat) f.used] at written
    simp only [recorded, ← Nat.add_assoc base (64 : Nat) f.used]
    exact written
  · rw [Memory.bytes_congr fun x hlow hhigh => read x (by omega)]
    have written := Memory.bytes_writeBytes_self hrecorded (base + 4) (leBytes 4 (f.count + 1))
    rwa [leBytes_length] at written
  · have atFirst : (m.withRecord base f n r).bytes (base + 8) 4 = first.bytes (base + 8) 4 := by
      rw [hwhole, Memory.bytes_writeBytes_of_disjoint _ _ (by omega), Memory.bytes_writeBytes_of_disjoint _ _ (by omega)]
    rw [atFirst]
    by_cases hc : f.count = 0
    · have written := Memory.bytes_writeBytes_self hcounted (base + 8) (wordBytes n)
      rw [wordBytes_length] at written
      simp only [first, if_pos hc]
      exact written
    · simp only [first, if_neg hc]
      rw [Memory.bytes_writeBytes_of_disjoint _ _ (by rw [leBytes_length]; omega),
        Memory.bytes_writeBytes_of_disjoint _ _ (by omega)]
  · rw [hwhole, Memory.bytes_writeBytes_of_disjoint _ _ (by omega)]
    have written := Memory.bytes_writeBytes_self hfirst (base + 12) (wordBytes n)
    rwa [wordBytes_length] at written
  · have written := Memory.bytes_writeBytes_self hlast (base + 20) (leBytes 4 (f.used + r.length))
    rwa [leBytes_length] at written
  · rw [read x (by omega), Memory.read_writeBytes_of_outside _ _ (by rw [leBytes_length]; omega),
      Memory.read_writeBytes_of_outside _ _ (by omega)]

/-- The memory with a page taken: its record area zero, its header new (R115, R123). -/
def Memory.withPage (m : Memory) (base : Nat) (seq lost : Word) : Memory :=
  (m.zero (base + 64) (base + 4096)).writeBytes (base + 0) (headerBytes seq lost)

theorem headerBytes_fields (seq lost : Word) : (headerBytes seq lost).length = 64 ∧
    (headerBytes seq lost).take 4 = wordBytes seq ∧ ((headerBytes seq lost).drop 16).take 4 = wordBytes lost ∧
    ((headerBytes seq lost).drop 24).take 40 = List.replicate 40 0 := by
  unfold headerBytes
  simp only [List.append_assoc]
  refine ⟨by simp, ?_, ?_, ?_⟩
  · rw [List.take_left' (wordBytes_length seq)]
  · simp (disch := simp) only [drop_append_of_length_le, take_append_of_length_le, wordBytes_length, List.length_replicate,
      Nat.reduceSub, List.drop_zero, List.take_zero, List.append_nil]
  · simp (disch := simp) [drop_append_of_length_le, wordBytes_length]

theorem Memory.withPage_bytes {m : Memory} (h : m.wf) (base : Nat) (seq lost : Word) :
    (m.withPage base seq lost).bytes base 4 = wordBytes seq ∧ (m.withPage base seq lost).bytes (base + 16) 4 = wordBytes lost ∧
    (m.withPage base seq lost).bytes (base + 24) 40 = List.replicate 40 0 ∧ (m.withPage base seq lost).wf ∧
    (∀ x, base + 64 ≤ x → x < base + 4096 → (m.withPage base seq lost).read x = 0) ∧
    ∀ x, (x < base ∨ base + 4096 ≤ x) → (m.withPage base seq lost).read x = m.read x := by
  obtain ⟨hlength, hseq, hlost, hzeros⟩ := headerBytes_fields seq lost
  have hzero := Memory.wf_zero h (base + 64) (base + 4096)
  have header : (m.withPage base seq lost).bytes base 64 = headerBytes seq lost := by
    have written := Memory.bytes_writeBytes_self hzero (base + 0) (headerBytes seq lost)
    rwa [hlength] at written
  refine ⟨?_, ?_, ?_, Memory.wf_writeBytes hzero _ _, fun x hlow hhigh => ?_, fun x hx => ?_⟩
  · rw [← hseq, ← header]
    exact (Memory.bytes_part _ (i := 0) (by omega)).symm
  · rw [← hlost, ← header]
    exact (Memory.bytes_part _ (by omega)).symm
  · rw [← hzeros, ← header]
    exact (Memory.bytes_part _ (by omega)).symm
  · unfold Memory.withPage
    rw [Memory.read_writeBytes_of_outside _ _ (by rw [hlength]; omega), Memory.read_zero, if_pos ⟨hlow, hhigh⟩]
  · unfold Memory.withPage
    rw [Memory.read_writeBytes_of_outside _ _ (by rw [hlength]; omega), Memory.read_zero, if_neg (by omega)]

/-! ### The three courses of a record write -/

section
variable {s : State}

theorem State.takePage_mem {p : PageId} {rest : List PageId} (h : s.writer.freeQueue = p :: rest) :
    s.takePage.mem = s.mem.withPage (pageByte p) (s.writer.pageSeq + 1) s.writer.gapLoss := by
  unfold State.takePage
  rw [h]
  dsimp only
  rw [State.putWriter_mem, State.writePage_mem, State.zeroPage_mem]
  rfl

theorem State.takePage_latched (s : State) : s.takePage.notices.latched = s.notices.latched := by
  have taken : s.Touches [.mem, .writer, .exchangeMarks] s.takePage := by
    unfold State.takePage
    split
    · exact ((s.zeroPage_touches _).trans (State.writePage_touches _ _ _ _)).seq (State.putWriter_touches _ _) (by decide)
        (by decide)
    · exact .refl s _
  exact taken.latched_eq (by decide)

theorem State.recordPlaced_touches (s : State) (f : Filling) (n : Word) (r : List Byte) :
    s.Touches [.mem, .writer, .exchangeMarks] (s.recordPlaced f n r) := by
  unfold State.recordPlaced
  exact ((s.writePage_touches _ _ _).trans (State.updateHeader_touches _ f n _)).seq (State.putWriter_touches _ _) (by decide)
    (by decide)

theorem State.makeRoom_of_fits {f : Filling} (hf : s.writer.filling = some f) {n : Nat} (h : f.used + n ≤ 4032)
    (hn : 0 < n) : s.makeRoom n = s := by
  have room : n ≤ Config.recordArea - f.used := by
    unfold Config.recordArea
    omega
  unfold State.makeRoom
  rw [hf]
  exact if_pos room

/-- A record that does not fit closes the FILLING page, if there is one (R117). -/
theorem State.makeRoom_of_full {n : Nat} (hn : 0 < n) (h : ∀ f, s.writer.filling = some f → 4032 < f.used + n) :
    s.makeRoom n = s.fillPage := by
  unfold State.makeRoom
  cases hf : s.writer.filling with
  | none => rw [State.fillPage_of_none hf]
  | some f =>
    have full := h f hf
    have room : ¬n ≤ Config.recordArea - f.used := by
      unfold Config.recordArea
      omega
    exact if_neg room

theorem State.fillPage_writer (s : State) : s.fillPage.writer.filling = none ∧
    s.fillPage.writer.freeQueue = s.writer.freeQueue ∧ s.fillPage.writer.pageSeq = s.writer.pageSeq ∧
    s.fillPage.writer.gapLoss = s.writer.gapLoss ∧ s.fillPage.writer.lost = s.writer.lost ∧
    s.fillPage.mem = s.mem ∧ s.fillPage.folds = s.folds := by
  unfold State.fillPage
  split
  · exact ⟨rfl, rfl, rfl, rfl, rfl, rfl, rfl⟩
  next h => exact ⟨h, rfl, rfl, rfl, rfl, rfl, rfl⟩

/-- A page that was FILLING is FILLED after its close, and PAGE is latched (R117). -/
theorem State.fillPage_filled {f : Filling} (hf : s.writer.filling = some f) :
    s.fillPage.writer.pages = s.writer.pages.set f.page .filled ∧
      s.fillPage.notices.latched = s.notices.latched ||| Cause.page.flag := by
  unfold State.fillPage
  rw [hf]
  exact ⟨rfl, rfl⟩

theorem State.ensurePage_of_some {f : Filling} (hf : s.writer.filling = some f) : s.ensurePage = s := by
  unfold State.ensurePage
  rw [hf]
  rfl

theorem State.ensurePage_of_none (hf : s.writer.filling = none) : s.ensurePage = s.takePage := by
  unfold State.ensurePage
  rw [hf]
  rfl

theorem State.writeRecord_of_filling {b : BankId} {n : Word} {r : List Byte} {f : Filling} {t : State}
    (ht : (s.makeRoom r.length).ensurePage = t) (hf : t.writer.filling = some f) :
    s.writeRecord b n r = t.placeRecord f n r := by
  unfold State.writeRecord
  dsimp only
  rw [ht, hf]

/-- A record that fits (R116). -/
theorem State.writeRecord_of_fits {f : Filling} (hf : s.writer.filling = some f) (b : BankId) (n : Word) {r : List Byte}
    (hr : 0 < r.length) (h : f.used + r.length ≤ 4032) : s.writeRecord b n r = s.placeRecord f n r :=
  State.writeRecord_of_filling (by rw [State.makeRoom_of_fits hf h hr, State.ensurePage_of_some hf]) hf

/-- A record that needs the next page, and gets it (R115, R117). -/
theorem State.writeRecord_of_next {p : PageId} {rest : List PageId} (hq : s.writer.freeQueue = p :: rest) (b : BankId)
    (n : Word) {r : List Byte} (hr : 0 < r.length) (hshort : r.length ≤ 1288)
    (h : ∀ f, s.writer.filling = some f → 4032 < f.used + r.length) :
    s.writeRecord b n r = s.fillPage.takePage.recordPlaced ⟨p, 0, 0, 0, 0⟩ n r := by
  obtain ⟨hnone, hqueue, -⟩ := s.fillPage_writer
  have queue := hqueue.trans hq
  have filling : s.fillPage.takePage.writer.filling = some ⟨p, 0, 0, 0, 0⟩ := by
    rw [State.takePage_writer_of_cons queue]
  rw [State.writeRecord_of_filling (by rw [State.makeRoom_of_full hr h, State.ensurePage_of_none hnone]) filling,
    State.placeRecord_eq, if_neg]
  unfold Config.recordArea Config.shortestRecord
  dsimp only
  omega

/-- A record that needs a page when none is free (R118). -/
theorem State.writeRecord_of_lost (hq : s.writer.freeQueue = []) (b : BankId) (n : Word) {r : List Byte} (hr : 0 < r.length)
    (h : ∀ f, s.writer.filling = some f → 4032 < f.used + r.length) :
    s.writeRecord b n r = s.fillPage.loseRecord b := by
  obtain ⟨hnone, hqueue, -⟩ := s.fillPage_writer
  unfold State.writeRecord
  dsimp only
  rw [State.makeRoom_of_full hr h, State.ensurePage_of_none hnone, State.takePage_of_nil (hqueue.trans hq), hnone]

end

/-- Settles O41. -/
theorem recordIsPlacedOrLost : Obligations.RecordIsPlacedOrLost := by
  intro s b n rec hmem hlength
  have hr : 0 < rec.length := by omega
  refine ⟨fun f hf hfits => ?_, fun p rest hpages hq hshort hfull => ?_, fun hq hfull => ?_⟩
  · obtain ⟨hrec, hcount, hfirst, hlast, hused, -⟩ := Memory.withRecord_bytes hmem.1 (pageByte f.page) f n rec
    rw [State.writeRecord_of_fits hf b n hr hfits, State.placeRecord_eq]
    have mem : (s.recordPlaced f n rec).mem = s.mem.withRecord (pageByte f.page) f n rec := s.recordPlaced_mem f n rec
    have filled : (s.recordPlaced f n rec).writer.filling = some (f.withRecord n rec.length) := rfl
    by_cases hroom : Config.recordArea - (f.used + rec.length) < Config.shortestRecord
    · obtain ⟨hnone, -, -, -, hlost, hfmem, -⟩ := (s.recordPlaced f n rec).fillPage_writer
      obtain ⟨hpage, hlatched⟩ := State.fillPage_filled filled
      rw [if_pos hroom, hfmem, mem]
      refine ⟨hrec, hcount, hfirst, hlast, hused, hlost, ?_⟩
      rw [if_neg (by unfold Config.recordArea Config.shortestRecord at hroom; omega)]
      refine ⟨hnone, ?_, or_flag_latched hlatched⟩
      rw [hpage]
      exact getElem_fin_set_self _ _ _
    · rw [if_neg hroom, mem]
      refine ⟨hrec, hcount, hfirst, hlast, hused, rfl, ?_⟩
      rw [if_pos (by unfold Config.recordArea Config.shortestRecord at hroom; omega)]
      exact filled
  · obtain ⟨-, hqueue, hseq, hgap, hlost, hfmem, -⟩ := s.fillPage_writer
    have queue := hqueue.trans hq
    have writer := State.takePage_writer_of_cons queue
    have mem := State.takePage_mem queue
    rw [hseq, hgap, hfmem] at mem
    obtain ⟨hpseq, hplost, hpzeros, hpwf, hparea, -⟩ :=
      Memory.withPage_bytes hmem.1 (pageByte p) (s.writer.pageSeq + 1) s.writer.gapLoss
    rw [← mem] at hpseq hplost hpzeros hpwf hparea
    obtain ⟨hrec, hcount, hfirst, hlast, hused, -, hout⟩ :=
      Memory.withRecord_bytes hpwf (pageByte p) ⟨p, 0, 0, 0, 0⟩ n rec
    rw [State.writeRecord_of_next hq b n hr hshort hfull, State.recordPlaced_writer, State.recordPlaced_mem, writer]
    dsimp only at hrec hcount hfirst hlast hused hout ⊢
    rw [Nat.add_zero] at hrec
    rw [if_pos rfl] at hfirst
    rw [Nat.zero_add] at hused hcount
    have outside {a k : Nat} (h1 : a + k ≤ pageByte p + 4 ∨ pageByte p + 16 ≤ a ∧ a + k ≤ pageByte p + 20 ∨
        pageByte p + 24 ≤ a ∧ a + k ≤ pageByte p + 64) :
        (s.fillPage.takePage.mem.withRecord (pageByte p) ⟨p, 0, 0, 0, 0⟩ n rec).bytes a k = s.fillPage.takePage.mem.bytes a k :=
      Memory.bytes_congr fun x hlow hhigh => hout x (by omega) (by omega)
    refine ⟨by rw [hseq], rfl, hlost, rfl, ?_, getElem_fin_set_self _ _ _, ?_, ?_, hrec, fun x hlow hhigh => ?_, fun f hf => ?_⟩
    · unfold Filling.withRecord
      simp
    · rw [Memory.bytes_header, outside (a := pageByte p) (k := 4) (by omega), hpseq, hcount, hfirst, hlast,
        outside (a := pageByte p + 16) (k := 4) (by omega), hplost, hused]
    · rw [outside (by omega), hpzeros]
    · rw [hout x (by omega) (by omega)]
      exact hparea x (by omega) hhigh
    · obtain ⟨hpage, hlatched⟩ := State.fillPage_filled hf
      have ne : f.page ≠ p := by
        intro heq
        obtain ⟨-, hfree, -, -, hfilling, -⟩ := hpages
        have isFree := (hfree p).mp (hq ▸ List.mem_cons_self)
        have isFilling := (hfilling p).mpr (by rw [hf, ← heq]; rfl)
        cases isFree.symm.trans isFilling
      refine ⟨?_, or_flag_latched (w := s.notices.latched) ?_⟩
      · rw [getElem_fin_set_of_ne _ _ ne, hpage, getElem_fin_set_self]
      · rw [(State.recordPlaced_touches _ _ _ _).latched_eq (by decide), State.takePage_latched, hlatched]
  · obtain ⟨hnone, -, -, hgap, hlost, hfmem, hfolds⟩ := s.fillPage_writer
    rw [State.writeRecord_of_lost hq b n hr hfull]
    refine ⟨?_, ?_, hnone, hfmem, fun f hf => ?_⟩
    · rw [← hlost]
      rfl
    · rw [← hgap]
      rfl
    · refine (getElem_fin_set_self _ _ _).trans ?_
      have folds : ((s.fillPage.putWriter { s.fillPage.writer with
          lost := s.fillPage.writer.lost + 1, gapLoss := s.fillPage.writer.gapLoss + 1 }).folds)[b] = some f := by
        rw [((State.putWriter_touches _ _).folds (by decide)), hfolds, hf]
      rw [folds, ← hlost]
      rfl

end Sys2Proof.Machine
end

section
/-! SUPPORT. The take of a request: what it reads, and what its end leaves for the host (R146 to R152). -/

namespace Sys2Proof.Machine

/-! ### The start of a take -/

section
variable (s : State) (k : SlotId) (rest : List SlotId)

@[simp] theorem State.beginTake_links : (s.beginTake k rest).links = s.links := (s.beginTake_checked k rest).links
@[simp] theorem State.beginTake_sorter : (s.beginTake k rest).sorter = s.sorter := (s.beginTake_checked k rest).sorter
@[simp] theorem State.beginTake_accounting : (s.beginTake k rest).accounting = s.accounting :=
  (s.beginTake_checked k rest).accounting
@[simp] theorem State.beginTake_profiles : (s.beginTake k rest).profiles = s.profiles := (s.beginTake_checked k rest).profiles
@[simp] theorem State.beginTake_banks : (s.beginTake k rest).banks = s.banks := (s.beginTake_checked k rest).banks
@[simp] theorem State.beginTake_timing : (s.beginTake k rest).timing = s.timing := (s.beginTake_checked k rest).timing
@[simp] theorem State.beginTake_folds : (s.beginTake k rest).folds = s.folds := (s.beginTake_checked k rest).folds
@[simp] theorem State.beginTake_regs : (s.beginTake k rest).regs = s.regs := (s.beginTake_checked k rest).regs
@[simp] theorem State.beginTake_control : (s.beginTake k rest).control = s.control := (s.beginTake_checked k rest).control
@[simp] theorem State.beginTake_mem : (s.beginTake k rest).mem = s.mem := (s.beginTake_checked k rest).mem
@[simp] theorem State.beginTake_requests : (s.beginTake k rest).requests =
    { s.requests with intake := rest, quotaCount := s.requests.quotaCount + 1 } := (s.beginTake_checked k rest).requests

@[simp] theorem State.beginTake_accountingMarks : (s.beginTake k rest).ecc.accounting = s.ecc.accounting := by
  rw [s.beginTake_checked k rest]

@[simp] theorem State.beginTake_registerMarks : (s.beginTake k rest).ecc.registers = s.ecc.registers := by
  rw [s.beginTake_checked k rest]

end

/-- A command whose row takes the head of the intake queue carries its request out. -/
theorem State.Head.exec {s : State} {k : SlotId} {rest : List SlotId} {row : Row} (h : s.Head k rest row) {c : Instr}
    {carry : State → SlotId → State} (hc : commandEffect c = State.take row carry) :
    Machine.exec c s = .next (carry (s.beginTake k rest) k) := by
  rw [exec_of_ready c h.1, hc, State.take_of_head h]

/-! ### The slot in hand -/

theorem State.Touches.quotaCount_eq {s t : State} {ps : List Part} (h : s.Touches ps t) (hp : Part.quotaCount ∉ ps) :
    t.requests.quotaCount = s.requests.quotaCount := h.same hp

theorem State.finish_mem (s : State) (k : SlotId) (st : SlotState) (r : Reply) :
    (s.finish k st r).mem = (s.writeReply k (s.serial k) r).mem := by simp [State.finish, State.endSlot]

theorem State.defer_mem (s : State) (k : SlotId) (w : Work) (n : Nat) : (s.defer k w n).mem =
    (s.writeReply k (State.serial { s with requests := { s.requests with table := s.requests.table ++ [⟨k, w⟩] } } k)
      (deferredReply n)).mem := by
  simp [State.defer]

/-- From `s` to `v` the head slot left the queue, its take was counted, and its serial number reads as before: what the end
of a take relies on. -/
structure State.InHand (s v : State) (k : SlotId) (rest : List SlotId) : Prop where
  intake : v.requests.intake = rest
  count : v.requests.quotaCount = s.requests.quotaCount + 1
  serial : v.serial k = s.serial k
  wf : v.mem.wf

namespace State.InHand

variable {s v w : State} {k : SlotId} {rest : List SlotId}

theorem beginTake (h : s.mem.wf) (k : SlotId) (rest : List SlotId) : s.InHand (s.beginTake k rest) k rest where
  intake := by rw [beginTake_requests]
  count := by rw [beginTake_requests]
  serial := (SameArea.beginTake s k rest).serial
  wf := by rwa [beginTake_mem]

/-- What an operation does that leaves memory and the queue. -/
theorem step (h : s.InHand v k rest) {ps : List Part} (ht : v.Touches ps w)
    (hps : Part.mem ∉ ps ∧ Part.intake ∉ ps ∧ Part.quotaCount ∉ ps) (ha : v.SameArea w k) : s.InHand w k rest where
  intake := (ht.intake hps.2.1).trans h.intake
  count := (ht.quotaCount_eq hps.2.2).trans h.count
  serial := ha.serial.trans h.serial
  wf := by
    rw [ht.mem hps.1]
    exact h.wf

/-- The reply as the host reads it, and DONE latched (R146, R151). -/
theorem ended (h : s.InHand v k rest) (st : SlotState) {r : Reply} (hr : r.data.length ≤ 320) :
    s.Ended (v.finish k st r) k rest st r := by
  have reply := writeReply_bytes h.wf k (v.serial k) r hr
  rw [h.serial] at reply
  refine ⟨⟨?_, ?_, ?_, ?_⟩, latch_latched _ _⟩
  · rw [finish_requests]
    exact h.intake
  · rw [finish_requests]
    exact h.count
  · rw [finish_requests]
    exact getElem_fin_set_self _ _ _
  · rw [finish_mem, h.serial]
    exact reply

theorem refused (h : s.InHand v k rest) (r : Reason) : s.Ended (v.refuse k r) k rest .refused (refusal r) :=
  h.ended .refused (by simp [refusal])

/-- The reply of a deferred take (R152). -/
theorem deferred (h : s.InHand v k rest) (work : Work) (estimate : Nat) :
    s.Taken (v.defer k work estimate) k rest .taken (deferredReply estimate) := by
  have hserial : State.serial { v with requests := { v.requests with table := v.requests.table ++ [⟨k, work⟩] } } k =
      s.serial k := (SameArea.of_same rfl rfl k).serial.trans h.serial
  have reply := writeReply_bytes h.wf k (s.serial k) (deferredReply estimate) (by simp [deferredReply])
  refine ⟨?_, ?_, ?_, ?_⟩
  · rw [defer_requests]
    exact h.intake
  · rw [defer_requests]
    exact h.count
  · rw [defer_requests]
    exact getElem_fin_set_self _ _ _
  · rw [defer_mem, hserial]
    exact reply

end State.InHand

/-- What a take leaves for the host is not changed by an operation on other blocks. -/
theorem State.Taken.step {s t u : State} {k : SlotId} {rest : List SlotId} {st : SlotState} {r : Reply}
    (h : s.Taken t k rest st r) {ps : List Part} (ht : t.Touches ps u)
    (hps : Part.mem ∉ ps ∧ Part.intake ∉ ps ∧ Part.quotaCount ∉ ps ∧ Part.slots ∉ ps) : s.Taken u k rest st r := by
  obtain ⟨hmem, hintake, hcount, hslots⟩ := hps
  obtain ⟨h1, h2, h3, h4⟩ := h
  refine ⟨(ht.intake hintake).trans h1, (ht.quotaCount_eq hcount).trans h2, ?_, ?_⟩
  · rw [ht.slots hslots]
    exact h3
  · rw [ht.mem hmem]
    exact h4

/-! ### The end of a slot leaves the other blocks -/

section
variable (s : State) (k : SlotId) (st : SlotState) (r : Reply)

@[simp] theorem State.finish_links : (s.finish k st r).links = s.links := by rw [s.finish_replied k st r]
@[simp] theorem State.finish_sorter : (s.finish k st r).sorter = s.sorter := by rw [s.finish_replied k st r]
@[simp] theorem State.finish_accounting : (s.finish k st r).accounting = s.accounting := by rw [s.finish_replied k st r]
@[simp] theorem State.finish_profiles : (s.finish k st r).profiles = s.profiles := by rw [s.finish_replied k st r]
@[simp] theorem State.finish_banks : (s.finish k st r).banks = s.banks := by rw [s.finish_replied k st r]
@[simp] theorem State.finish_timing : (s.finish k st r).timing = s.timing := by rw [s.finish_replied k st r]
@[simp] theorem State.finish_folds : (s.finish k st r).folds = s.folds := by rw [s.finish_replied k st r]
@[simp] theorem State.finish_regs : (s.finish k st r).regs = s.regs := by rw [s.finish_replied k st r]
@[simp] theorem State.finish_capture : (s.finish k st r).capture = s.capture := by rw [s.finish_replied k st r]

end

theorem State.done_eq (s : State) (k : SlotId) (r : Reply) : s.done k r = s.finish k .done r := rfl

theorem State.refuse_eq (s : State) (k : SlotId) (r : Reason) : s.refuse k r = s.finish k .refused (refusal r) := rfl

/-! ### BAD_KIND and SET_BANK -/

theorem State.checkWord_capture {s : State} (h : s.capture ≠ none) (w : Nat) : (s.checkWord w).capture ≠ none := by
  unfold State.checkWord
  split
  · exact h
  · exact h
  · cases hc : s.capture with
    | none => exact absurd hc h
    | some c =>
      rw [State.report_of_frozen hc]
      exact Option.some_ne_none _

/-- A read of a word with an uncorrectable error freezes the capture record, if it was not frozen before (R191). -/
theorem State.checkWord_capture_of_bad {s : State} {w : Nat} (h : s.badWord w = true) : (s.checkWord w).capture ≠ none := by
  unfold State.badWord at h
  split at h
  next v hv =>
    rw [State.checkWord_of_uncorrectable hv]
    cases hc : s.capture with
    | none =>
      rw [State.report_of_empty hc]
      exact Option.some_ne_none _
    | some c =>
      rw [State.report_of_frozen hc]
      exact Option.some_ne_none _
  · cases h

theorem State.checkWords_capture {s : State} {ws : List Nat} (hord : ∀ w ∈ ws, ordinaryWord w)
    (h : s.capture ≠ none ∨ ∃ w ∈ ws, s.badWord w = true) : (s.checkWords ws).capture ≠ none := by
  unfold State.checkWords
  induction ws generalizing s with
  | nil => exact h.resolve_right (by simp)
  | cons v ws ih =>
    refine ih (fun w hw => hord w (List.mem_cons_of_mem v hw)) ?_
    rcases h with h | ⟨w, hw, hbad⟩
    · exact Or.inl (State.checkWord_capture h v)
    · rcases List.mem_cons.mp hw with rfl | hw
      · exact Or.inl (State.checkWord_capture_of_bad hbad)
      · refine Or.inr ⟨w, hw, ?_⟩
        rw [(State.SameWord.checkWord s v (hord w (List.mem_cons_of_mem v hw))).badWord, hbad]

theorem State.beginTake_capture_of_bad {s : State} {k : SlotId} (h : s.requestBad k = true) (rest : List SlotId) :
    (s.beginTake k rest).capture ≠ none := by
  have words := List.any_eq_true.mp h
  unfold State.beginTake
  refine State.checkWords_capture (fun w hw => ?_) (Or.inr words)
  obtain ⟨j, hlow, hhigh, rfl⟩ := State.mem_requestWords hw
  exact ordinaryWord_slot k hlow (by omega)

/-- The option word as it stands is the attributes' form (R165). -/
theorem Bank.attributes_of_bits (b : Bank) {n : Nat} (h : n ≤ 7) (h0 : b.billing = n.testBit 0) (h1 : b.notify = n.testBit 1)
    (h2 : b.archive = n.testBit 2) : b.attributes = n := by
  unfold Bank.attributes
  rw [h0, h1, h2]
  interval_cases n <;> decide

theorem State.SameArea.putBank (s : State) (b : BankId) (x : Bank) (k : SlotId) : s.SameArea (s.putBank b x) k := by
  unfold State.putBank
  refine .rewritten s _ ?_ ?_ k
  · rfl
  · rfl

/-- The attributes of a bank as a SET_BANK of slot `k` writes them (R165). -/
def State.bankWritten (s : State) (k : SlotId) (b : BankId) : Bank :=
  { s.banks[b] with billing := s.optionBit k 0, notify := s.optionBit k 1, archive := s.optionBit k 2 }

theorem State.takeSetBank_of_bank {s : State} {k : SlotId} {b : BankId} (hb : s.param k 0x10 4 = b.val)
    (ho : s.optionWord k < 8) : s.takeSetBank k =
      if s.banks[b].billing = true ∧ s.optionBit k 0 = false ∧ s.banks[b].phase ≠ .stopped then s.refuse k .state
      else (s.putBank b (s.bankWritten k b)).done k { okReply with
        interval := s.banks[b].interval
        data := leBytes 4 (s.bankWritten k b).attributes ++ leBytes 4 s.banks[b].phase.code } := by
  have hn : s.param k 0x10 4 < 8 := by omega
  obtain rfl : b = ⟨s.param k 0x10 4, hn⟩ := Fin.ext hb.symm
  unfold State.takeSetBank
  rw [dif_pos ⟨hn, ho⟩]
  simp only [Bool.and_eq_true, Bool.not_eq_true', bne_iff_ne, ne_eq, and_assoc]
  rfl

/-- Settles O49, course by course. -/
theorem badKindAndSetBank : Obligations.BadKindAndSetBank := by
  refine ⟨fun s k rest hm hh => ?_, fun s k rest hm hh => ?_⟩
  · have hand := State.InHand.beginTake hm.1 k rest
    refine ⟨_, hh.exec rfl, ?_, fun hbad => ?_⟩
    · unfold State.takeBadKind
      rw [(State.SameArea.beginTake s k rest).requestBad]
      exact hand.refused _
    · unfold State.takeBadKind
      rw [State.refuse_eq, State.finish_capture]
      exact State.beginTake_capture_of_bad hbad rest
  · have hand := State.InHand.beginTake hm.1 k rest
    have area := State.SameArea.beginTake s k rest
    have hparam := area.param 0x10 4 (by decide) (by decide)
    refine ⟨_, hh.exec rfl, fun hbad => ?_, fun b hb hoption => ?_⟩
    · have reject : ¬((s.beginTake k rest).param k 0x10 4 < 8 ∧ (s.beginTake k rest).optionWord k < 8) := by
        rw [hparam, area.optionWord]
        omega
      unfold State.takeSetBank
      rw [dif_neg reject]
      exact ⟨hand.refused _, by simp [State.refuse_eq]⟩
    · rw [State.takeSetBank_of_bank (b := b) (hparam.trans hb) (by rw [area.optionWord]; omega)]
      simp only [State.beginTake_banks, area.optionBit]
      by_cases hstate : s.banks[b].billing = true ∧ s.optionBit k 0 = false ∧ s.banks[b].phase ≠ .stopped
      · rw [if_pos hstate, if_pos hstate]
        exact ⟨hand.refused _, by simp [State.refuse_eq]⟩
      · rw [if_neg hstate, if_neg hstate, State.done_eq]
        have written : (s.beginTake k rest).bankWritten k b = s.bankWritten k b := by
          unfold State.bankWritten
          simp only [State.beginTake_banks, area.optionBit]
        rw [written, Bank.attributes_of_bits (s.bankWritten k b) hoption rfl rfl rfl]
        refine ⟨?_, (hand.step (State.putBank_touches _ b _) (by decide) (State.SameArea.putBank _ b _ k)).ended .done (by simp)⟩
        rw [State.finish_banks]
        exact congrArg (fun banks => Vector.set banks b _ b.isLt) (s.beginTake_banks k rest)

end Sys2Proof.Machine
end

section
/-! SUPPORT. READ_OPEN, READ_REGISTERS and READ_CAPTURE: what they return over tables without errors (R105 to R107, R172, R173,
R179). -/

namespace Sys2Proof.Machine

/-! ### Net items -/

theorem leBytes_one (n : Nat) : leBytes 1 n = [BitVec.ofNat 8 (n % 256)] := rfl

/-- The bytes of a difference: its magnitude, its sign, OVERRANGE or VALID (R106). -/
theorem netDifference_bytes (a b : Nat) (scale : Fin 4) {d : Int} (hd : d = a - b) : (netDifference a b).bytes scale =
    packDecimal 8 (d.natAbs % 10 ^ 16) ++ [if d < 0 then 1 else 0, if 10 ^ 16 ≤ d.natAbs then 2 else 0] ++
      [BitVec.ofNat 8 scale.val, 0, 0, 0, 0, 0] := by
  have magnitude : (if b ≤ a then a - b else b - a) = d.natAbs := by
    split <;> omega
  have sign : decide (a < b) = decide (d < 0) := by
    rw [decide_eq_decide]
    omega
  have scaleByte : leBytes 1 scale.val = [BitVec.ofNat 8 scale.val] := by
    have := scale.isLt
    rw [leBytes_one, Nat.mod_eq_of_lt (by omega)]
  have signByte : leBytes 1 (bit (decide (d < 0))) = [if d < 0 then 1 else 0] := by
    by_cases h : d < 0
    · rw [if_pos h, decide_eq_true h]
      rfl
    · rw [if_neg h, decide_eq_false h]
      rfl
  have stateByte : leBytes 1 (if 10 ^ 16 ≤ d.natAbs then NetState.overrange else NetState.valid).code =
      [if 10 ^ 16 ≤ d.natAbs then 2 else 0] := by
    split
    · rfl
    · rfl
  unfold netDifference NetItem.bytes registerLimit
  rw [magnitude, sign, scaleByte]
  dsimp only
  rw [signByte, stateByte]
  simp only [List.append_assoc, List.cons_append, List.nil_append]

theorem RegisterSet.netBytes_one (r : RegisterSet) (n : Nat) : r.netBytes n 1 = (r.netItem n).bytes r.scale := by
  unfold RegisterSet.netBytes
  simp [List.range_succ]

/-- A net item's bytes from the quantities that it adds and subtracts (R106, R107). -/
theorem RegisterSet.netBytes_of_terms (r : RegisterSet) {n : Nat} {plus minus : List QuantityId}
    (h : netTerms n = (plus, minus)) {d : Int} (hd : d = ((plus.map fun q => r.quantities[q].register).sum : Nat) -
      ((minus.map fun q => r.quantities[q].register).sum : Nat)) :
    r.netBytes n 1 =
      (if ∀ q ∈ plus ++ minus, r.quantities[q].valid = true then
        packDecimal 8 (d.natAbs % 10 ^ 16) ++ [if d < 0 then 1 else 0, if 10 ^ 16 ≤ d.natAbs then 2 else 0]
      else packDecimal 8 0 ++ [0, 1]) ++ [BitVec.ofNat 8 r.scale.val, 0, 0, 0, 0, 0] := by
  rw [RegisterSet.netBytes_one]
  unfold RegisterSet.netItem
  rw [h]
  dsimp only
  have anyInvalid : ((plus ++ minus).any fun q => !r.quantities[q].valid) = true ↔
      ¬∀ q ∈ plus ++ minus, r.quantities[q].valid = true := by
    simp only [List.any_eq_true, Bool.not_eq_true', not_forall, exists_prop, Bool.not_eq_true]
  by_cases hall : ∀ q ∈ plus ++ minus, r.quantities[q].valid = true
  · rw [if_neg (fun h => anyInvalid.mp h hall), if_pos hall]
    exact netDifference_bytes _ _ _ hd
  · have scaleByte : leBytes 1 r.scale.val = [BitVec.ofNat 8 r.scale.val] := by
      have := r.scale.isLt
      rw [leBytes_one, Nat.mod_eq_of_lt (by omega)]
    rw [if_pos (anyInvalid.mpr hall), if_neg hall]
    unfold NetItem.bytes
    rw [scaleByte]
    simp [leBytes_one, NetState.code, bit]

theorem netTerms_of_order (j : Fin 49) : netTerms (j.val + 2) = ([⟨6 + 2 * j.val, by omega⟩], [⟨7 + 2 * j.val, by omega⟩]) := by
  unfold netTerms
  rw [if_neg (by omega), if_neg (by omega), dif_pos (by omega)]
  simp only [Prod.mk.injEq, List.cons.injEq, Fin.mk.injEq, and_true]
  omega

/-- Settles O54. -/
theorem netItemLaw : Obligations.NetItemLaw := by
  intro r
  refine ⟨fun first count => ?_, fun n plus minus hshape d hd => ?_⟩
  · simp only [RegisterSet.netBytes_one]
    rfl
  · rcases hshape with ⟨rfl, rfl, rfl⟩ | ⟨rfl, rfl, rfl⟩ | ⟨j, rfl, rfl, rfl⟩
    · exact r.netBytes_of_terms (plus := [0]) (minus := [1]) rfl (by simpa using hd)
    · exact r.netBytes_of_terms (plus := [2, 3]) (minus := [4, 5]) rfl (by simpa using hd)
    · exact r.netBytes_of_terms (netTerms_of_order j) (by simpa using hd)

/-! ### READ_OPEN -/

theorem State.optionBit_zero {s : State} {k : SlotId} (h : s.optionWord k ≤ 1) :
    s.optionBit k 0 = true ↔ s.optionWord k = 1 := by
  unfold State.optionBit
  rcases Nat.le_one_iff_eq_zero_or_eq_one.mp h with h | h
  · rw [h]
    decide
  · rw [h]
    decide

theorem State.takeReadOpen_of_badPoint {s : State} {k : SlotId} (h : 41 ≤ s.param k 0x10 2) :
    s.takeReadOpen k = s.refuse k .badPoint := by
  unfold State.takeReadOpen
  exact dif_neg (by omega)

theorem State.takeReadOpen_of_badParam {s : State} {k : SlotId} {p : SetId} (hp : s.param k 0x10 2 = p.val)
    (h : s.param k 0x14 2 = 0 ∨ 40 < s.param k 0x14 2 ∨ 104 < s.param k 0x12 2 + s.param k 0x14 2 ∨ 1 < s.optionWord k) :
    s.takeReadOpen k = s.refuse k .badParam := by
  unfold State.takeReadOpen
  dsimp only
  rw [dif_pos (by omega), if_neg (by omega)]

/-- The set that a READ_OPEN of set `p` reads: the open one, or the previous one (R172). -/
def State.readSource (s : State) (k : SlotId) (p : SetId) : Option (Fin 2) :=
  if s.optionWord k = 1 then s.banks[bankOfSet p].previous else s.banks[bankOfSet p].phase.accumulating

theorem State.takeReadOpen_of_good {s : State} {k : SlotId} {p : SetId} (hp : s.param k 0x10 2 = p.val)
    (h : 1 ≤ s.param k 0x14 2 ∧ s.param k 0x14 2 ≤ 40 ∧ s.param k 0x12 2 + s.param k 0x14 2 ≤ 104 ∧ s.optionWord k ≤ 1) :
    s.takeReadOpen k = (s.readSource k p).elim (s.refuse k .state) fun i =>
      s.readSet k p i (s.param k 0x12 2) (s.param k 0x14 2) := by
  have hn : s.param k 0x10 2 < 41 := by omega
  obtain rfl : p = ⟨s.param k 0x10 2, hn⟩ := Fin.ext hp.symm
  unfold State.takeReadOpen State.readSource
  dsimp only
  rw [dif_pos hn, if_pos h]
  simp only [State.optionBit_zero h.2.2.2]
  split
  next hi =>
    rw [hi]
    rfl
  next hi =>
    rw [hi]
    rfl

/-- A READ_OPEN over an accounting table without errors leaves the banks (R87). -/
theorem State.takeReadOpen_banks {s : State} (h : s.ecc.accounting = []) (k : SlotId) : (s.takeReadOpen k).banks = s.banks := by
  unfold State.takeReadOpen
  dsimp only
  split
  · split
    · split
      · unfold State.readSet
        dsimp only
        rw [State.checkAccs_of_clean h]
        exact s.finish_banks k _ _
      · exact s.finish_banks k _ _
    · exact s.finish_banks k _ _
  · exact s.finish_banks k _ _

theorem readSet_data_length {x : AccSet} {e : Fin 6} {first count : Nat} (h : count ≤ 40) :
    ((quantityRange first count).flatMap fun q => leBytes 8 (x.totals e)[q].toNat).length ≤ 320 := by
  have := quantityRange_length_le first count
  rw [length_flatMap_of_length _ _ 8 fun _ _ => leBytes_length _ _]
  omega

/-! ### READ_REGISTERS -/

theorem State.judgeRead_of_badPoint {s : State} {k : SlotId} (h : 41 ≤ s.param k 0x10 2) (size : Nat)
    (read : SetId → Nat → Nat → State) : s.judgeRead k size read = s.refuse k .badPoint := by
  unfold State.judgeRead
  exact dif_neg (by omega)

theorem State.judgeRead_of_badParam {s : State} {k : SlotId} {p : SetId} (hp : s.param k 0x10 2 = p.val) {size : Nat}
    (h : s.param k 0x14 2 = 0 ∨ 20 < s.param k 0x14 2 ∨ size < s.param k 0x12 2 + s.param k 0x14 2 ∨ 1 < s.optionWord k)
    (read : SetId → Nat → Nat → State) : s.judgeRead k size read = s.refuse k .badParam := by
  unfold State.judgeRead
  dsimp only
  rw [dif_pos (by omega), if_neg (by omega)]

theorem State.judgeRead_of_good {s : State} {k : SlotId} {p : SetId} (hp : s.param k 0x10 2 = p.val) {size : Nat}
    (h : 1 ≤ s.param k 0x14 2 ∧ s.param k 0x14 2 ≤ 20 ∧ s.param k 0x12 2 + s.param k 0x14 2 ≤ size ∧ s.optionWord k ≤ 1)
    (read : SetId → Nat → Nat → State) : s.judgeRead k size read = read p (s.param k 0x12 2) (s.param k 0x14 2) := by
  have hn : s.param k 0x10 2 < 41 := by omega
  obtain rfl : p = ⟨s.param k 0x10 2, hn⟩ := Fin.ext hp.symm
  unfold State.judgeRead
  dsimp only
  rw [dif_pos hn, if_pos h]

/-- The row of a READ_REGISTERS, with or without NET. -/
theorem takeReadRegisters_eq (net : Bool) : commandEffect (if net then .readRegistersNet else .readRegisters) =
    State.take (if net then .readRegistersNet else .readRegisters) fun s k => s.judgeRead k (if net then 51 else 104)
      (if net then s.readNet k else s.readQuantities k) := by
  cases net
  · rfl
  · rfl

/-- What a READ_REGISTERS returns over a store without errors (R105, R106). -/
theorem State.read_of_clean {s : State} (h : s.ecc.registers = []) (k : SlotId) (net : Bool) (p : SetId) (first count : Nat) :
    (if net then s.readNet k else s.readQuantities k) p first count = s.finish k .done { okReply with
      interval := s.regs[p].lastFolded
      count := count
      data := if net then s.regs[p].netBytes first count else s.regs[p].bytes first count } := by
  cases net
  · simp only [Bool.false_eq_true, if_false]
    unfold State.readQuantities
    rw [State.checkRegs_of_clean h, State.done_eq]
  · simp only [if_true]
    unfold State.readNet
    rw [State.checkRegs_of_clean h, State.done_eq]

/-- A READ_REGISTERS over a register store without errors leaves the store (R105). -/
theorem State.judgeRead_regs {s : State} (h : s.ecc.registers = []) (k : SlotId) (size : Nat) (net : Bool) :
    (s.judgeRead k size (if net then s.readNet k else s.readQuantities k)).regs = s.regs := by
  unfold State.judgeRead
  dsimp only
  split
  · split
    · rw [State.read_of_clean h]
      exact s.finish_regs k _ _
    · exact s.finish_regs k _ _
  · exact s.finish_regs k _ _

/-- Settles O53, check by check. -/
theorem readsReturnValues : Obligations.ReadsReturnValues := by
  refine ⟨fun s k rest hm hclean hh => ?_, fun s k rest net hm hclean hh => ?_⟩
  · have hand := State.InHand.beginTake hm.1 k rest
    have area := State.SameArea.beginTake s k rest
    have h10 := area.param 0x10 2 (by decide) (by decide)
    have h12 := area.param 0x12 2 (by decide) (by decide)
    have h14 := area.param 0x14 2 (by decide) (by decide)
    have hclean' := (s.beginTake_accountingMarks k rest).trans hclean
    refine ⟨_, hh.exec rfl, ?_, fun hbad => ?_, fun p hp => ?_⟩
    · rw [State.takeReadOpen_banks hclean', State.beginTake_banks]
    · rw [State.takeReadOpen_of_badPoint (by omega)]
      exact hand.refused _
    · by_cases hbad : s.param k 0x14 2 = 0 ∨ 40 < s.param k 0x14 2 ∨ 104 < s.param k 0x12 2 + s.param k 0x14 2 ∨
          1 < s.optionWord k
      · rw [if_pos hbad, State.takeReadOpen_of_badParam (h10.trans hp) (by rwa [h12, h14, area.optionWord])]
        exact hand.refused _
      · rw [if_neg hbad, State.takeReadOpen_of_good (h10.trans hp) (by rw [h12, h14, area.optionWord]; omega)]
        unfold State.readSource
        rw [area.optionWord, State.beginTake_banks, h12, h14]
        cases (if s.optionWord k = 1 then s.banks[bankOfSet p].previous
          else s.banks[bankOfSet p].phase.accumulating) with
        | none => exact hand.refused _
        | some i =>
          dsimp only [Option.elim]
          unfold State.readSet
          dsimp only
          rw [State.checkAccs_of_clean hclean', State.beginTake_banks]
          exact hand.ended .done (readSet_data_length (by omega))
  · have hand := State.InHand.beginTake hm.1 k rest
    have area := State.SameArea.beginTake s k rest
    have h10 := area.param 0x10 2 (by decide) (by decide)
    have h12 := area.param 0x12 2 (by decide) (by decide)
    have h14 := area.param 0x14 2 (by decide) (by decide)
    have hclean' := (s.beginTake_registerMarks k rest).trans hclean
    refine ⟨_, hh.exec (takeReadRegisters_eq net), ?_, fun hbad => ?_, fun p hp => ?_⟩
    · rw [State.judgeRead_regs hclean', State.beginTake_regs]
    · rw [State.judgeRead_of_badPoint (by omega)]
      exact hand.refused _
    · by_cases hbad : s.param k 0x14 2 = 0 ∨ 20 < s.param k 0x14 2 ∨
          (if net then 51 else 104) < s.param k 0x12 2 + s.param k 0x14 2 ∨ 1 < s.optionWord k
      · rw [if_pos hbad, State.judgeRead_of_badParam (h10.trans hp) (by rwa [h12, h14, area.optionWord])]
        exact hand.refused _
      · rw [if_neg hbad, State.judgeRead_of_good (h10.trans hp) (by rw [h12, h14, area.optionWord]; omega),
          State.read_of_clean hclean', State.beginTake_regs, h12, h14]
        refine hand.ended .done ?_
        cases net
        · simp only [Bool.false_eq_true, if_false, RegisterSet.bytes_length]
          omega
        · simp only [if_true, RegisterSet.netBytes_length]
          omega

end Sys2Proof.Machine
end

section
/-! SUPPORT. LINK_CONTROL and READ_CAPTURE: the receiver acted on, the capture record returned (R17, R178, R179, R192). -/

namespace Sys2Proof.Machine

/-! ### A take whose words are all readable -/

/-- A word that is not in an uncorrectable error: its read reports nothing. -/
theorem State.checkWord_of_not_bad {s : State} {w : Nat} (h : s.badWord w = false) :
    (s.checkWord w).capture = s.capture ∧ (s.checkWord w).notices = s.notices := by
  unfold State.badWord at h
  unfold State.checkWord
  split
  · exact ⟨rfl, rfl⟩
  · exact ⟨rfl, rfl⟩
  next v hv =>
    rw [hv] at h
    cases h

theorem State.checkWords_of_not_bad {s : State} {ws : List Nat} (hord : ∀ w ∈ ws, ordinaryWord w)
    (h : ∀ w ∈ ws, s.badWord w = false) : (s.checkWords ws).capture = s.capture ∧ (s.checkWords ws).notices = s.notices := by
  unfold State.checkWords
  induction ws generalizing s with
  | nil => exact ⟨rfl, rfl⟩
  | cons v ws ih =>
    obtain ⟨hcapture, hnotices⟩ := State.checkWord_of_not_bad (h v List.mem_cons_self)
    obtain ⟨ihcapture, ihnotices⟩ := ih (s := s.checkWord v) (fun w hw => hord w (List.mem_cons_of_mem v hw)) fun w hw => by
      rw [(State.SameWord.checkWord s v (hord w (List.mem_cons_of_mem v hw))).badWord]
      exact h w (List.mem_cons_of_mem v hw)
    exact ⟨ihcapture.trans hcapture, ihnotices.trans hnotices⟩

theorem State.beginTake_of_not_bad {s : State} {k : SlotId} (h : s.requestBad k = false) (rest : List SlotId) :
    (s.beginTake k rest).capture = s.capture ∧ (s.beginTake k rest).notices = s.notices := by
  have words := List.any_eq_false.mp h
  unfold State.beginTake
  refine State.checkWords_of_not_bad (fun w hw => ?_) fun w hw => Bool.eq_false_iff.mpr (words w hw)
  obtain ⟨j, hlow, hhigh, rfl⟩ := State.mem_requestWords hw
  exact ordinaryWord_slot k hlow (by omega)

/-- A request with an uncorrectable word is taken under BAD_KIND alone (R150). -/
theorem State.Head.not_bad {s : State} {k : SlotId} {rest : List SlotId} {row : Row} (h : s.Head k rest row)
    (hrow : row ≠ .badKind) : s.requestBad k = false := by
  obtain ⟨-, -, -, his⟩ := h
  rw [Bool.eq_false_iff]
  intro hbad
  unfold State.isRow at his
  rw [if_pos hbad] at his
  exact hrow (by simpa using his)

/-! ### The end of a slot, the latched causes and the error marks -/

theorem State.latch_latched_of_ne (s : State) {c d : Cause} (h : d ≠ c) : (s.latch c).latched d = s.latched d := by
  have flag : c.flag.getLsbD d.index.val = false := by
    revert h
    cases c
    all_goals
      cases d
      all_goals decide
  unfold State.latched State.latch
  dsimp only
  rw [BitVec.getLsbD_or, flag, Bool.or_false]

theorem State.finish_latched (s : State) (k : SlotId) (st : SlotState) (r : Reply) {c : Cause} (h : c ≠ .done) :
    (s.finish k st r).latched c = s.latched c := by
  unfold State.finish State.endSlot
  exact State.latch_latched_of_ne _ h

theorem State.wordsWritten_clean {s : State} {w : Nat} (h : s.ecc.exchange.lookup w = none) (lo hi : Nat) :
    (s.wordsWritten lo hi).ecc.exchange.lookup w = none := by
  rw [State.wordsWritten_lookup, h, ite_self]

theorem State.rewrite_clean {s u : State} {w : Nat} (h : u.ecc.exchange.lookup w = none) :
    (s.rewrite u).ecc.exchange.lookup w = none := by
  rw [State.rewrite_lookup, h, ite_self]

theorem State.finish_clean {s : State} {w : Nat} (h : s.ecc.exchange.lookup w = none) (k : SlotId) (st : SlotState) (r : Reply) :
    (s.finish k st r).ecc.exchange.lookup w = none := by
  have written : (s.writeReply k (s.serial k) r).ecc.exchange.lookup w = none := State.wordsWritten_clean h _ _
  unfold State.finish
  generalize s.writeReply k (s.serial k) r = u at written ⊢
  exact State.rewrite_clean written

/-! ### LINK_CONTROL -/

/-- A receiver after a change of state (R9). -/
def Receiver.moved (r : Receiver) (st : RxState) : Receiver :=
  { r with state := st, inProgress := [], consecutiveBad := 0, silenceTimer := if st = .sync then some Config.silenceMs else none }

/-- A receiver after a LINK_CONTROL action (R17). -/
def Receiver.controlled (r : Receiver) : LinkAction → Receiver
  | .enable => if r.state = .down then r.moved .hunt else r
  | .disable => if r.state = .down then r else ({ r with fifo := [] } : Receiver).moved .down
  | .reset =>
    let cleared : Receiver := { r with fifo := [], errors := noErrors, inProgress := [] }
    if r.state = .hunt then cleared else cleared.moved .hunt
  | .clear => { r with errors := noErrors }

theorem Receiver.controlled_counters (r : Receiver) (a : LinkAction) :
    (r.controlled a).good = r.good ∧ (r.controlled a).bad = r.bad ∧ (r.controlled a).lost = r.lost := by
  unfold Receiver.controlled
  cases a
  case clear => exact ⟨rfl, rfl, rfl⟩
  all_goals
    dsimp only
    split
    · exact ⟨rfl, rfl, rfl⟩
    · exact ⟨rfl, rfl, rfl⟩

theorem Receiver.controlled_state (r : Receiver) (a : LinkAction) : (r.controlled a).state =
    if a = .enable then (if r.state = .down then .hunt else r.state)
    else if a = .disable then .down else if a = .reset then .hunt else r.state := by
  unfold Receiver.controlled
  cases a
  case clear => rfl
  all_goals
    dsimp only
    by_cases h : r.state = .down
    · simp [h, Receiver.moved]
    · by_cases hh : r.state = .hunt
      · simp [hh, Receiver.moved]
      · simp [h, hh, Receiver.moved]

theorem Receiver.controlled_fifo (r : Receiver) (a : LinkAction) : (r.controlled a).fifo =
    if a = .reset ∨ a = .disable ∧ r.state ≠ .down then [] else r.fifo := by
  unfold Receiver.controlled
  cases a
  case clear => rfl
  all_goals
    dsimp only
    split
    · simp_all [Receiver.moved]
    · simp_all [Receiver.moved]

theorem Receiver.controlled_errors (r : Receiver) (a : LinkAction) : (r.controlled a).errors =
    if a = .reset ∨ a = .clear then noErrors else r.errors := by
  unfold Receiver.controlled
  cases a
  case clear => rfl
  all_goals
    dsimp only
    split
    · simp [Receiver.moved]
    · simp [Receiver.moved]

/-- A change of state is one out of SYNC's bookkeeping (R9). -/
theorem Receiver.controlled_of_moved (r : Receiver) {a : LinkAction} (h : (r.controlled a).state ≠ r.state) :
    (r.controlled a).inProgress = [] ∧ (r.controlled a).consecutiveBad = 0 ∧ (r.controlled a).silenceTimer = none := by
  revert h
  unfold Receiver.controlled
  cases a
  case clear => exact fun h => absurd rfl h
  all_goals
    dsimp only
    split
    · simp [Receiver.moved]
    · simp [Receiver.moved]

theorem Receiver.controlled_of_stayed (r : Receiver) {a : LinkAction} (h : (r.controlled a).state = r.state) :
    (r.controlled a).inProgress = (if a = .reset then [] else r.inProgress) ∧
      (r.controlled a).consecutiveBad = r.consecutiveBad ∧ (r.controlled a).silenceTimer = r.silenceTimer := by
  revert h
  unfold Receiver.controlled
  cases a
  case clear => exact fun _ => ⟨rfl, rfl, rfl⟩
  all_goals
    dsimp only
    split
    · simp_all [Receiver.moved]
    · simp_all [Receiver.moved, eq_comm]

theorem State.changeReceiver_of_putLink (s : State) (l : LinkId) (r : Receiver) (st : RxState) :
    ((s.putLink l r).changeReceiver l st).links = s.links.set l (r.moved st) := by
  rw [State.changeReceiver_links, State.putLink_links]
  unfold Receiver.moved
  simp

/-- The receiver of the link alone is acted on. -/
theorem State.linkAction_links (s : State) (l : LinkId) (a : LinkAction) :
    (s.linkAction l a).links = s.links.set l (s.links[l].controlled a) := by
  have same : s.links.set l s.links[l] = s.links := by simp
  unfold State.linkAction Receiver.controlled
  cases a
  case enable =>
    dsimp only
    split
    · exact s.changeReceiver_links l .hunt
    · exact same.symm
  case disable =>
    dsimp only
    split
    · exact same.symm
    · exact s.changeReceiver_of_putLink l _ .down
  case reset =>
    dsimp only
    split
    · rfl
    · rw [State.changeReceiver_links]
      simp [Receiver.moved, State.mirrorWritten]
  case clear => rfl

/-- LINK is latched by a change of state alone (R9). -/
theorem State.linkAction_latched (s : State) (l : LinkId) (a : LinkAction) :
    ((s.links[l].controlled a).state ≠ s.links[l].state → (s.linkAction l a).latched .link = true) ∧
    ((s.links[l].controlled a).state = s.links[l].state → (s.linkAction l a).notices = s.notices) := by
  unfold State.linkAction Receiver.controlled
  cases a
  case enable =>
    dsimp only
    by_cases h : s.links[l].state = .down
    · rw [if_pos h, if_pos h, h]
      exact ⟨fun _ => State.latch_latched _ _, fun hsame => nomatch hsame⟩
    · rw [if_neg h, if_neg h]
      exact ⟨fun hne => absurd rfl hne, fun _ => rfl⟩
  case disable =>
    dsimp only
    by_cases h : s.links[l].state = .down
    · rw [if_pos h, if_pos h]
      exact ⟨fun hne => absurd rfl hne, fun _ => rfl⟩
    · rw [if_neg h, if_neg h]
      exact ⟨fun _ => State.latch_latched _ _, fun hsame => absurd hsame.symm h⟩
  case reset =>
    dsimp only
    by_cases h : s.links[l].state = .hunt
    · rw [if_pos h, if_pos h]
      exact ⟨fun hne => absurd rfl hne, fun _ => rfl⟩
    · rw [if_neg h, if_neg h]
      exact ⟨fun _ => State.latch_latched _ _, fun hsame => absurd hsame.symm h⟩
  case clear => exact ⟨fun hne => absurd rfl hne, fun _ => rfl⟩

/-- RESET and CLEAR rewrite the link's mirror word (R17, R178). -/
theorem State.linkAction_clean (s : State) (l : LinkId) {a : LinkAction} (h : a = .reset ∨ a = .clear) :
    (s.linkAction l a).ecc.exchange.lookup (8 + l.val) = none := by
  have written (u : State) : (u.mirrorWritten l).ecc.exchange.lookup (8 + l.val) = none := by
    unfold State.mirrorWritten
    rw [State.wordsWritten_lookup, if_pos (by omega)]
  unfold State.linkAction
  rcases h with rfl | rfl
  · dsimp only
    split
    · exact written _
    · exact State.rewrite_clean (written _)
  · exact written _

theorem State.SameArea.putLink (s : State) (l : LinkId) (r : Receiver) (k : SlotId) : s.SameArea (s.putLink l r) k := by
  unfold State.putLink
  refine .rewritten s _ ?_ ?_ k
  · rfl
  · rfl

theorem State.SameArea.changeReceiver (s : State) (l : LinkId) (st : RxState) (k : SlotId) :
    s.SameArea (s.changeReceiver l st) k := by
  unfold State.changeReceiver
  exact .trans (.putLink s l _ k) (.of_same rfl rfl k)

/-- Words of the header page written by their blocks. -/
theorem State.SameArea.headerWritten {s u : State} (hm : u.mem = s.mem) (he : u.ecc.exchange = s.ecc.exchange) (lo : Nat)
    {hi : Nat} (h : hi ≤ 1024) (k : SlotId) : s.SameArea (u.wordsWritten lo hi) k := by
  intro j hlow _
  refine ⟨by rw [State.wordsWritten_mem, hm], Or.inl ?_⟩
  have : 1024 ≤ slotWord k := by unfold slotWord; omega
  rw [State.wordsWritten_lookup, if_neg (by omega), he]

theorem State.SameArea.mirrorWritten (s : State) (l : LinkId) (k : SlotId) : s.SameArea (s.mirrorWritten l) k := by
  have := l.isLt
  exact .headerWritten rfl rfl _ (by omega) k

theorem State.SameArea.linkAction (s : State) (l : LinkId) (a : LinkAction) (k : SlotId) : s.SameArea (s.linkAction l a) k := by
  unfold State.linkAction
  cases a
  case enable =>
    dsimp only
    split
    · exact .changeReceiver s l _ k
    · exact .refl s k
  case disable =>
    dsimp only
    split
    · exact .refl s k
    · exact .trans (.putLink s l _ k) (.changeReceiver _ l _ k)
  case reset =>
    dsimp only
    split
    · exact .trans (.putLink s l _ k) (.mirrorWritten _ l k)
    · exact .trans (.trans (.putLink s l _ k) (.mirrorWritten _ l k)) (.changeReceiver _ l _ k)
  case clear => exact .trans (.putLink s l _ k) (.mirrorWritten _ l k)

theorem State.takeLink_of_badParam {s : State} {k : SlotId} {a : LinkAction}
    (h : 5 < s.param k 0x10 4 ∨ s.optionWord k ≠ 0 ∨ LinkAction.ofCode (s.param k 0x14 4) ≠ some a) :
    s.takeLink a k = s.refuse k .badParam := by
  unfold State.takeLink
  refine dif_neg fun ⟨hlink, hcode, hoption⟩ => ?_
  rcases h with h | h | h
  · omega
  · exact h hoption
  · exact h hcode

theorem State.takeLink_of_link {s : State} {k : SlotId} {a : LinkAction} {l : LinkId} (hl : s.param k 0x10 4 = l.val)
    (ho : s.optionWord k = 0) (ha : LinkAction.ofCode (s.param k 0x14 4) = some a) : s.takeLink a k =
      (s.linkAction l a).done k { okReply with data := linkBytes s.links[l] (s.linkAction l a).links[l] } := by
  have hn : s.param k 0x10 4 < 6 := by omega
  obtain rfl : l = ⟨s.param k 0x10 4, hn⟩ := Fin.ext hl.symm
  unfold State.takeLink
  exact dif_pos ⟨hn, ha, ho⟩

/-! ### READ_CAPTURE -/

theorem takeReadCapture_eq (clear : Bool) : commandEffect (if clear then .readCaptureClear else .readCapture) =
    State.take (if clear then .readCaptureClear else .readCapture)
      (if clear then State.takeReadCaptureClear else State.takeReadCapture) := by
  cases clear
  · rfl
  · rfl

/-- The state in which a READ_CAPTURE ends: the record emptied by CLEAR alone (R179). -/
def State.captureTaken (s : State) (clear : Bool) : State := if clear then s.putCapture none else s

theorem State.takeReadCapture_of_good {s : State} {k : SlotId} (h : s.optionWord k ≤ 1) (clear : Bool) :
    (if clear then State.takeReadCaptureClear else State.takeReadCapture) s k =
      (s.captureTaken clear).finish k .done (captureReply s.capture) := by
  cases clear
  · exact if_pos h
  · exact if_pos h

theorem State.takeReadCapture_of_badParam {s : State} {k : SlotId} (h : 1 < s.optionWord k) (clear : Bool) :
    (if clear then State.takeReadCaptureClear else State.takeReadCapture) s k = s.refuse k .badParam := by
  cases clear
  · exact if_neg (by omega)
  · exact if_neg (by omega)

/-- CAPTURE stays latched (R192). -/
theorem State.readCapture_latched (s : State) (k : SlotId) (clear : Bool) :
    ((if clear then State.takeReadCaptureClear else State.takeReadCapture) s k).latched .capture = s.latched .capture := by
  by_cases h : s.optionWord k ≤ 1
  · rw [State.takeReadCapture_of_good h, State.finish_latched _ _ _ _ (by decide)]
    cases clear
    · rfl
    · rfl
  · rw [State.takeReadCapture_of_badParam (by omega)]
    exact State.finish_latched _ _ _ _ (by decide)

theorem State.SameArea.putCapture (s : State) (c : Option Capture) (k : SlotId) : s.SameArea (s.putCapture c) k := by
  unfold State.putCapture
  exact .headerWritten rfl rfl _ (by decide) k

theorem State.InHand.captureTaken {s v : State} {k : SlotId} {rest : List SlotId} (h : s.InHand v k rest) (clear : Bool) :
    s.InHand (v.captureTaken clear) k rest := by
  cases clear
  · exact h
  · exact h.step (v.putCapture_touches none) (by decide) (.putCapture v none k)

/-- Settles O57: the action's receiver, the capture record. -/
theorem linkControlAndReadCapture : Obligations.LinkControlAndReadCapture := by
  refine ⟨fun s k rest a hm hh => ?_, fun s k rest clear hm hh => ?_⟩
  · have hand := State.InHand.beginTake hm.1 k rest
    have area := State.SameArea.beginTake s k rest
    have h10 := area.param 0x10 4 (by decide) (by decide)
    have h14 := area.param 0x14 4 (by decide) (by decide)
    obtain ⟨-, hnotices⟩ := State.beginTake_of_not_bad (hh.not_bad (by simp)) rest
    refine ⟨State.takeLink a (s.beginTake k rest) k, ?_, fun hbad => ?_, fun l hl hoption hcode => ?_⟩
    · cases a
      all_goals exact hh.exec rfl
    · rw [State.takeLink_of_badParam (by rwa [h10, h14, area.optionWord])]
      exact ⟨hand.refused _, by simp [State.refuse_eq]⟩
    · have links := (s.beginTake k rest).linkAction_links l a
      obtain ⟨hmoved, hstayed⟩ := (s.beginTake k rest).linkAction_latched l a
      rw [State.beginTake_links] at links hmoved hstayed
      have link : ((s.beginTake k rest).linkAction l a).links[l] = s.links[l].controlled a := by
        rw [links, getElem_fin_set_self]
      rw [State.takeLink_of_link (h10.trans hl) (area.optionWord.trans hoption) (by rw [h14, hcode]), State.done_eq,
        State.finish_links, State.beginTake_links, link, State.finish_latched _ _ _ _ (by decide)]
      have acted := hand.step (State.linkAction_touches _ l a) (by decide) (.linkAction _ l a k)
      refine ⟨fun l' hne => ?_, acted.ended .done (by simp [linkBytes_length]), ?_⟩
      · rw [links, getElem_fin_set_of_ne _ _ hne]
      · obtain ⟨hgood, hbad, hlost⟩ := s.links[l].controlled_counters a
        refine ⟨hgood, hbad, hlost, ?_, ?_, ?_, fun ha => State.finish_clean (State.linkAction_clean _ l ha) _ _ _,
          fun hne => ⟨hmoved hne, s.links[l].controlled_of_moved hne⟩, fun heq => ⟨?_, s.links[l].controlled_of_stayed heq⟩⟩
        · rw [Receiver.controlled_state]
          generalize s.links[l].state = st
          cases a
          all_goals
            cases st
            all_goals rfl
        · rw [Receiver.controlled_fifo]
          generalize s.links[l].state = st
          cases a
          all_goals
            cases st
            all_goals rfl
        · rw [Receiver.controlled_errors]
          cases a
          all_goals rfl
        · unfold State.latched
          rw [hstayed heq, hnotices]
  · have hand := State.InHand.beginTake hm.1 k rest
    have area := State.SameArea.beginTake s k rest
    obtain ⟨hcapture, hnotices⟩ := State.beginTake_of_not_bad (hh.not_bad (by cases clear <;> decide)) rest
    refine ⟨_, hh.exec (takeReadCapture_eq clear), fun hbad => ?_, fun hgood => ⟨?_, ?_⟩, ?_⟩
    · rw [State.takeReadCapture_of_badParam (by rwa [area.optionWord])]
      exact ⟨hand.refused _, (State.finish_capture _ _ _ _).trans hcapture⟩
    · rw [State.takeReadCapture_of_good (by rwa [area.optionWord]), hcapture]
      exact (hand.captureTaken clear).ended .done (by simp [captureReply, captureBytes_length])
    · rw [State.takeReadCapture_of_good (by rwa [area.optionWord]), State.finish_capture]
      cases clear
      · exact hcapture
      · rfl
    · rw [State.readCapture_latched]
      unfold State.latched
      rw [hnotices]

end Sys2Proof.Machine
end

section
/-! SUPPORT. REBASE: its values, its checks, and the pending REBASE it holds (R94, R174). -/

namespace Sys2Proof.Machine

/-! ### Packed decimals -/

theorem unpackDecimal_isSome (bs : List Byte) :
    (unpackDecimal bs).isSome = true ↔ ∀ x ∈ bs, x.toNat % 16 ≤ 9 ∧ x.toNat / 16 ≤ 9 := by
  induction bs with
  | nil => simp [unpackDecimal]
  | cons b bs ih =>
    rw [List.forall_mem_cons, ← ih, unpackDecimal]
    split
    next hdigits => simp only [Option.isSome_map, hdigits, true_and]
    next hdigits => simp only [Option.isSome_none, Bool.false_eq_true, hdigits, false_and]

/-- Bytes that unpack are the packed form of their value. -/
theorem packDecimal_of_unpack {bs : List Byte} {v : Nat} (h : unpackDecimal bs = some v) : packDecimal bs.length v = bs := by
  induction bs generalizing v with
  | nil => rfl
  | cons b bs ih =>
    unfold unpackDecimal at h
    split at h
    next hdigits =>
      obtain ⟨u, hu, rfl⟩ := Option.map_eq_some_iff.mp h
      rw [List.length_cons, packDecimal]
      refine congrArg₂ _ ?_ ?_
      · refine BitVec.eq_of_toNat_eq ?_
        have := b.isLt
        rw [BitVec.toNat_ofNat, Nat.mod_eq_of_lt (by omega)]
        omega
      · rw [show (b.toNat % 16 + 10 * (b.toNat / 16) + 100 * u) / 100 = u by omega]
        exact ih hu
    · cases h

theorem mapM_isSome {α β : Type} (f : α → Option β) (l : List α) :
    (l.mapM f).isSome = true ↔ ∀ a ∈ l, (f a).isSome = true := by
  induction l with
  | nil => simp
  | cons a l ih =>
    rw [List.mapM_cons, List.forall_mem_cons, ← ih]
    cases f a with
    | none => simp
    | some b =>
      cases l.mapM f with
      | none => simp
      | some bs => simp

theorem mapM_getElem? {α β : Type} {f : α → Option β} {l : List α} {ys : List β} (h : l.mapM f = some ys) {i : Nat} {y : β}
    (hy : ys[i]? = some y) : ∃ a, l[i]? = some a ∧ f a = some y := by
  induction l generalizing ys i with
  | nil =>
    rw [List.mapM_nil] at h
    cases h
    cases hy
  | cons a l ih =>
    rw [List.mapM_cons] at h
    obtain ⟨b, hb, h⟩ := Option.bind_eq_some_iff.mp h
    obtain ⟨bs, hbs, h⟩ := Option.bind_eq_some_iff.mp h
    cases h
    cases i with
    | zero =>
      cases hy
      exact ⟨a, rfl, hb⟩
    | succ i => exact ih hbs hy

/-- The values of a REBASE exist in the ranges of R174 alone, with digits alone. -/
theorem State.rebaseValues_isSome (s : State) (k : SlotId) : (s.rebaseValues k).isSome = true ↔
    (1 ≤ s.param k 0x14 2 ∧ s.param k 0x14 2 ≤ 12 ∧ s.param k 0x12 2 + s.param k 0x14 2 ≤ 104 ∧ s.optionWord k = 0) ∧
    ∀ i, i < s.param k 0x14 2 → (s.rebaseValue k i).isSome = true := by
  unfold State.rebaseValues
  dsimp only
  split
  next h => simp only [mapM_isSome, List.mem_range, h, true_and, and_true]
  next h => simp only [h, false_and, Option.isSome_none, Bool.false_eq_true]

theorem State.rebaseValues_getElem? {s : State} {k : SlotId} {vs : List Nat} (h : s.rebaseValues k = some vs) :
    vs.length = s.param k 0x14 2 ∧ ∀ i v, vs[i]? = some v → s.rebaseValue k i = some v := by
  unfold State.rebaseValues at h
  dsimp only at h
  split at h
  · obtain ⟨hlength, -⟩ := mapM_eq_some h
    refine ⟨by rw [hlength, List.length_range], fun i v hv => ?_⟩
    obtain ⟨j, hj, hvalue⟩ := mapM_getElem? h hv
    obtain ⟨hlt, hj⟩ := List.getElem?_eq_some_iff.mp hj
    rw [List.getElem_range] at hj
    rwa [hj]
  · cases h

/-! ### The take -/

theorem State.takeRebase_of_badPoint {s : State} {k : SlotId} (h : 41 ≤ s.param k 0x10 2) :
    s.takeRebase k = s.refuse k .badPoint := by
  unfold State.takeRebase
  exact dif_neg (by omega)

theorem State.takeRebase_of_badParam {s : State} {k : SlotId} {p : SetId} (hp : s.param k 0x10 2 = p.val)
    (h : s.rebaseValues k = none) : s.takeRebase k = s.refuse k .badParam := by
  unfold State.takeRebase
  dsimp only
  rw [dif_pos (by omega), h]

/-- A REBASE of set `p` whose parameters passed, over a store without errors (R174). -/
theorem State.takeRebase_of_values {s : State} {k : SlotId} {p : SetId} {values : List Nat} (hp : s.param k 0x10 2 = p.val)
    (h : s.rebaseValues k = some values) (hclean : s.ecc.registers = []) : s.takeRebase k =
      if s.banks[bankOfSet p].billing = true then s.refuse k .protectedBank
      else if s.regs[p].rebase.isSome = true then s.refuse k .busy else s.holdRebase k p values := by
  have hn : s.param k 0x10 2 < 41 := by omega
  obtain rfl : p = ⟨s.param k 0x10 2, hn⟩ := Fin.ext hp.symm
  have check : s.checkReg ⟨s.param k 0x10 2, hn⟩ .rebase = s := by
    have := State.checkRegs_of_clean hclean ⟨s.param k 0x10 2, hn⟩ [.rebase]
    exact this
  unfold State.takeRebase
  dsimp only
  rw [dif_pos hn, h]
  dsimp only
  rw [check]

/-- The pending REBASE that a REBASE of slot `k` holds (R94). -/
def State.heldRebase (s : State) (k : SlotId) (values : List Nat) : PendingRebase :=
  { first := s.param k 0x12 2, values := values, slot := k, due := false }

theorem State.holdRebase_eq (s : State) (k : SlotId) (p : SetId) (values : List Nat) : s.holdRebase k p values =
    ((s.defer k (.rebase p) s.banks[bankOfSet p].rebaseEstimate).putRegs p
      { (s.defer k (.rebase p) s.banks[bankOfSet p].rebaseEstimate).regs[p] with
        rebase := some (s.heldRebase k values) }).regWritten p (· == .rebase) := rfl

theorem State.defer_regs (s : State) (k : SlotId) (w : Work) (n : Nat) : (s.defer k w n).regs = s.regs := by
  rw [s.defer_replied k w n]

theorem State.holdRebase_regs (s : State) (k : SlotId) (p : SetId) (values : List Nat) :
    (s.holdRebase k p values).regs = s.regs.set p { s.regs[p] with rebase := some (s.heldRebase k values) } := by
  rw [State.holdRebase_eq, State.regWritten_regs, State.putRegs_regs, State.defer_regs]

theorem State.holdRebase_table (s : State) (k : SlotId) (p : SetId) (values : List Nat) :
    (s.holdRebase k p values).requests.table = s.requests.table ++ [⟨k, .rebase p⟩] := by
  rw [State.holdRebase_eq, State.regWritten_requests, State.putRegs_requests, State.defer_requests]

/-- Settles O55: the values from the request area, the checks in order, the pending REBASE. -/
theorem rebaseIsHeld : Obligations.RebaseIsHeld := by
  refine ⟨fun s k digits hdigits => ?_, fun s k rest hm hclean hh => ?_⟩
  · have value (i : Nat) : s.rebaseValue k i = unpackDecimal (digits i) := by
      rw [hdigits]
      rfl
    refine ⟨?_, fun vs hvs => ?_⟩
    · rw [State.rebaseValues_isSome]
      simp only [value, unpackDecimal_isSome, and_assoc]
    · obtain ⟨hlength, hvalues⟩ := State.rebaseValues_getElem? hvs
      refine ⟨hlength, fun i v hv => ?_⟩
      have hvalue := hvalues i v hv
      refine ⟨State.rebaseValue_lt hvalue, ?_⟩
      rw [value] at hvalue
      have packed := packDecimal_of_unpack hvalue
      rwa [hdigits, List.length_append, wordBytes_length, wordBytes_length, ← hdigits] at packed
  · have hand := State.InHand.beginTake hm.1 k rest
    have area := State.SameArea.beginTake s k rest
    have h10 := area.param 0x10 2 (by decide) (by decide)
    have hclean' := (s.beginTake_registerMarks k rest).trans hclean
    refine ⟨_, hh.exec rfl, fun hbad => ?_, fun p hp => ?_⟩
    · rw [State.takeRebase_of_badPoint (by omega)]
      exact ⟨hand.refused _, by simp [State.refuse_eq]⟩
    · cases hvalues : s.rebaseValues k with
      | none =>
        rw [State.takeRebase_of_badParam (h10.trans hp) (area.rebaseValues.trans hvalues)]
        exact ⟨hand.refused _, by simp [State.refuse_eq]⟩
      | some values =>
        rw [State.takeRebase_of_values (h10.trans hp) (area.rebaseValues.trans hvalues) hclean', State.beginTake_banks,
          State.beginTake_regs]
        dsimp only
        split
        · exact ⟨hand.refused _, by simp [State.refuse_eq]⟩
        · by_cases hbusy : s.regs[p].rebase = none
          · have held : (s.beginTake k rest).heldRebase k values = s.heldRebase k values := by
              unfold State.heldRebase
              rw [area.param 0x12 2 (by decide) (by decide)]
            rw [if_neg (fun h => Option.isSome_iff_ne_none.mp h hbusy), if_neg (fun h => h hbusy), State.holdRebase_regs,
              State.holdRebase_table, held]
            refine ⟨?_, ?_, ?_⟩
            · have taken := hand.deferred (.rebase p) s.banks[bankOfSet p].rebaseEstimate
              rw [State.holdRebase_eq, State.beginTake_banks]
              exact taken.step ((State.putRegs_touches _ p _).seq (State.regWritten_touches _ p _) (rs := [.regs, .registerMarks])
                (by decide) (by decide)) (by decide)
            · rw [State.beginTake_requests]
            · rw [State.beginTake_regs]
              rfl
          · rw [if_pos (Option.isSome_iff_ne_none.mpr hbusy), if_pos hbusy]
            exact ⟨hand.refused _, by simp [State.refuse_eq]⟩

end Sys2Proof.Machine
end

section
/-! SUPPORT. SET_POINT over a register store without errors: its parameters, its checks, the profile written, its echo (R162
to R164). -/

namespace Sys2Proof.Machine

/-! ### The parameters -/

theorem roleOfCode_eq_some {n : Nat} {r : Role} : Role.ofCode n = some r ↔ r.code = n := by
  unfold Role.ofCode
  split
  · cases r
    all_goals simp [Role.code]
  · cases r
    all_goals simp [Role.code]
  · cases r
    all_goals simp [Role.code]
  next h1 h2 h3 =>
    refine ⟨fun h => (nomatch h), fun h => ?_⟩
    cases r
    · exact absurd h.symm h1
    · exact absurd h.symm h2
    · exact absurd h.symm h3

theorem roleOfCode_isSome (n : Nat) : (∃ r, Role.ofCode n = some r) ↔ 1 ≤ n ∧ n ≤ 3 := by
  simp only [roleOfCode_eq_some]
  refine ⟨fun ⟨r, hr⟩ => ?_, fun ⟨hlow, hhigh⟩ => ?_⟩
  · cases r
    all_goals
      simp only [Role.code] at hr
      omega
  · obtain rfl | rfl | rfl : n = 1 ∨ n = 2 ∨ n = 3 := by omega
    · exact ⟨.pcc, rfl⟩
    · exact ⟨.feeder, rfl⟩
    · exact ⟨.source, rfl⟩

theorem mappingOf_isSome (link port : Nat) :
    (∃ m, mappingOf link port = some m) ↔ link = 255 ∨ link ≤ 5 ∧ port ≤ 7 := by
  unfold mappingOf
  split
  next h => exact ⟨fun _ => Or.inl h, fun _ => ⟨none, rfl⟩⟩
  next h =>
    split
    next hin => exact ⟨fun _ => Or.inr ⟨by omega, by omega⟩, fun _ => ⟨_, rfl⟩⟩
    next hin => exact ⟨fun ⟨m, hm⟩ => (nomatch hm), fun h => absurd h (by omega)⟩

theorem mappingOf_eq_some {link port : Nat} {m : Option Mapping} (h : mappingOf link port = some m) :
    (link = 255 → m = none) ∧
    (link ≠ 255 → ∃ (l : LinkId) (q : Fin 8), m = some (l, q) ∧ l.val = link ∧ q.val = port) := by
  unfold mappingOf at h
  split at h
  next hlink =>
    cases h
    exact ⟨fun _ => rfl, fun hne => absurd hlink hne⟩
  next hlink =>
    split at h
    next hin =>
      cases h
      exact ⟨fun heq => absurd heq hlink, fun _ => ⟨_, _, rfl, rfl, rfl⟩⟩
    · cases h

theorem maskOf_getLsbD (lo hi : Word) (j : Fin 49) : (maskOf lo hi).getLsbD j.val =
    if j.val < 32 then lo.getLsbD j.val else hi.getLsbD (j.val - 32) := by
  unfold maskOf
  rw [BitVec.getLsbD_ofNat, decide_eq_true j.isLt, Bool.true_and, Nat.add_comm, Nat.testBit_two_pow_mul_add _ lo.isLt]
  rfl

/-- The parameters of a SET_POINT field by field (R162). -/
theorem State.pointRequest_eq_some (s : State) (k : SlotId) (r : PointRequest) : s.pointRequest k = some r ↔
    Role.ofCode (s.param k 0x13 1) = some r.role ∧ mappingOf (s.param k 0x14 1) (s.param k 0x15 1) = some r.mapping ∧
    s.param k 0x12 1 ≤ 1 ∧ s.param k 0x16 1 ≤ 1 ∧ s.optionWord k = 0 ∧ r.enable = (s.param k 0x12 1 == 1) ∧
    r.invert = (s.param k 0x16 1 == 1) ∧ r.scale.val = s.param k 0x17 1 ∧
    r.mask = maskOf (s.requestWord k 6) (s.requestWord k 7) := by
  unfold State.pointRequest
  dsimp only
  split
  next role mapping hrole hmapping =>
    rw [hrole, hmapping]
    split
    next h =>
      obtain ⟨henable, hinvert, hscale, hoption⟩ := h
      simp only [Option.some.injEq, henable, hinvert, hoption, true_and]
      refine ⟨fun hr => ?_, fun ⟨h1, h2, h3, h4, h5, h6⟩ => ?_⟩
      · subst hr
        exact ⟨rfl, rfl, rfl, rfl, rfl, rfl⟩
      · cases r
        simp only at h1 h2 h3 h4 h5 h6
        subst h1 h2 h3 h4 h6
        rw [PointRequest.mk.injEq]
        exact ⟨rfl, rfl, rfl, rfl, Fin.ext h5.symm, rfl⟩
    next h =>
      refine ⟨fun hr => (nomatch hr), fun ⟨_, _, henable, hinvert, hoption, _, _, hscale, _⟩ => absurd ?_ h⟩
      exact ⟨henable, hinvert, by omega, hoption⟩
  next h => exact ⟨fun hr => (nomatch hr), fun ⟨hrole, hmapping, _⟩ => absurd hmapping (h _ _ hrole)⟩

theorem State.pointRequest_isSome (s : State) (k : SlotId) : (s.pointRequest k).isSome = true ↔
    s.param k 0x12 1 ≤ 1 ∧ 1 ≤ s.param k 0x13 1 ∧ s.param k 0x13 1 ≤ 3 ∧
    (s.param k 0x14 1 = 255 ∨ s.param k 0x14 1 ≤ 5 ∧ s.param k 0x15 1 ≤ 7) ∧ s.param k 0x16 1 ≤ 1 ∧
    s.param k 0x17 1 ≤ 3 ∧ s.optionWord k = 0 := by
  rw [Option.isSome_iff_exists]
  simp only [State.pointRequest_eq_some]
  refine ⟨fun ⟨r, hrole, hmapping, henable, hinvert, hoption, _, _, hscale, _⟩ => ?_,
    fun ⟨henable, hrlow, hrhigh, hmapping, hinvert, hscale, hoption⟩ => ?_⟩
  · obtain ⟨hlow, hhigh⟩ := (roleOfCode_isSome _).mp ⟨_, hrole⟩
    exact ⟨henable, hlow, hhigh, (mappingOf_isSome _ _).mp ⟨_, hmapping⟩, hinvert, by omega, hoption⟩
  · obtain ⟨role, hrole⟩ := (roleOfCode_isSome _).mpr ⟨hrlow, hrhigh⟩
    obtain ⟨m, hm⟩ := (mappingOf_isSome _ _).mpr hmapping
    exact ⟨⟨_, role, m, _, ⟨s.param k 0x17 1, by omega⟩, _⟩, hrole, hm, henable, hinvert, hoption, rfl, rfl, rfl, rfl⟩

/-! ### The take -/

theorem State.takeSetPoint_of_badPoint {s : State} {k : SlotId} (h : 40 ≤ s.param k 0x10 2) :
    s.takeSetPoint k = s.refuse k .badPoint := by
  unfold State.takeSetPoint
  exact dif_neg (by omega)

theorem State.takeSetPoint_of_point {s : State} {k : SlotId} {p : PointId} (hp : s.param k 0x10 2 = p.val) :
    s.takeSetPoint k = (s.pointRequest k).elim (s.finishPoint k p .refused (refusal .badParam)) (s.judgePoint k p) := by
  have hn : s.param k 0x10 2 < 40 := by omega
  obtain rfl : p = ⟨s.param k 0x10 2, hn⟩ := Fin.ext hp.symm
  unfold State.takeSetPoint
  dsimp only
  rw [dif_pos hn]
  cases s.pointRequest k with
  | none => rfl
  | some r => rfl

/-- The end of a SET_POINT over a store without errors: the echo of the profile as it stands (R164). -/
theorem State.finishPoint_of_clean {s : State} (h : s.ecc.registers = []) (k : SlotId) (p : PointId) (st : SlotState)
    (r : Reply) : s.finishPoint k p st r =
      s.finish k st { r with interval := s.banks[bankOf p].interval, data := s.profiles[p].echo s.regs[setOf p] } := by
  unfold State.finishPoint
  dsimp only
  rw [State.checkRegs_of_clean h]

theorem State.headroomReads_of_clean {s : State} (h : s.ecc.registers = []) (p : PointId) (v : Fin 4) :
    s.headroomReads p v = s := by
  have check : s.checkReg (setOf p) .scale = s := State.checkRegs_of_clean h (setOf p) [.scale]
  unfold State.headroomReads
  dsimp only
  rw [check, State.checkRegs_of_clean h, ite_self]

/-- The judgement of a SET_POINT over a store without errors (R162). -/
theorem State.judgePoint_of_clean {s : State} (h : s.ecc.registers = []) (k : SlotId) (p : PointId) (r : PointRequest) :
    s.judgePoint k p r = (s.mappingHolder p r.mapping).elim
      (if s.profiles[p].refusesRole p r.role = true then s.finishPoint k p .refused (refusal .role)
        else if s.regs[setOf p].refusesScale r.scale = true then s.finishPoint k p .refused (refusal .scale)
        else (s.writePoint p r).finishPoint k p .done okReply)
      fun i => s.finishPoint k p .refused { refusal .conflict with count := i.val } := by
  unfold State.judgePoint
  dsimp only
  rw [State.headroomReads_of_clean h]
  cases s.mappingHolder p r.mapping with
  | none => rfl
  | some i => rfl

/-- The end of a SET_POINT of the slot in hand. -/
theorem State.InHand.endedPoint {s v : State} {k : SlotId} {rest : List SlotId} (h : s.InHand v k rest)
    (hclean : v.ecc.registers = []) (p : PointId) (st : SlotState) (r : Reply) :
    s.Ended (v.finishPoint k p st r) k rest st { r with
      interval := v.banks[bankOf p].interval
      data := (v.finishPoint k p st r).profiles[p].echo (v.finishPoint k p st r).regs[setOf p] } ∧
    (v.finishPoint k p st r).profiles = v.profiles ∧ (v.finishPoint k p st r).regs = v.regs ∧
    (v.finishPoint k p st r).sorter = v.sorter := by
  rw [State.finishPoint_of_clean hclean, State.finish_profiles, State.finish_regs, State.finish_sorter]
  exact ⟨h.ended st (by simp [Profile.echo_length]), rfl, rfl, rfl⟩

/-! ### What a SET_POINT writes -/

/-- The state whose queue entries carry the change mark, where the mask or INVERT changes (R26). -/
def State.marked (s : State) (p : PointId) (r : PointRequest) : State :=
  if s.profiles[p].mask = r.mask ∧ s.profiles[p].invert = r.invert then s else s.markChange p

theorem State.writePoint_eq (s : State) (p : PointId) (r : PointRequest) : s.writePoint p r =
    (((s.marked p r).putProfile p (s.profiles[p].write r)).putRegs (setOf p)
      (((s.marked p r).putProfile p (s.profiles[p].write r)).regs[setOf p].stageScale r.scale)).regWritten (setOf p)
        (· == .staged) := rfl

theorem State.marked_touches (s : State) (p : PointId) (r : PointRequest) : s.Touches [.queue] (s.marked p r) :=
  .ite (.refl s _) (s.markChange_touches p)

theorem State.writePoint_profiles (s : State) (p : PointId) (r : PointRequest) :
    (s.writePoint p r).profiles = s.profiles.set p (s.profiles[p].write r) := by
  rw [State.writePoint_eq, State.regWritten_profiles, State.putRegs_profiles, ← (s.marked_touches p r).profiles (by decide)]
  rfl

theorem State.writePoint_regs (s : State) (p : PointId) (r : PointRequest) :
    (s.writePoint p r).regs = s.regs.set (setOf p) (s.regs[setOf p].stageScale r.scale) := by
  rw [State.writePoint_eq, State.regWritten_regs, State.putRegs_regs, State.putProfile_regs,
    (s.marked_touches p r).regs (by decide)]

theorem State.writePoint_sorter (s : State) (p : PointId) (r : PointRequest) : (s.writePoint p r).sorter = (s.marked p r).sorter := by
  rw [State.writePoint_eq, State.regWritten_sorter, State.putRegs_sorter, State.putProfile_sorter]

theorem State.writePoint_registerMarks {s : State} (h : s.ecc.registers = []) (p : PointId) (r : PointRequest) :
    (s.writePoint p r).ecc.registers = [] := by
  have marks : (s.marked p r).ecc.registers = [] := by
    rw [← h]
    exact (s.marked_touches p r).same (p := .registerMarks) (by decide)
  rw [State.writePoint_eq]
  exact List.filter_eq_nil_iff.mpr fun m hm => absurd (marks ▸ hm : m ∈ ([] : List (RegWord × EccMark))) List.not_mem_nil

/-- The mark stands on every buffer of the point in entries not handed (R26). -/
theorem State.markChange_marks (s : State) (p : PointId) : ∀ e ∈ (s.markChange p).sorter.queue, e.handed = false →
    ∀ x ∈ e.expected, x.point = p → x.changeMark = true := by
  intro e he hhanded x hx hpoint
  obtain ⟨e', -, rfl⟩ := List.mem_map.mp he
  split at hx
  next hh =>
    rw [if_pos hh] at hhanded
    exact absurd hh (by simp [hhanded])
  · obtain ⟨x', -, rfl⟩ := List.mem_map.mp hx
    split
    · rfl
    next hne =>
      rw [if_neg hne] at hpoint
      exact absurd hpoint hne

theorem State.SameArea.writePoint (s : State) (p : PointId) (r : PointRequest) (k : SlotId) : s.SameArea (s.writePoint p r) k :=
  .of_same ((s.writePoint_touches p r).mem (by decide)) ((s.writePoint_touches p r).same (p := .exchangeMarks) (by decide)) k

/-- Settles O50: the parameters, then the checks in order. -/
theorem setPointWritesProfile : Obligations.SetPointWritesProfile := by
  refine ⟨fun s k => ⟨s.pointRequest_isSome k, fun r hr => ?_⟩, fun s k rest hm hclean hh => ?_⟩
  · obtain ⟨hrole, hmapping, henable, hinvert, hoption, heq, hieq, hscale, hmask⟩ := (s.pointRequest_eq_some k r).mp hr
    obtain ⟨hnone, hsome⟩ := mappingOf_eq_some hmapping
    refine ⟨by rw [heq, beq_eq_decide], roleOfCode_eq_some.mp hrole, hnone, hsome, by rw [hieq, beq_eq_decide], hscale,
      fun j => ?_⟩
    rw [hmask, maskOf_getLsbD]
  · have hand := State.InHand.beginTake hm.1 k rest
    have area := State.SameArea.beginTake s k rest
    have h10 := area.param 0x10 2 (by decide) (by decide)
    have hclean' := (s.beginTake_registerMarks k rest).trans hclean
    have refused (p : PointId) (r : Reply) := hand.endedPoint hclean' p .refused r
    refine ⟨_, hh.exec rfl, fun hbad => ?_, fun p hp => ?_⟩
    · rw [State.takeSetPoint_of_badPoint (by omega)]
      exact ⟨hand.refused _, by simp [State.refuse_eq], by simp [State.refuse_eq]⟩
    · rw [State.takeSetPoint_of_point (h10.trans hp), area.pointRequest]
      cases hr : s.pointRequest k with
      | none =>
        obtain ⟨hended, hprofiles, hregs, -⟩ := refused p (refusal .badParam)
        exact ⟨.refused, refusal .badParam, by simpa using hended, rfl, rfl, by simpa using hprofiles, by simpa using hregs⟩
      | some r =>
        have holder : (s.beginTake k rest).mappingHolder p r.mapping = s.mappingHolder p r.mapping := by
          unfold State.mappingHolder
          rw [State.beginTake_profiles]
        dsimp only [Option.elim]
        rw [State.judgePoint_of_clean hclean', holder, State.beginTake_profiles, State.beginTake_regs]
        cases hi : s.mappingHolder p r.mapping with
        | some i =>
          obtain ⟨hended, hprofiles, hregs, -⟩ := refused p { refusal .conflict with count := i.val }
          exact ⟨.refused, _, by simpa using hended, rfl, rfl, by simpa using hprofiles, by simpa using hregs⟩
        | none =>
          dsimp only [Option.elim]
          by_cases hrole : s.profiles[p].refusesRole p r.role = true
          · obtain ⟨hended, hprofiles, hregs, -⟩ := refused p (refusal .role)
            simp only [if_pos hrole]
            exact ⟨.refused, _, by simpa using hended, rfl, rfl, by simpa using hprofiles, by simpa using hregs⟩
          · simp only [if_neg hrole]
            by_cases hscale : s.regs[setOf p].refusesScale r.scale = true
            · obtain ⟨hended, hprofiles, hregs, -⟩ := refused p (refusal .scale)
              simp only [if_pos hscale]
              exact ⟨.refused, _, by simpa using hended, rfl, rfl, by simpa using hprofiles, by simpa using hregs⟩
            · simp only [if_neg hscale]
              have written := (s.beginTake k rest).writePoint_touches p r
              have writtenHand := hand.step written (by decide) (.writePoint _ p r k)
              obtain ⟨hended, hprofiles, hregs, hsorter⟩ :=
                writtenHand.endedPoint (State.writePoint_registerMarks hclean' p r) p .done okReply
              rw [written.banks (by decide), State.beginTake_banks] at hended
              refine ⟨.done, okReply, hended, rfl, rfl, ?_, ?_, fun hchanged => ?_, fun hmask hinvert => ?_⟩
              · rw [hprofiles, State.writePoint_profiles, State.beginTake_profiles]
                rfl
              · rw [hregs, State.writePoint_regs, State.beginTake_regs]
                rfl
              · have ne : ¬(s.profiles[p].mask = r.mask ∧ s.profiles[p].invert = r.invert) := fun h =>
                  hchanged.elim (fun hne => hne h.1) fun hne => hne h.2
                rw [hsorter, State.writePoint_sorter, State.marked, State.beginTake_profiles, if_neg ne]
                exact State.markChange_marks _ p
              · rw [hsorter, State.writePoint_sorter, State.marked, State.beginTake_profiles, if_pos ⟨hmask, hinvert⟩,
                  State.beginTake_sorter]

end Sys2Proof.Machine
end

section
/-! SUPPORT. SET_TIMING and START: the settings written, the banks opened (R84, R166 to R168). -/

namespace Sys2Proof.Machine

/-! ### The parameters and the settings -/

theorem State.timingRequest_eq_some (s : State) (k : SlotId) (r : TimingRequest) : s.timingRequest k = some r ↔
    s.param k 0x10 4 ≤ 1 ∧ s.param k 0x14 4 ∈ [300, 1500, 3000, 4500, 9000, 18000] ∧
    1 ≤ s.param k 0x18 4 ∧ s.param k 0x18 4 ≤ s.param k 0x14 4 ∧ 50 ≤ s.param k 0x1C 4 ∧ s.param k 0x1C 4 ≤ 1000 ∧
    1 ≤ s.param k 0x20 4 ∧ s.param k 0x20 4 ≤ 32 ∧ s.param k 0x24 4 ≤ 2 ∧ s.optionWord k = 0 ∧
    r.timing = ⟨decide (s.param k 0x10 4 = 1), s.param k 0x14 4, s.param k 0x18 4⟩ ∧ r.timeout = s.param k 0x1C 4 ∧
    r.quota = s.param k 0x20 4 := by
  have parts : s.timingRequest k = some r ↔
      (s.param k 0x10 4 ≤ 1 ∧ s.param k 0x14 4 ∈ [300, 1500, 3000, 4500, 9000, 18000] ∧
        (1 ≤ s.param k 0x18 4 ∧ s.param k 0x18 4 ≤ s.param k 0x14 4) ∧
        (50 ≤ s.param k 0x1C 4 ∧ s.param k 0x1C 4 ≤ 1000) ∧ (1 ≤ s.param k 0x20 4 ∧ s.param k 0x20 4 ≤ 32) ∧
        s.param k 0x24 4 ≤ 2 ∧ s.optionWord k = 0) ∧
      r.timing = ⟨decide (s.param k 0x10 4 = 1), s.param k 0x14 4, s.param k 0x18 4⟩ ∧ r.timeout = s.param k 0x1C 4 ∧
      r.quota = s.param k 0x20 4 := by
    unfold State.timingRequest
    dsimp only
    rw [beq_eq_decide]
    split
    next h =>
      rw [Option.some.injEq, and_iff_right h]
      refine ⟨fun hr => hr ▸ ⟨rfl, rfl, rfl⟩, fun ⟨h1, h2, h3⟩ => ?_⟩
      cases r
      exact TimingRequest.mk.injEq .. ▸ ⟨h1.symm, h2.symm, h3.symm⟩
    next h => exact ⟨fun hr => (nomatch hr), fun hr => absurd hr.1 h⟩
  rw [parts]
  simp only [and_assoc]

theorem State.finish_timingEcho (s : State) (k : SlotId) (st : SlotState) (r : Reply) :
    (s.finish k st r).timingEcho = s.timingEcho := by
  unfold State.timingEcho
  rw [State.finish_timing, State.finish_sorter, State.finish_requests, State.finish_banks]

theorem State.doneTiming_eq (s : State) (k : SlotId) (n : Nat) :
    s.doneTiming k n = s.finish k .done { okReply with count := n, data := s.timingEcho } := rfl

theorem State.InHand.writeTiming {s v : State} {k : SlotId} {rest : List SlotId} (h : s.InHand v k rest) (r : TimingRequest) :
    s.InHand (v.writeTiming r) k rest :=
  h.step (v.writeTiming_touches r) (by decide) (.of_same rfl rfl k)

/-- The end of a SET_TIMING, with the settings that it echoes (R167). -/
theorem State.InHand.endedTiming {s v : State} {k : SlotId} {rest : List SlotId} (h : s.InHand v k rest) (n : Nat) :
    s.Ended (v.doneTiming k n) k rest .done { okReply with count := n, data := (v.doneTiming k n).timingEcho } ∧
    (v.doneTiming k n).timing = v.timing ∧ (v.doneTiming k n).sorter = v.sorter ∧
    (v.doneTiming k n).requests.quotaLimit = v.requests.quotaLimit ∧ (v.doneTiming k n).banks = v.banks ∧
    (v.doneTiming k n).accounting = v.accounting ∧ (v.doneTiming k n).profiles = v.profiles := by
  rw [State.doneTiming_eq, State.finish_timingEcho, State.finish_timing, State.finish_sorter, State.finish_requests,
    State.finish_banks, State.finish_accounting, State.finish_profiles]
  exact ⟨h.ended .done (by simp [State.timingEcho_length]), rfl, rfl, rfl, rfl, rfl, rfl⟩

/-! ### Banks opened -/

/-- From `x` to `y` a bank was opened by a START: numbered on, timed anew, on a set zeroed in every field (R84). -/
def Bank.OpenedTo (x y : Bank) (timing : Timing) (marks : Fin 5 → Bool × BitVec 49 × Bool) : Prop :=
  y = { x with
    phase := .opened x.startSet, interval := nextInterval x.interval, previous := none, timing := timing, sets := y.sets } ∧
  y.sets[x.startSet].ZeroedAs x.sets[x.startSet] (nextInterval x.interval) marks ∧
  y.sets[otherSet x.startSet] = x.sets[otherSet x.startSet]

/-- From `u` to `t` bank `b` was opened by a START, with its staged profile fields applied (R84). -/
def State.BankOpened (u t : State) (b : BankId) : Prop :=
  u.banks[b].OpenedTo t.banks[b] u.timing (u.openMarks b) ∧
  ∀ e : Fin 5, t.profiles[pointAt b e] = u.profiles[pointAt b e].applyStaged

/-- The bank, its profiles and the timing setting are the same: all that an opening of the bank reads and writes. -/
def State.SameAt (s t : State) (b : BankId) : Prop :=
  t.banks[b] = s.banks[b] ∧ (∀ e : Fin 5, t.profiles[pointAt b e] = s.profiles[pointAt b e]) ∧ t.timing = s.timing

theorem State.BankOpened.of_same {s u t t' : State} {b : BankId} (h : u.BankOpened t b) (hu : s.SameAt u b)
    (ht : t.SameAt t' b) : s.BankOpened t' b := by
  obtain ⟨hbank, hprofiles⟩ := h
  obtain ⟨hubanks, huprofiles, hutiming⟩ := hu
  obtain ⟨htbanks, htprofiles, -⟩ := ht
  have marks : u.openMarks b = s.openMarks b := by
    unfold State.openMarks
    simp only [huprofiles]
  rw [hubanks, hutiming, marks] at hbank
  refine ⟨htbanks ▸ hbank, fun e => ?_⟩
  rw [htprofiles, hprofiles, huprofiles]

theorem State.openBank_profiles (s : State) (b : BankId) : (s.openBank b).profiles = (s.applyStaged b).profiles := by
  unfold State.openBank
  dsimp only
  split
  · split
    · rfl
    · rfl
  · rfl

theorem State.openedBank_openedTo (u : State) (b : BankId) {marks : Fin 5 → Bool × BitVec 49 × Bool}
    (h : ∀ old : AccSet, (u.openedSet b (nextInterval u.banks[b].interval) old.balance.isSome).ZeroedAs old
      (nextInterval u.banks[b].interval) marks) : u.banks[b].OpenedTo (u.openedBank b) u.timing marks := by
  refine ⟨rfl, ?_, ?_⟩
  · unfold State.openedBank
    dsimp only
    rw [getElem_fin_set_self]
    exact h _
  · exact getElem_fin_set_of_ne _ _ (otherSet_ne _)

theorem State.openBank_opened (s : State) (b : BankId) : s.BankOpened (s.openBank b) b := by
  have applied : (s.applyStaged b).banks = s.banks := (s.applyStaged_touches b).banks (by decide)
  have timing : (s.applyStaged b).timing = s.timing := (s.applyStaged_touches b).timing (by decide)
  have opened := (s.applyStaged b).openedBank_openedTo b fun old => s.openedSet_zeroedAs b _ old
  rw [applied, timing] at opened
  unfold State.BankOpened
  rw [State.openBank_banks, getElem_fin_set_self, State.openBank_profiles]
  exact ⟨opened, (s.applyStaged_profiles b).1⟩

theorem State.openBank_sameAt (s : State) {b c : BankId} (h : c ≠ b) : s.SameAt (s.openBank b) c := by
  refine ⟨?_, fun e => ?_, (s.openBank_touches b).timing (by decide)⟩
  · rw [State.openBank_banks, getElem_fin_set_of_ne _ _ h]
  · rw [State.openBank_profiles]
    exact (s.applyStaged_profiles b).2 _ fun j hj => h (pointAt_inj.mp hj).1

theorem State.SameAt.trans {s t u : State} {b : BankId} (h : s.SameAt t b) (h' : t.SameAt u b) : s.SameAt u b := by
  obtain ⟨h1, h2, h3⟩ := h
  obtain ⟨h1', h2', h3'⟩ := h'
  exact ⟨h1'.trans h1, fun e => (h2' e).trans (h2 e), h3'.trans h3⟩

/-- A bank is opened once by a START that names it once, and left by one that does not name it. -/
theorem State.openBanks_spec (bs : List BankId) (h : bs.Nodup) (s : State) :
    (∀ b ∈ bs, s.BankOpened (bs.foldl State.openBank s) b) ∧ ∀ b ∉ bs, s.SameAt (bs.foldl State.openBank s) b := by
  induction bs generalizing s with
  | nil => exact ⟨fun b hb => absurd hb List.not_mem_nil, fun b _ => ⟨rfl, fun _ => rfl, rfl⟩⟩
  | cons c bs ih =>
    rw [List.nodup_cons] at h
    obtain ⟨hin, hout⟩ := ih h.2 (s.openBank c)
    rw [List.foldl_cons]
    refine ⟨fun b hb => ?_, fun b hb => ?_⟩
    · rcases List.mem_cons.mp hb with rfl | hb
      · exact (s.openBank_opened b).of_same ⟨rfl, fun _ => rfl, rfl⟩ (hout b h.1)
      · have ne : b ≠ c := fun heq => h.1 (heq ▸ hb)
        exact (hin b hb).of_same (s.openBank_sameAt ne) ⟨rfl, fun _ => rfl, rfl⟩
    · rw [List.mem_cons, not_or] at hb
      exact (s.openBank_sameAt hb.1).trans (hout b hb.2)

/-- The window in accounting is set aside at a bank opened once it is calculated (R84). -/
theorem State.openBank_accounting (s : State) (b : BankId) : (s.openBank b).accounting = s.accounting.map fun a =>
    if a.calculation.isSome = true then { a with setAside := a.setAside.set b true } else a := by
  have applied : (s.applyStaged b).accounting = s.accounting := (s.applyStaged_touches b).accounting (by decide)
  rw [← applied]
  unfold State.openBank
  dsimp only
  split
  next a ha =>
    have ha : (s.applyStaged b).accounting = some a := ha
    rw [ha, Option.map_some]
    split
    · rfl
    · exact ha
  next ha =>
    have ha : (s.applyStaged b).accounting = none := ha
    rw [ha]
    exact ha

theorem State.SameArea.openBank (s : State) (b : BankId) (k : SlotId) : s.SameArea (s.openBank b) k := by
  have staged : s.SameArea (s.applyStaged b) k :=
    .of_same ((s.applyStaged_touches b).mem (by decide)) ((s.applyStaged_touches b).same (p := .exchangeMarks) (by decide)) k
  have put : s.SameArea ((s.applyStaged b).putBank b ((s.applyStaged b).openedBank b)) k := .trans staged (.putBank _ b _ k)
  refine .trans put ?_
  unfold State.openBank
  dsimp only
  split
  · split
    · exact .of_same rfl rfl k
    · exact .of_same rfl rfl k
  · exact .of_same rfl rfl k

theorem State.SameArea.foldl {α : Type} {f : State → α → State} {k : SlotId} (h : ∀ (s : State) (x : α), s.SameArea (f s x) k)
    (xs : List α) (s : State) : s.SameArea (xs.foldl f s) k := by
  induction xs generalizing s with
  | nil => exact .refl s k
  | cons x xs ih => exact .trans (h s x) (ih _)

theorem State.openBanks_accounting (bs : List BankId) (s : State) :
    (s.accounting = none → (bs.foldl State.openBank s).accounting = none) ∧
    ∀ a, s.accounting = some a → ∃ aside : Vector Bool 8,
      (bs.foldl State.openBank s).accounting = some { a with setAside := aside } ∧
      ∀ b : BankId, aside[b] = if b ∈ bs ∧ a.calculation ≠ none then true else a.setAside[b] := by
  induction bs generalizing s with
  | nil => exact ⟨id, fun a ha => ⟨a.setAside, ha, fun b => by simp⟩⟩
  | cons c bs ih =>
    obtain ⟨hnone, hsome⟩ := ih (s.openBank c)
    have first := s.openBank_accounting c
    rw [List.foldl_cons]
    refine ⟨fun h => hnone (by rw [first, h]; rfl), fun a ha => ?_⟩
    rw [ha] at first
    by_cases hc : a.calculation.isSome = true
    · rw [Option.map_some, if_pos hc] at first
      obtain ⟨aside, haccounting, haside⟩ := hsome _ first
      refine ⟨aside, haccounting, fun b => ?_⟩
      have calculated : a.calculation ≠ none := Option.isSome_iff_ne_none.mp hc
      rw [haside, getElem_fin_set]
      simp only [calculated, ne_eq, not_false_eq_true, and_true, List.mem_cons]
      by_cases hb : b ∈ bs
      · rw [if_pos hb, if_pos (Or.inr hb)]
      · rw [if_neg hb]
        refine if_congr ?_ rfl rfl
        simp [hb, eq_comm]
    · rw [Option.map_some, if_neg hc] at first
      obtain ⟨aside, haccounting, haside⟩ := hsome _ first
      refine ⟨aside, haccounting, fun b => ?_⟩
      have uncalculated : a.calculation = none := by simpa using hc
      rw [haside, if_neg (by simp [uncalculated]), if_neg (by simp [uncalculated])]

theorem Bank.startSet_iff (x : Bank) (i : Fin 2) :
    x.startSet = i ↔ x.previous = some (otherSet i) ∨ x.previous = none ∧ i = 0 := by
  unfold Bank.startSet
  cases x.previous with
  | none => simp [eq_comm]
  | some p =>
    simp only [Option.some.injEq, reduceCtorEq, false_and, or_false]
    revert p i
    decide

theorem State.mem_stoppedBanks_iff (s : State) (b : BankId) : b ∈ s.stoppedBanks ↔ s.banks[b].phase = .stopped := by
  unfold State.stoppedBanks
  simp

/-- Settles O51: the parameters, SET_TIMING, START. -/
theorem setTimingAndStart : Obligations.SetTimingAndStart := by
  refine ⟨State.timingRequest_eq_some, fun s k rest hm => ⟨fun hh => ?_, fun hh => ?_⟩⟩
  · have hand := State.InHand.beginTake hm.1 k rest
    have area := State.SameArea.beginTake s k rest
    refine ⟨_, hh.exec rfl, ?_⟩
    unfold State.takeSetTiming
    rw [area.timingRequest]
    cases s.timingRequest k with
    | none => exact ⟨by simp [State.refuse_eq], hand.refused _, by simp [State.refuse_eq]⟩
    | some r =>
      obtain ⟨hended, htiming, hsorter, hlimit, hbanks, -⟩ := (hand.writeTiming r).endedTiming 0
      refine ⟨hbanks.trans (s.beginTake_banks k rest), htiming, ?_, hlimit, hended⟩
      exact congrArg Sorter.timeout hsorter
  · have hand := State.InHand.beginTake hm.1 k rest
    have area := State.SameArea.beginTake s k rest
    have stopped : (s.beginTake k rest).stoppedBanks = s.stoppedBanks := by
      unfold State.stoppedBanks
      rw [State.beginTake_banks]
    refine ⟨_, hh.exec rfl, ?_⟩
    unfold State.takeStart
    rw [area.timingRequest, stopped]
    cases s.timingRequest k with
    | none => exact ⟨hand.refused _, by simp [State.refuse_eq], by simp [State.refuse_eq]⟩
    | some r =>
      dsimp only
      by_cases hall : ∀ b : BankId, s.banks[b].phase ≠ .stopped
      · have empty : s.stoppedBanks.isEmpty = true := by
          rw [List.isEmpty_iff, List.eq_nil_iff_forall_not_mem]
          exact fun b hb => hall b ((s.mem_stoppedBanks_iff b).mp hb)
        rw [if_pos hall, if_pos empty]
        exact ⟨hand.refused _, by simp [State.refuse_eq], by simp [State.refuse_eq]⟩
      · have nonempty : ¬s.stoppedBanks.isEmpty = true := by
          rw [List.isEmpty_iff, List.eq_nil_iff_forall_not_mem]
          exact fun hempty => hall fun b hb => hempty b ((s.mem_stoppedBanks_iff b).mpr hb)
        rw [if_neg hall, if_neg nonempty]
        let v := (s.beginTake k rest).writeTiming r
        have touches := State.Touches.foldl State.openBank_touches s.stoppedBanks v
        have opened : s.InHand (s.stoppedBanks.foldl State.openBank v) k rest :=
          (hand.writeTiming r).step touches (by decide) (.foldl (fun u b => .openBank u b k) _ v)
        obtain ⟨hended, htiming, hsorter, hlimit, hbanks, haccounting, hprofiles⟩ :=
          opened.endedTiming s.stoppedBanks.length
        obtain ⟨hin, hout⟩ := State.openBanks_spec s.stoppedBanks ((List.nodup_finRange 8).filter _) v
        obtain ⟨hnone, hsome⟩ := State.openBanks_accounting s.stoppedBanks v
        have vbanks : v.banks = s.banks := s.beginTake_banks k rest
        have vprofiles : v.profiles = s.profiles := s.beginTake_profiles k rest
        have vaccounting : v.accounting = s.accounting := s.beginTake_accounting k rest
        rw [vaccounting] at hnone hsome
        rw [haccounting]
        refine ⟨?_, ?_, ?_, hended, hnone, fun a ha => ?_, fun b => ?_⟩
        · rw [htiming, touches.timing (by decide)]
          rfl
        · rw [hsorter, touches.sorter (by decide)]
          rfl
        · rw [hlimit, touches.same (p := .quotaLimit) (by decide)]
          rfl
        · obtain ⟨aside, hset, haside⟩ := hsome a ha
          refine ⟨aside, hset, fun b => ?_⟩
          refine (haside b).trans (if_congr ?_ rfl rfl)
          rw [State.mem_stoppedBanks_iff]
        · rw [hbanks, hprofiles]
          split
          next hb =>
            obtain ⟨hbank, hstaged⟩ := hin b ((s.mem_stoppedBanks_iff b).mpr hb)
            have marks : v.openMarks b = s.openMarks b := by
              unfold State.openMarks
              rw [vprofiles]
            rw [vbanks, marks] at hbank
            rw [vprofiles] at hstaged
            obtain ⟨hfields, hzero, hother⟩ := hbank
            exact ⟨hfields, hzero, hother, s.banks[b].startSet_iff, hstaged⟩
          next hb =>
            obtain ⟨hbank, -, -⟩ := hout b fun h => hb ((s.mem_stoppedBanks_iff b).mp h)
            rw [hbank, vbanks]

end Sys2Proof.Machine
end

section
/-! SUPPORT. STOP and CLOSE: the closes asked of several banks, the pending entry, the estimate (R152, R153, R169, R170). -/

namespace Sys2Proof.Machine

/-! ### Asks of several banks with one waiter -/

/-- A bank and its fold after an ask with one waiter, no warm reset in progress: a close start, or the held close alone (R77,
R78, R81). -/
def Bank.AskedOf (x : Bank) (f : Option Fold) (cause : Causes) (w : SlotId × WaitCause) (y : Bank) (g : Option Fold) : Prop :=
  if (x.ask cause [w]).mayStart = true then
    ∃ (a : Fin 2) (z : Fold), x.phase = .opened a ∧ g = some z ∧ z.causes = x.heldCauses.union cause ∧ z.interval = x.interval ∧
      y.held = none ∧ y.phase = if z.causes.stop = true then .stopping a else .turning (otherSet a)
  else y = x.ask cause [w] ∧ g = f

theorem Bank.ask_phase (x : Bank) (cause : Causes) (w : List (SlotId × WaitCause)) : (x.ask cause w).phase = x.phase := by
  rw [Bank.ask_eq]

theorem Bank.ask_of_not_takesClose {x : Bank} (h : x.takesClose = false) (cause : Causes) (w : List (SlotId × WaitCause)) :
    x.ask cause w = x := by
  unfold Bank.ask
  rw [h]
  rfl

theorem Bank.takesClose_of_opened {x : Bank} {a : Fin 2} (h : x.phase = .opened a) : x.takesClose = true := by
  unfold Bank.takesClose
  rw [h]
  rfl

/-- The slot that waits is among the waiters of the held close (R77). -/
theorem Bank.ask_waiters {x : Bank} (hx : x.takesClose = true) {cause : Causes} {w : SlotId × WaitCause} {c : HeldClose}
    (h : (x.ask cause [w]).held = some c) : w ∈ c.waiters := by
  rw [Bank.ask_eq, if_pos hx] at h
  cases h
  exact List.mem_append_right _ List.mem_cons_self

/-- The ask that starts a close is a close start of the bank with the ask made. -/
theorem State.askClose_of_mayStart {s : State} (hw : s.control.warm = false) {b : BankId} {cause : Causes}
    {w : SlotId × WaitCause} (h : (s.banks[b].ask cause [w]).mayStart = true) : ∃ (a : Fin 2) (c : HeldClose),
      s.banks[b].phase = .opened a ∧ (s.banks[b].ask cause [w]).held = some c ∧
      s.askClose b cause [w] = (s.putBank b (s.banks[b].ask cause [w])).closeStart b a c := by
  have own : (s.putBank b (s.banks[b].ask cause [w])).banks[b] = s.banks[b].ask cause [w] := getElem_fin_set_self _ _ _
  obtain ⟨a, c, hphase, hheld, hstart, -⟩ :=
    State.heldTest_at (s := s.putBank b (s.banks[b].ask cause [w])) (b := b) (by rw [own]; exact h) hw
  rw [own] at hphase hheld
  exact ⟨a, c, (Bank.ask_phase _ _ _).symm.trans hphase, hheld, hstart⟩

theorem State.askClose_of_not_mayStart {s : State} {b : BankId} {cause : Causes} {w : SlotId × WaitCause}
    (h : ¬(s.banks[b].ask cause [w]).mayStart = true) :
    s.askClose b cause [w] = s.putBank b (s.banks[b].ask cause [w]) := by
  have own : (s.putBank b (s.banks[b].ask cause [w])).banks[b] = s.banks[b].ask cause [w] := getElem_fin_set_self _ _ _
  exact State.heldTest_of_idle fun hand => h (own ▸ hand.1)

theorem State.askClose_askedOf {s : State} (hw : s.control.warm = false) (b : BankId) (cause : Causes)
    (w : SlotId × WaitCause) : s.banks[b].AskedOf s.folds[b] cause w (s.askClose b cause [w]).banks[b]
      (s.askClose b cause [w]).folds[b] := by
  have own : (s.putBank b (s.banks[b].ask cause [w])).banks[b] = s.banks[b].ask cause [w] := getElem_fin_set_self _ _ _
  unfold Bank.AskedOf
  split
  next h =>
    obtain ⟨a, c, hphase, hheld, hstart⟩ := State.askClose_of_mayStart hw h
    rw [hstart, State.closeStart_folds, State.closeStart_banks, getElem_fin_set_self, getElem_fin_set_self]
    refine ⟨a, _, hphase, rfl, Bank.ask_causes (Bank.takesClose_of_opened hphase) hheld, ?_, rfl, rfl⟩
    unfold State.begunFold
    dsimp only
    rw [own, Bank.ask_interval]
  next h =>
    rw [State.askClose_of_not_mayStart h]
    exact ⟨own, rfl⟩

theorem State.askClose_control (s : State) (b : BankId) (cause : Causes) (w : List (SlotId × WaitCause)) :
    (s.askClose b cause w).control = s.control := (s.askClose_closeEffect b cause w).touches.control (by decide)

/-- The progress of a part of a pending entry after the asks of some banks: FOLDING where a close started (R154). -/
def State.askedProgress (s : State) (bs : List BankId) (cause : Causes) (w : SlotId × WaitCause) (o : BankId × Progress) :
    BankId × Progress :=
  if o.1 ∈ bs ∧ (s.banks[o.1].ask cause [w]).mayStart = true then (o.1, .folding s.banks[o.1].interval) else o

/-- The entry of the waiting slot after one ask. -/
theorem State.askClose_entry {s : State} (hw : s.control.warm = false) (b : BankId) (cause : Causes) {w : SlotId × WaitCause}
    {kind : BankWork} {out : List (BankId × Progress)} {closed : List (BankId × Word)}
    (h : ⟨w.1, .banks kind out closed⟩ ∈ s.requests.table) :
    ⟨w.1, .banks kind (out.map (s.askedProgress [b] cause w)) closed⟩ ∈ (s.askClose b cause [w]).requests.table := by
  have own : (s.putBank b (s.banks[b].ask cause [w])).banks[b] = s.banks[b].ask cause [w] := getElem_fin_set_self _ _ _
  by_cases hm : (s.banks[b].ask cause [w]).mayStart = true
  · obtain ⟨a, c, hphase, hheld, hstart⟩ := State.askClose_of_mayStart hw hm
    have waits := Bank.ask_waiters (Bank.takesClose_of_opened hphase) hheld
    have progress : out.map (s.askedProgress [b] cause w) =
        out.map fun o => if o.1 = b then (b, .folding s.banks[b].interval) else o := by
      refine List.map_congr_left fun o _ => ?_
      unfold State.askedProgress
      by_cases ho : o.1 = b
      · subst ho
        rw [if_pos ⟨List.mem_cons_self, hm⟩, if_pos rfl]
      · rw [if_neg (fun hand => ho (List.mem_singleton.mp hand.1)), if_neg ho]
    rw [hstart, State.closeStart_table, own, Bank.ask_interval, progress]
    refine List.mem_map.mpr ⟨_, h, ?_⟩
    rw [PendingEntry.started_eq, if_pos (List.mem_map_of_mem waits)]
    rfl
  · have progress : out.map (s.askedProgress [b] cause w) = out := by
      conv_rhs => rw [← List.map_id out]
      refine List.map_congr_left fun o _ => ?_
      unfold State.askedProgress
      refine if_neg fun hand => hm ?_
      rw [← List.mem_singleton.mp hand.1]
      exact hand.2
    rw [State.askClose_of_not_mayStart hm, progress]
    exact h

/-- Closes asked of several banks, each once: what becomes of each bank, its fold, and the entry of the slot that waits. -/
theorem State.askBanks_spec {bs : List BankId} (hnodup : bs.Nodup) {s : State} (hw : s.control.warm = false) (cause : Causes)
    (w : SlotId × WaitCause) :
    (∀ b ∈ bs, s.banks[b].AskedOf s.folds[b] cause w (s.askBanks bs cause w).banks[b] (s.askBanks bs cause w).folds[b]) ∧
    (∀ b ∉ bs, (s.askBanks bs cause w).banks[b] = s.banks[b] ∧ (s.askBanks bs cause w).folds[b] = s.folds[b]) ∧
    ∀ kind out closed, ⟨w.1, .banks kind out closed⟩ ∈ s.requests.table →
      ⟨w.1, .banks kind (out.map (s.askedProgress bs cause w)) closed⟩ ∈ (s.askBanks bs cause w).requests.table := by
  induction bs generalizing s with
  | nil =>
    refine ⟨fun b hb => absurd hb List.not_mem_nil, fun _ _ => ⟨rfl, rfl⟩, fun kind out closed h => ?_⟩
    have progress : s.askedProgress [] cause w = id := funext fun o => if_neg fun hand => absurd hand.1 List.not_mem_nil
    rw [progress, List.map_id]
    exact h
  | cons b bs ih =>
    rw [List.nodup_cons] at hnodup
    obtain ⟨hin, hout, htable⟩ := ih hnodup.2 (s := s.askClose b cause [w]) (by rw [State.askClose_control, hw])
    have step : s.askBanks (b :: bs) cause w = (s.askClose b cause [w]).askBanks bs cause w := rfl
    rw [step]
    refine ⟨fun c hc => ?_, fun c hc => ?_, fun kind out closed h => ?_⟩
    · rcases List.mem_cons.mp hc with rfl | hc
      · obtain ⟨hbank, hfold⟩ := hout c hnodup.1
        rw [hbank, hfold]
        exact State.askClose_askedOf hw c cause w
      · obtain ⟨hbank, hfold⟩ := s.askClose_other (b := b) (b' := c) (fun heq => hnodup.1 (heq ▸ hc)) cause [w]
        have asked := hin c hc
        rwa [hbank, hfold] at asked
    · rw [List.mem_cons, not_or] at hc
      obtain ⟨hbank, hfold⟩ := s.askClose_other hc.1 cause [w]
      obtain ⟨hbank', hfold'⟩ := hout c hc.2
      exact ⟨hbank'.trans hbank, hfold'.trans hfold⟩
    · have entry := htable kind _ closed (State.askClose_entry hw b cause h)
      rw [List.map_map] at entry
      have progress : out.map ((s.askClose b cause [w]).askedProgress bs cause w ∘ s.askedProgress [b] cause w) =
          out.map (s.askedProgress (b :: bs) cause w) := by
        refine List.map_congr_left fun o _ => ?_
        by_cases ho : o.1 = b
        · have first : (s.askedProgress [b] cause w o).1 = b := by
            unfold State.askedProgress
            split
            · exact ho
            · exact ho
          have rest : (s.askClose b cause [w]).askedProgress bs cause w (s.askedProgress [b] cause w o) =
              s.askedProgress [b] cause w o := if_neg fun hand => hnodup.1 (first ▸ hand.1)
          rw [Function.comp_apply, rest]
          unfold State.askedProgress
          simp only [ho, List.mem_cons, true_or, true_and, List.not_mem_nil, or_false]
        · have first : s.askedProgress [b] cause w o = o := if_neg fun hand => ho (List.mem_singleton.mp hand.1)
          rw [Function.comp_apply, first]
          unfold State.askedProgress
          rw [(s.askClose_other ho cause [w]).1]
          simp only [List.mem_cons, ho, false_or]
      rwa [progress] at entry

/-! ### Estimates -/

theorem foldl_max_spec (xs : List Nat) (n : Nat) : n ≤ xs.foldl max n ∧ (∀ x ∈ xs, x ≤ xs.foldl max n) ∧
    (xs.foldl max n = n ∨ xs.foldl max n ∈ xs) := by
  induction xs generalizing n with
  | nil => exact ⟨Nat.le_refl _, fun x hx => absurd hx List.not_mem_nil, Or.inl rfl⟩
  | cons x xs ih =>
    obtain ⟨hle, hall, hsome⟩ := ih (max n x)
    rw [List.foldl_cons]
    refine ⟨(Nat.le_max_left n x).trans hle, fun y hy => ?_, ?_⟩
    · rcases List.mem_cons.mp hy with rfl | hy
      · exact (Nat.le_max_right n y).trans hle
      · exact hall y hy
    · rcases hsome with heq | hmem
      · rw [heq]
        rcases Nat.le_total n x with h | h
        · rw [Nat.max_eq_right h]
          exact Or.inr List.mem_cons_self
        · rw [Nat.max_eq_left h]
          exact Or.inl rfl
      · exact Or.inr (List.mem_cons_of_mem x hmem)

/-- The greatest of a list with an element is one of its elements. -/
theorem foldl_max_mem {xs : List Nat} (h : xs ≠ []) : xs.foldl max 0 ∈ xs := by
  obtain ⟨-, hall, heq | hmem⟩ := foldl_max_spec xs 0
  · obtain ⟨x, hx⟩ := List.exists_mem_of_ne_nil xs h
    have := hall x hx
    rw [heq] at this ⊢
    rwa [← Nat.le_zero.mp this]
  · exact hmem

theorem Bank.closeEstimate_eq (x : Bank) : x.closeEstimate =
    if x.heldCauses.count = true ∨ x.heldCauses.overlong = true ∨ x.heldCauses.stop = true then 0
    else x.timing.dwell - x.span := by
  unfold Bank.closeEstimate Causes.dwellFree
  simp only [Bool.or_eq_true, or_assoc]

end Sys2Proof.Machine
end

section
/-! SUPPORT. The takes of STOP and CLOSE. -/

namespace Sys2Proof.Machine

theorem State.Head.not_warm {s : State} {k : SlotId} {rest : List SlotId} {row : Row} (h : s.Head k rest row) :
    s.control.warm = false := by
  obtain ⟨-, -, hmay, -⟩ := h
  unfold State.mayTake at hmay
  simpa using (Bool.and_eq_true_iff.mp hmay).2

section
variable (s : State) (k : SlotId) (w : Work) (n : Nat)

@[simp] theorem State.defer_banks : (s.defer k w n).banks = s.banks := by rw [s.defer_replied k w n]
@[simp] theorem State.defer_folds : (s.defer k w n).folds = s.folds := by rw [s.defer_replied k w n]
@[simp] theorem State.defer_control : (s.defer k w n).control = s.control := by rw [s.defer_replied k w n]
@[simp] theorem State.defer_timing : (s.defer k w n).timing = s.timing := by rw [s.defer_replied k w n]
@[simp] theorem State.defer_sorter : (s.defer k w n).sorter = s.sorter := by rw [s.defer_replied k w n]

theorem State.mem_defer_table : ⟨k, w⟩ ∈ (s.defer k w n).requests.table := by
  rw [State.defer_requests]
  exact List.mem_append_right _ List.mem_cons_self

end

/-- A deferred request of banks and the closes that it asks, from the slot in hand. -/
theorem State.InHand.deferredCloses {s v : State} {k : SlotId} {rest : List SlotId} (h : s.InHand v k rest)
    (hw : v.control.warm = false) (kind : BankWork) (out : List (BankId × Progress)) (estimate : Nat) {bs : List BankId}
    (hnodup : bs.Nodup) (cause : Causes) (why : WaitCause) {t : State}
    (ht : t = (v.defer k (.banks kind out []) estimate).askBanks bs cause (k, why)) :
    s.Taken t k rest .taken (deferredReply estimate) ∧ t.timing = v.timing ∧ t.sorter = v.sorter ∧
    t.requests.quotaLimit = v.requests.quotaLimit ∧
    (∀ b ∈ bs, v.banks[b].AskedOf v.folds[b] cause (k, why) t.banks[b] t.folds[b]) ∧
    (∀ b ∉ bs, t.banks[b] = v.banks[b] ∧ t.folds[b] = v.folds[b]) ∧
    ⟨k, .banks kind (out.map (v.askedProgress bs cause (k, why))) []⟩ ∈ t.requests.table := by
  subst ht
  have taken := h.deferred (.banks kind out []) estimate
  have touches := (v.defer k (.banks kind out []) estimate).askBanks_touches bs cause (k, why)
  obtain ⟨hin, hout, htable⟩ := State.askBanks_spec hnodup (s := v.defer k (.banks kind out []) estimate)
    (by rw [State.defer_control, hw]) cause (k, why)
  have progress : (v.defer k (.banks kind out []) estimate).askedProgress bs cause (k, why) =
      v.askedProgress bs cause (k, why) := by
    unfold State.askedProgress
    rw [State.defer_banks]
  rw [State.defer_banks, State.defer_folds] at hin hout
  refine ⟨taken.step touches (by decide), ?_, ?_, ?_, hin, hout, ?_⟩
  · rw [touches.timing (by decide), State.defer_timing]
  · rw [touches.sorter (by decide), State.defer_sorter]
  · rw [touches.same (p := .quotaLimit) (by decide), State.defer_requests]
  · rw [← progress]
    exact htable kind out [] (State.mem_defer_table v k _ estimate)

/-! ### STOP -/

theorem State.stopSet_keys (s : State) :
    s.stopSet.map Prod.fst = (List.finRange 8).filter fun b => s.banks[b].phase != .stopped := by
  unfold State.stopSet
  rw [List.map_map]
  exact List.map_id _

theorem State.mem_stopSet_keys (s : State) (b : BankId) : b ∈ s.stopSet.map Prod.fst ↔ s.banks[b].phase ≠ .stopped := by
  rw [State.stopSet_keys]
  simp

theorem State.stopSet_nodup (s : State) : (s.stopSet.map Prod.fst).Nodup := by
  rw [State.stopSet_keys]
  exact (List.nodup_finRange 8).filter _

/-- The keys of the parts of a pending entry stay as they are. -/
theorem State.askedProgress_fst (s : State) (bs : List BankId) (cause : Causes) (w : SlotId × WaitCause)
    (o : BankId × Progress) : (s.askedProgress bs cause w o).1 = o.1 := by
  unfold State.askedProgress
  split
  · rfl
  · rfl

theorem State.map_askedProgress_fst (s : State) (bs : List BankId) (cause : Causes) (w : SlotId × WaitCause)
    (out : List (BankId × Progress)) : (out.map (s.askedProgress bs cause w)).map Prod.fst = out.map Prod.fst := by
  rw [List.map_map]
  exact List.map_congr_left fun o _ => s.askedProgress_fst bs cause w o

/-- A bank that is asked to stop: closed at once when OPEN, held when TURNING, left alone otherwise (R77, R78, R169). -/
theorem Bank.AskedOf.stop {x y : Bank} {f g : Option Fold} {k : SlotId} (h : x.AskedOf f Causes.onlyStop (k, .stop) y g) :
    (∀ a, x.phase = .opened a → y.phase = .stopping a ∧ ∃ z, g = some z ∧ z.causes.stop = true ∧ z.interval = x.interval) ∧
    (∀ a, x.phase = .turning a → ∃ c, y.held = some c ∧ c.causes.stop = true ∧ (k, .stop) ∈ c.waiters) ∧
    (x.phase.accumulating = none → y = x) := by
  have heldAsk (hx : x.takesClose = true) : (x.ask Causes.onlyStop [(k, .stop)]).held =
      some ⟨x.heldCauses.union Causes.onlyStop, (x.held.map HeldClose.waiters).getD [] ++ [(k, .stop)]⟩ := by
    rw [Bank.ask_eq, if_pos hx]
  have stops : (x.heldCauses.union Causes.onlyStop).stop = true := Bool.or_true _
  unfold Bank.AskedOf at h
  refine ⟨fun a ha => ?_, fun a ha => ?_, fun hidle => ?_⟩
  · have may : (x.ask Causes.onlyStop [(k, .stop)]).mayStart = true := by
      unfold Bank.mayStart
      rw [Bank.ask_phase, ha, heldAsk (Bank.takesClose_of_opened ha)]
      dsimp only
      unfold Causes.dwellFree
      rw [stops, Bool.or_true, Bool.or_true]
    rw [if_pos may] at h
    obtain ⟨i, z, hphase, hg, hcauses, hinterval, -, hy⟩ := h
    obtain rfl : a = i := by
      rw [ha] at hphase
      injection hphase
    rw [hcauses, if_pos stops] at hy
    exact ⟨hy, z, hg, hcauses ▸ stops, hinterval⟩
  · have takes : x.takesClose = true := by
      unfold Bank.takesClose
      rw [ha]
      rfl
    have stays : ¬(x.ask Causes.onlyStop [(k, .stop)]).mayStart = true := by
      unfold Bank.mayStart
      rw [Bank.ask_phase, ha]
      exact Bool.false_ne_true
    rw [if_neg stays] at h
    exact ⟨_, by rw [h.1, heldAsk takes], stops, List.mem_append_right _ List.mem_cons_self⟩
  · have takes : x.takesClose = false := by
      unfold Bank.takesClose
      rw [hidle]
      rfl
    rw [Bank.ask_of_not_takesClose takes] at h
    split at h
    next hm =>
      obtain ⟨a, c, hp, -⟩ := Bank.mayStart_spec hm
      rw [hp] at hidle
      cases hidle
    · exact h.1

/-! ### CLOSE -/

theorem State.mem_closeSet (s : State) (b : BankId) : b ∈ s.closeSet ↔ s.banks[b].takesClose = true := by
  unfold State.closeSet
  simp

theorem State.takeClose_of_badParam {s : State} {k : SlotId}
    (h : s.optionWord k ≠ 0 ∨ 8 ≤ s.param k 0x10 4 ∧ s.param k 0x10 4 ≠ 255) : s.takeClose k = s.refuse k .badParam := by
  unfold State.takeClose
  dsimp only
  by_cases ho : s.optionWord k ≠ 0
  · rw [if_pos ho]
  · rw [if_neg ho, if_neg (by omega), dif_neg (by omega)]

theorem State.takeClose_of_bank {s : State} {k : SlotId} {b : BankId} (ho : s.optionWord k = 0)
    (hb : s.param k 0x10 4 = b.val) : s.takeClose k =
      if s.banks[b].takesClose = true then s.closeBanks k .closeOne [b] else s.refuse k .state := by
  have hn : s.param k 0x10 4 < 8 := by omega
  obtain rfl : b = ⟨s.param k 0x10 4, hn⟩ := Fin.ext hb.symm
  unfold State.takeClose
  dsimp only
  rw [if_neg (fun h => h ho), if_neg (by omega), dif_pos hn]

theorem State.takeClose_of_all {s : State} {k : SlotId} (ho : s.optionWord k = 0) (hb : s.param k 0x10 4 = 255) :
    s.takeClose k = if s.closeSet.isEmpty = true then s.refuse k .state else s.closeBanks k .closeAll s.closeSet := by
  unfold State.takeClose
  dsimp only
  rw [if_neg (fun h => h ho), if_pos hb]

/-- A bank that a CLOSE names: its close started, or held (R77, R78). -/
theorem Bank.AskedOf.host {x y : Bank} {f g : Option Fold} {k : SlotId} (h : x.AskedOf f Causes.onlyHost (k, .host) y g) :
    if (x.ask Causes.onlyHost [(k, .host)]).mayStart = true then
      y.held = none ∧ ∃ z, g = some z ∧ z.causes.host = true ∧ z.interval = x.interval
    else y = x.ask Causes.onlyHost [(k, .host)] := by
  unfold Bank.AskedOf at h
  split
  next hm =>
    rw [if_pos hm] at h
    obtain ⟨-, z, -, hg, hcauses, hinterval, hheld, -⟩ := h
    exact ⟨hheld, z, hg, by rw [hcauses]; exact Bool.or_true _, hinterval⟩
  next hm =>
    rw [if_neg hm] at h
    exact h.1

theorem State.closeSet_nodup (s : State) : s.closeSet.Nodup := (List.nodup_finRange 8).filter _

/-- The part of a bank in the entry of a CLOSE after its asks (R154). -/
theorem State.askedProgress_waiting (s : State) {bs : List BankId} {b : BankId} (hb : b ∈ bs) (w : SlotId × WaitCause) :
    s.askedProgress bs Causes.onlyHost w (b, .waiting) =
      if (s.banks[b].ask Causes.onlyHost [w]).mayStart = true then (b, .folding s.banks[b].interval) else (b, .waiting) := by
  unfold State.askedProgress
  exact if_congr (and_iff_right hb) rfl rfl

/-- A CLOSE of banks from the slot in hand: the estimate, the asks, the entry (R152, R170). -/
theorem State.InHand.closeBanks {s v : State} {k : SlotId} {rest : List SlotId} (h : s.InHand v k rest)
    (hw : v.control.warm = false) (kind : BankWork) {bs : List BankId} (hnodup : bs.Nodup) :
    s.Taken (v.closeBanks k kind bs) k rest .taken
      (deferredReply ((bs.map fun b => v.banks[b].closeEstimate).foldl max 0)) ∧
    (∀ b ∈ bs, v.banks[b].AskedOf v.folds[b] Causes.onlyHost (k, .host) (v.closeBanks k kind bs).banks[b]
      (v.closeBanks k kind bs).folds[b]) ∧
    (∀ b ∉ bs, (v.closeBanks k kind bs).banks[b] = v.banks[b]) ∧
    ⟨k, .banks kind ((bs.map fun b => (b, .waiting)).map (v.askedProgress bs Causes.onlyHost (k, .host))) []⟩ ∈
      (v.closeBanks k kind bs).requests.table := by
  have closes : v.closeBanks k kind bs = (v.defer k (.banks kind (bs.map fun b => (b, .waiting)) [])
      ((bs.map fun b => v.banks[b].closeEstimate).foldl max 0)).askBanks bs Causes.onlyHost (k, .host) := rfl
  obtain ⟨htaken, -, -, -, hin, hout, hentry⟩ := h.deferredCloses hw kind _ _ hnodup Causes.onlyHost .host closes
  exact ⟨htaken, hin, fun b hb => (hout b hb).1, hentry⟩

/-- Settles O52: STOP, then CLOSE of one bank and of all. -/
theorem stopAndCloseDefer : Obligations.StopAndCloseDefer := by
  intro s k rest hm
  have hand := State.InHand.beginTake hm.1 k rest
  have area := State.SameArea.beginTake s k rest
  refine ⟨fun hh => ?_, fun hh => ?_⟩
  · have stopSet : (s.beginTake k rest).stopSet = s.stopSet := by
      unfold State.stopSet State.stopProgress
      rw [State.beginTake_banks, State.beginTake_folds]
    refine ⟨_, hh.exec rfl, ?_⟩
    unfold State.takeStop
    rw [area.timingRequest, stopSet]
    cases s.timingRequest k with
    | none => exact ⟨hand.refused _, by simp [State.refuse_eq], by simp [State.refuse_eq]⟩
    | some r =>
      dsimp only
      by_cases hall : ∀ b : BankId, s.banks[b].phase = .stopped
      · have empty : s.stopSet.isEmpty = true := by
          rw [List.isEmpty_iff, ← List.map_eq_nil_iff (f := Prod.fst), List.eq_nil_iff_forall_not_mem]
          exact fun b hb => (s.mem_stopSet_keys b).mp hb (hall b)
        rw [if_pos hall, if_pos empty]
        exact ⟨hand.refused _, by simp [State.refuse_eq], by simp [State.refuse_eq]⟩
      · have nonempty : ¬s.stopSet.isEmpty = true := by
          rw [List.isEmpty_iff, ← List.map_eq_nil_iff (f := Prod.fst), List.eq_nil_iff_forall_not_mem]
          exact fun hempty => hall fun b => not_not.mp fun hb => hempty b ((s.mem_stopSet_keys b).mpr hb)
        rw [if_neg hall, if_neg nonempty]
        have vbanks : ((s.beginTake k rest).writeTiming r).banks = s.banks := s.beginTake_banks k rest
        obtain ⟨htaken, htiming, hsorter, hlimit, hin, hout, hentry⟩ :=
          (hand.writeTiming r).deferredCloses (by exact (congrArg Control.warm (s.beginTake_control k rest)).trans hh.not_warm)
            .stop s.stopSet 0 s.stopSet_nodup Causes.onlyStop .stop rfl
        rw [vbanks] at hin hout
        refine ⟨htaken, htiming, ?_, hlimit, ⟨_, hentry, fun b => ?_⟩, fun b => ?_⟩
        · rw [hsorter]
          rfl
        · rw [State.map_askedProgress_fst]
          exact s.mem_stopSet_keys b
        · by_cases hb : s.banks[b].phase = .stopped
          · have left := (hout b fun h => (s.mem_stopSet_keys b).mp h hb).1
            rw [hb]
            exact ⟨fun a ha => (nomatch ha), fun a ha => (nomatch ha), fun _ => left⟩
          · exact (hin b ((s.mem_stopSet_keys b).mpr hb)).stop
  · have h10 := area.param 0x10 4 (by decide) (by decide)
    have hw : (s.beginTake k rest).control.warm = false :=
      (congrArg Control.warm (s.beginTake_control k rest)).trans hh.not_warm
    refine ⟨_, hh.exec rfl, fun hbad => ?_, fun ho b hb => ?_, fun ho hb => ?_, Bank.closeEstimate_eq⟩
    · rw [State.takeClose_of_badParam (by rwa [h10, area.optionWord])]
      exact ⟨hand.refused _, by simp [State.refuse_eq]⟩
    · rw [State.takeClose_of_bank (area.optionWord.trans ho) (h10.trans hb), State.beginTake_banks]
      by_cases htakes : s.banks[b].takesClose = false
      · rw [if_pos htakes, if_neg fun h => absurd (htakes.symm.trans h) Bool.false_ne_true]
        exact ⟨hand.refused _, by simp [State.refuse_eq]⟩
      · rw [if_neg htakes, if_pos (by simpa using htakes)]
        obtain ⟨htaken, hin, hout, hentry⟩ := hand.closeBanks hw .closeOne (List.nodup_singleton b)
        rw [State.beginTake_banks, State.beginTake_folds] at hin
        rw [State.beginTake_banks] at hout
        rw [State.beginTake_banks, List.map_singleton, List.foldl_cons, List.foldl_nil, Nat.zero_max] at htaken
        have asked := (hin b List.mem_cons_self).host
        rw [List.map_singleton, List.map_singleton, State.askedProgress_waiting _ List.mem_cons_self,
          State.beginTake_banks] at hentry
        refine ⟨htaken, fun b' hne => hout b' fun h => hne (List.mem_singleton.mp h), ?_⟩
        split at asked
        next hstart =>
          rw [if_pos hstart] at hentry ⊢
          exact ⟨asked.2, hentry⟩
        next hstart =>
          rw [if_neg hstart] at hentry ⊢
          exact ⟨asked, hentry⟩
    · have closeSet : (s.beginTake k rest).closeSet = s.closeSet := by
        unfold State.closeSet
        rw [State.beginTake_banks]
      rw [State.takeClose_of_all (area.optionWord.trans ho) (h10.trans hb), closeSet]
      by_cases hall : ∀ b : BankId, s.banks[b].takesClose = false
      · have empty : s.closeSet.isEmpty = true := by
          rw [List.isEmpty_iff, List.eq_nil_iff_forall_not_mem]
          exact fun b hb => absurd ((hall b).symm.trans ((s.mem_closeSet b).mp hb)) Bool.false_ne_true
        rw [if_pos hall, if_pos empty]
        exact ⟨hand.refused _, by simp [State.refuse_eq]⟩
      · have hne : s.closeSet ≠ [] := by
          rw [ne_eq, List.eq_nil_iff_forall_not_mem]
          exact fun hempty => hall fun b => Bool.eq_false_iff.mpr fun hb => hempty b ((s.mem_closeSet b).mpr hb)
        rw [if_neg hall, if_neg (by simpa using hne)]
        obtain ⟨htaken, hin, hout, hentry⟩ := hand.closeBanks hw .closeAll s.closeSet_nodup
        rw [State.beginTake_banks, State.beginTake_folds] at hin
        rw [State.beginTake_banks] at hout htaken
        have keys : (((s.closeSet.map fun b => (b, Progress.waiting)).map ((s.beginTake k rest).askedProgress s.closeSet
            Causes.onlyHost (k, .host))).map Prod.fst) = s.closeSet := by
          rw [State.map_askedProgress_fst, List.map_map]
          exact List.map_id _
        have part {b : BankId} (hb : b ∈ s.closeSet) : (if (s.banks[b].ask Causes.onlyHost [(k, .host)]).mayStart = true then
            (b, .folding s.banks[b].interval) else (b, .waiting)) ∈ (s.closeSet.map fun b => (b, Progress.waiting)).map
              ((s.beginTake k rest).askedProgress s.closeSet Causes.onlyHost (k, .host)) := by
          have own := State.askedProgress_waiting (s.beginTake k rest) hb (k, .host)
          rw [State.beginTake_banks] at own
          exact own ▸ List.mem_map_of_mem (List.mem_map_of_mem hb)
        refine ⟨_, _, htaken, fun b hb => ?_, ?_, hentry, keys.symm ▸ s.closeSet_nodup, fun b => ?_⟩
        · exact (foldl_max_spec _ 0).2.1 _ (List.mem_map_of_mem ((s.mem_closeSet b).mpr hb))
        · obtain ⟨b, hb, hestimate⟩ := List.mem_map.mp (foldl_max_mem (fun h => hne (List.map_eq_nil_iff.mp h)) :
            (s.closeSet.map fun b => s.banks[b].closeEstimate).foldl max 0 ∈ s.closeSet.map fun b => s.banks[b].closeEstimate)
          exact ⟨b, (s.mem_closeSet b).mp hb, hestimate⟩
        · rw [keys]
          by_cases htakes : s.banks[b].takesClose = false
          · have absent : b ∉ s.closeSet := fun h => absurd (htakes.symm.trans ((s.mem_closeSet b).mp h)) Bool.false_ne_true
            rw [if_pos htakes]
            exact ⟨hout b absent, absent⟩
          · have present : b ∈ s.closeSet := (s.mem_closeSet b).mpr (by simpa using htakes)
            have asked := (hin b present).host
            have inOut := part present
            rw [if_neg htakes]
            split at asked
            next hstart =>
              rw [if_pos hstart] at inOut ⊢
              exact ⟨inOut, asked⟩
            next hstart =>
              rw [if_neg hstart] at inOut ⊢
              exact ⟨inOut, asked⟩

end Sys2Proof.Machine
end

section
/-! SUPPORT. Replies in the memory: what the end of a slot writes, and which bytes it leaves (R146, R151, R154, R155). -/

namespace Sys2Proof.Machine

/-! ### Little-endian fields -/

theorem leBytes_mod (n v : Nat) : leBytes n (v % 256 ^ n) = leBytes n v := by
  induction n generalizing v with
  | zero => rfl
  | succ n ih =>
    rw [leBytes, leBytes, Nat.pow_succ, Nat.mul_comm, Nat.mod_mul_right_mod, Nat.mod_mul_right_div_self, ih]

theorem wordBytes_ofNat (n : Nat) : wordBytes (BitVec.ofNat 32 n) = leBytes 4 n := by
  unfold wordBytes
  rw [BitVec.toNat_ofNat, show (2 : Nat) ^ 32 = 256 ^ 4 from rfl, leBytes_mod]

/-! ### The bytes outside the reply areas -/

theorem inReply_unique {j k : SlotId} {a : Nat} (hj : inReply j a) (hk : inReply k a) : j = k := by
  obtain ⟨hjlow, hjhigh⟩ := hj
  obtain ⟨hklow, hkhigh⟩ := hk
  unfold slotByte at *
  exact Fin.ext (by omega)

/-- From `s` to `t` no byte changed outside the reply areas of some slots. -/
def State.RepliesIn (s t : State) (slots : SlotId → Prop) : Prop := s.SameBytes t fun a => ∀ k, inReply k a → ¬slots k

theorem State.RepliesIn.of_mem {s t : State} (h : t.mem = s.mem) (slots : SlotId → Prop) : s.RepliesIn t slots := fun _ _ => by
  rw [h]

theorem State.RepliesIn.trans {s t u : State} {slots : SlotId → Prop} (h : s.RepliesIn t slots) (h' : t.RepliesIn u slots) :
    s.RepliesIn u slots := fun a ha => (h' a ha).trans (h a ha)

theorem State.RepliesIn.mono {s t : State} {slots slots' : SlotId → Prop} (h : s.RepliesIn t slots)
    (hle : ∀ k, slots k → slots' k) : s.RepliesIn t slots' := fun a ha => h a fun k hk hslot => ha k hk (hle k hslot)

/-- What a slot's reply area holds is left by replies of other slots. -/
theorem State.RepliesIn.bytes {s t : State} {slots : SlotId → Prop} (h : s.RepliesIn t slots) {k : SlotId} (hk : ¬slots k)
    {off n : Nat} (hlow : 0x80 ≤ off) (hhigh : off + n ≤ 0x200) :
    t.mem.bytes (slotByte k + off) n = s.mem.bytes (slotByte k + off) n :=
  Memory.bytes_congr fun x hxlow hxhigh => h x fun j hj => by
    have own : inReply k x := ⟨by omega, by omega⟩
    rw [inReply_unique hj own]
    exact hk

/-! ### A reply written whole -/

theorem State.finish_repliesIn (s : State) (k : SlotId) (st : SlotState) {r : Reply} (hr : r.data.length ≤ 320) :
    s.RepliesIn (s.finish k st r) (· = k) := fun a ha => by
  rw [State.finish_mem]
  refine s.writeReply_outside k _ r hr ?_
  by_contra hin
  rw [not_or, Nat.not_lt, Nat.not_le] at hin
  exact ha k hin rfl

theorem State.defer_repliesIn (s : State) (k : SlotId) (w : Work) (n : Nat) : s.RepliesIn (s.defer k w n) (· = k) := fun a ha => by
  rw [State.defer_mem]
  refine s.writeReply_outside k _ _ (by simp [deferredReply]) ?_
  by_contra hin
  rw [not_or, Nat.not_lt, Nat.not_le] at hin
  exact ha k hin rfl

/-! ### The end of a deferred request -/

/-- The memory after the end of a deferred request whose slot begins at `base`. -/
def Memory.withEnding (m : Memory) (base : Nat) (o r i c : Word) (d : List Byte) : Memory :=
  ((((m.writeBytes (base + 0x88) (wordBytes o)).writeBytes (base + 0x8C) (wordBytes r)).writeBytes (base + 0x94)
    (wordBytes i)).writeBytes (base + 0x9C) (wordBytes c)).writeBytes (base + 0xC0) d

theorem State.endDeferred_mem (s : State) (k : SlotId) (st : SlotState) (o : ReplyOutcome) (r : Reason) (i : Word) (c : Nat)
    (d : List Byte) : (s.endDeferred k st o r i c d).mem =
      s.mem.withEnding (slotByte k) (BitVec.ofNat 32 o.code) (BitVec.ofNat 32 r.code) i (BitVec.ofNat 32 c) d := by
  simp [State.endDeferred, State.endSlot, State.writeField, State.writeData, Memory.withEnding]

theorem Memory.withEnding_read (m : Memory) (base : Nat) (o r i c : Word) (d : List Byte) {x : Nat}
    (hx : x < base + 0x88 ∨ base + 0x90 ≤ x ∧ x < base + 0x94 ∨ base + 0x98 ≤ x ∧ x < base + 0x9C ∨
      base + 0xA0 ≤ x ∧ x < base + 0xC0 ∨ base + 0xC0 + d.length ≤ x) :
    (m.withEnding base o r i c d).read x = m.read x := by
  unfold Memory.withEnding
  rw [Memory.read_writeBytes_of_outside _ _ (by omega), Memory.read_writeBytes_of_outside _ _ (by rw [wordBytes_length]; omega),
    Memory.read_writeBytes_of_outside _ _ (by rw [wordBytes_length]; omega),
    Memory.read_writeBytes_of_outside _ _ (by rw [wordBytes_length]; omega),
    Memory.read_writeBytes_of_outside _ _ (by rw [wordBytes_length]; omega)]

/-- The fields that the end of a deferred request decides read as written. -/
theorem Memory.withEnding_bytes {m : Memory} (h : m.wf) (base : Nat) (o r i c : Word) (d : List Byte) :
    (m.withEnding base o r i c d).bytes (base + 0x88) 8 = wordBytes o ++ wordBytes r ∧
    (m.withEnding base o r i c d).bytes (base + 0x94) 4 = wordBytes i ∧
    (m.withEnding base o r i c d).bytes (base + 0x9C) 4 = wordBytes c ∧
    (m.withEnding base o r i c d).bytes (base + 0xC0) d.length = d ∧ (m.withEnding base o r i c d).wf := by
  have word (m : Memory) (h : m.wf) (a : Nat) (w : Word) : (m.writeBytes a (wordBytes w)).bytes a 4 = wordBytes w := by
    have written := Memory.bytes_writeBytes_self h a (wordBytes w)
    rwa [wordBytes_length] at written
  have h1 := Memory.wf_writeBytes h (base + 0x88) (wordBytes o)
  have h2 := Memory.wf_writeBytes h1 (base + 0x8C) (wordBytes r)
  have h3 := Memory.wf_writeBytes h2 (base + 0x94) (wordBytes i)
  have h4 := Memory.wf_writeBytes h3 (base + 0x9C) (wordBytes c)
  have after (m : Memory) {a x : Nat} (w : Word) (hx : x + 4 ≤ a ∨ a + 4 ≤ x) :
      (m.writeBytes a (wordBytes w)).bytes x 4 = m.bytes x 4 :=
    Memory.bytes_writeBytes_of_disjoint m _ (by rw [wordBytes_length]; exact hx)
  have data (m : Memory) {x : Nat} (hx : x + 4 ≤ base + 0xC0) : (m.writeBytes (base + 0xC0) d).bytes x 4 = m.bytes x 4 :=
    Memory.bytes_writeBytes_of_disjoint m _ (Or.inl hx)
  unfold Memory.withEnding
  refine ⟨?_, ?_, ?_, Memory.bytes_writeBytes_self h4 _ _, Memory.wf_writeBytes h4 _ _⟩
  · rw [show (8 : Nat) = 4 + 4 from rfl, Memory.bytes_add, data _ (by omega), data _ (by omega), after _ c (by omega),
      after _ c (by omega), after _ i (by omega), after _ i (by omega), after _ r (by omega), word _ h, word _ h1]
  · rw [data _ (by omega), after _ c (by omega), word _ h2]
  · rw [data _ (by omega), word _ h3]

theorem State.endDeferred_repliesIn (s : State) (k : SlotId) (st : SlotState) (o : ReplyOutcome) (r : Reason) (i : Word) (c : Nat)
    {d : List Byte} (hd : d.length ≤ 320) : s.RepliesIn (s.endDeferred k st o r i c d) (· = k) := fun a ha => by
  rw [State.endDeferred_mem]
  refine Memory.withEnding_read _ _ _ _ _ _ _ ?_
  by_contra hin
  exact ha k ⟨by omega, by omega⟩ rfl

/-- The reply of a deferred request that ended, and the bytes it leaves (R146, R154, R155). -/
theorem State.endDeferred_bytes {s : State} (h : s.mem.wf) (k : SlotId) (st : SlotState) (o : ReplyOutcome) (r : Reason)
    (i : Word) (c : Nat) (d : List Byte) :
    (s.endDeferred k st o r i c d).mem.bytes (slotByte k + 0x88) 8 = leBytes 4 o.code ++ leBytes 4 r.code ∧
    (s.endDeferred k st o r i c d).mem.bytes (slotByte k + 0x94) 4 = wordBytes i ∧
    (s.endDeferred k st o r i c d).mem.bytes (slotByte k + 0x9C) 4 = leBytes 4 c ∧
    (s.endDeferred k st o r i c d).mem.bytes (slotByte k + 0xC0) d.length = d ∧
    (s.endDeferred k st o r i c d).mem.wf := by
  obtain ⟨hout, hinterval, hcount, hdata, hwf⟩ := Memory.withEnding_bytes h (slotByte k) (BitVec.ofNat 32 o.code)
    (BitVec.ofNat 32 r.code) i (BitVec.ofNat 32 c) d
  rw [State.endDeferred_mem]
  rw [wordBytes_ofNat, wordBytes_ofNat] at hout
  rw [wordBytes_ofNat] at hcount
  exact ⟨hout, hinterval, hcount, hdata, hwf⟩

end Sys2Proof.Machine
end

section
/-! SUPPORT. CANCEL: the target withdrawn from its blocks and ended (R79, R176, R177). -/

namespace Sys2Proof.Machine

/-! ### A slot withdrawn from held closes -/

/-- A held close without a slot's waits: HOST goes with its last HOST waiter, the hold with its last cause (R79). -/
def HeldClose.without (h : HeldClose) (k : SlotId) : Option HeldClose :=
  let rest := h.waiters.filter fun w => decide (w.1 ≠ k)
  let causes := { h.causes with host := h.causes.host && decide (WaitCause.host ∈ rest.map Prod.snd) }
  if causes = ⟨false, false, false, false, false⟩ then none else some ⟨causes, rest⟩

theorem Causes.isEmpty_iff (c : Causes) : c.isEmpty = true ↔ c = ⟨false, false, false, false, false⟩ := by
  obtain ⟨a, b, c, d, e⟩ := c
  simp [Causes.isEmpty, and_assoc]

theorem Bank.withdraw_eq (x : Bank) (k : SlotId) : x.withdraw k = { x with held := x.held.bind fun h => h.without k } := by
  unfold Bank.withdraw
  cases hheld : x.held with
  | none =>
    dsimp only [Option.bind]
    rw [← hheld]
  | some h =>
    have rest : (h.waiters.filter fun w => w.1 != k) = h.waiters.filter fun w => decide (w.1 ≠ k) :=
      List.filter_congr fun w _ => by rw [Bool.eq_iff_iff, bne_iff_ne, decide_eq_true_iff]
    have host : (h.waiters.filter fun w => decide (w.1 ≠ k)).any (fun w => w.2 == .host) =
        decide (WaitCause.host ∈ (h.waiters.filter fun w => decide (w.1 ≠ k)).map Prod.snd) := by
      rw [Bool.eq_iff_iff, List.any_eq_true, decide_eq_true_iff, List.mem_map]
      simp only [beq_iff_eq]
    dsimp only [Option.bind]
    unfold HeldClose.without
    rw [rest, host]
    simp only [Causes.isEmpty_iff]

/-- The second withdrawal of a slot finds nothing more to withdraw. -/
theorem Bank.withdraw_withdraw (x : Bank) (k : SlotId) : (x.withdraw k).withdraw k = x.withdraw k := by
  rw [Bank.withdraw_eq, Bank.withdraw_eq]
  cases x.held with
  | none => rfl
  | some h =>
    dsimp only [Option.bind_some]
    cases hw : h.without k with
    | none => rfl
    | some g =>
      have same : g.without k = some g := by
        unfold HeldClose.without at hw
        dsimp only at hw
        split at hw
        · cases hw
        next hne =>
          cases hw
          unfold HeldClose.without
          dsimp only
          rw [List.filter_filter]
          simp only [Bool.and_self, Bool.and_assoc]
          rw [if_neg hne]
      dsimp only [Option.bind_some]
      rw [same]

/-- A slot withdrawn from a list of banks. -/
theorem State.withdraw_banks (k : SlotId) (out : List (BankId × Progress)) (s : State) (b : BankId) :
    (out.foldl (fun s o => s.putBank o.1 (s.banks[o.1].withdraw k)) s).banks[b] =
      if b ∈ out.map Prod.fst then s.banks[b].withdraw k else s.banks[b] := by
  induction out generalizing s with
  | nil => rw [List.foldl_nil, List.map_nil, if_neg List.not_mem_nil]
  | cons o out ih =>
    have put : (s.putBank o.1 (s.banks[o.1].withdraw k)).banks[b] =
        if b = o.1 then s.banks[b].withdraw k else s.banks[b] := by
      refine (getElem_fin_set s.banks o.1 b _).trans ?_
      by_cases h : b = o.1
      · subst h
        rw [if_pos rfl]
      · rw [if_neg h, if_neg h]
    rw [List.foldl_cons, ih, put, List.map_cons]
    by_cases h : b = o.1
    · rw [if_pos h, if_pos (List.mem_cons.mpr (Or.inl h)), Bank.withdraw_withdraw, ite_self]
    · rw [if_neg h]
      exact if_congr (by rw [List.mem_cons, or_iff_right h]) rfl rfl

theorem State.SameArea.withdraw (s : State) (g : SlotId) (w : Work) (k : SlotId) : s.SameArea (s.withdraw g w) k := by
  cases w with
  | banks kind out closed =>
    have each (u : State) (o : BankId × Progress) : u.SameArea (u.putBank o.1 (u.banks[o.1].withdraw g)) k := .putBank u o.1 _ k
    exact .foldl each out s
  | rebase p =>
    have removed : s.SameArea (s.putRegs p { s.regs[p] with rebase := none }) k := .putRegs s p _ k
    exact removed.trans (.regWritten _ p _ k)

/-! ### The target of a CANCEL -/

theorem State.pendingEntry_of_mem {s : State} (h : (s.requests.table.map PendingEntry.slot).Nodup) {e : PendingEntry}
    (he : e ∈ s.requests.table) : s.pendingEntry e.slot = some e := by
  unfold State.pendingEntry
  cases hf : s.requests.table.find? fun f => f.slot == e.slot with
  | none => exact absurd (List.find?_eq_none.mp hf e he) (by simp)
  | some f =>
    rw [eq_of_slot_eq h he (List.mem_of_find?_eq_some hf)
      (beq_iff_eq.mp (List.find?_some (p := fun f : PendingEntry => f.slot == e.slot) hf)).symm]

/-- No pending entry of the slot may be withdrawn (R176). -/
theorem State.cancelSlot_of_not_pending {s : State} {g : SlotId}
    (h : ∀ e ∈ s.requests.table, e.slot = g → e.work.cancellable = false) (k : SlotId) : s.cancelSlot k g =
      s.done k { okReply with outcome := .notPending, data := cancelBytes g (s.pendingEntry g) s.requests.slots[g] } := by
  have none : ((s.pendingEntry g).bind fun x => if x.work.cancellable then some x else none) = none := by
    cases he : s.pendingEntry g with
    | none => rfl
    | some e =>
      have hslot := beq_iff_eq.mp (List.find?_some (p := fun f : PendingEntry => f.slot == g) he)
      rw [Option.bind_some, h e (List.mem_of_find?_eq_some he) hslot]
      rfl
  unfold State.cancelSlot
  dsimp only
  rw [none]

/-- The slot of a pending entry that is withdrawn and ended (R177). -/
def State.cancelled (s : State) (e : PendingEntry) : State :=
  (s.withdraw e.slot e.work).endDeferred e.slot .done .cancelled .none 0 0 []

theorem State.cancelSlot_of_pending {s : State} {e : PendingEntry} (h : s.pendingEntry e.slot = some e)
    (hc : e.work.cancellable = true) (k : SlotId) : s.cancelSlot k e.slot =
      (s.cancelled e).done k { okReply with data := cancelBytes e.slot (some e) s.requests.slots[e.slot] } := by
  have some : ((s.pendingEntry e.slot).bind fun x => if x.work.cancellable then some x else none) = some e := by
    rw [h, Option.bind_some, if_pos hc]
  unfold State.cancelSlot
  dsimp only
  rw [some, h]
  rfl

theorem State.cancelled_banks (s : State) (e : PendingEntry) : (s.cancelled e).banks = (s.withdraw e.slot e.work).banks := by
  unfold State.cancelled
  rw [State.endDeferred_replied]

theorem State.cancelled_regs (s : State) (e : PendingEntry) : (s.cancelled e).regs = (s.withdraw e.slot e.work).regs := by
  unfold State.cancelled
  rw [State.endDeferred_replied]

theorem State.cancelled_requests (s : State) (e : PendingEntry) : (s.cancelled e).requests = { s.requests with
    slots := s.requests.slots.set e.slot .done, table := s.requests.table.filter fun f => f.slot != e.slot } := by
  unfold State.cancelled
  rw [State.endDeferred_requests, (s.withdraw_touches e.slot e.work).requests (by decide)]

theorem State.InHand.cancelled {s v : State} {k : SlotId} {rest : List SlotId} (h : s.InHand v k rest) (e : PendingEntry) :
    s.InHand (v.cancelled e) k rest where
  intake := by rw [cancelled_requests]; exact h.intake
  count := by rw [cancelled_requests]; exact h.count
  serial := by
    rw [← h.serial]
    exact (SameArea.trans (.withdraw v e.slot e.work k) (.endDeferred _ _ k _ _ _ _ _ (by simp))).serial
  wf := by
    have withdrawn : (v.withdraw e.slot e.work).mem.wf := by
      rw [(v.withdraw_touches e.slot e.work).mem (by decide)]
      exact h.wf
    obtain ⟨-, -, -, -, hwf⟩ := endDeferred_bytes withdrawn e.slot .done .cancelled .none 0 0 []
    exact hwf

/-- The target's outcome as the host reads it (R177). -/
theorem State.cancelled_outcome {s : State} (h : s.mem.wf) (e : PendingEntry) :
    (s.cancelled e).mem.bytes (slotByte e.slot + 0x88) 4 = leBytes 4 2 := by
  have withdrawn : (s.withdraw e.slot e.work).mem.wf := by
    rw [(s.withdraw_touches e.slot e.work).mem (by decide)]
    exact h
  obtain ⟨hout, -⟩ := State.endDeferred_bytes withdrawn e.slot .done .cancelled .none 0 0 []
  have first := Memory.bytes_part (s.cancelled e).mem (a := slotByte e.slot + 0x88) (i := 0) (k := 4) (n := 8) (by decide)
  rw [Nat.add_zero, List.drop_zero] at first
  rw [← first]
  exact (congrArg (List.take 4) hout).trans (List.take_left' (leBytes_length 4 _))

/-- Settles O56: the parameters, a target not pending, a target withdrawn. -/
theorem cancelWithdrawsTarget : Obligations.CancelWithdrawsTarget := by
  intro s k rest hm hrequests hh
  obtain ⟨-, hposted, hnodup, htaken, -⟩ := hrequests
  have hand := State.InHand.beginTake hm.1 k rest
  have area := State.SameArea.beginTake s k rest
  have h10 := area.param 0x10 4 (by decide) (by decide)
  have pending (g : SlotId) : (s.beginTake k rest).pendingEntry g = s.pendingEntry g := by
    unfold State.pendingEntry
    rw [State.beginTake_requests]
  refine ⟨_, hh.exec rfl, fun hbad => ?_, fun g hg ho => ?_⟩
  · unfold State.takeCancel
    rw [dif_neg (by rw [h10, area.optionWord]; omega)]
    exact ⟨hand.refused _, by simp [State.refuse_eq], by simp [State.refuse_eq]⟩
  · have target : (s.beginTake k rest).takeCancel k = (s.beginTake k rest).cancelSlot k g := by
      have hn : (s.beginTake k rest).param k 0x10 4 < 32 := by omega
      obtain rfl : g = ⟨(s.beginTake k rest).param k 0x10 4, hn⟩ := Fin.ext (h10.trans hg).symm
      unfold State.takeCancel
      exact dif_pos ⟨hn, area.optionWord.trans ho⟩
    rw [target]
    refine ⟨fun hnone => ?_, fun e he hslot hcancel => ?_⟩
    · rw [State.cancelSlot_of_not_pending (by rw [State.beginTake_requests]; exact hnone), pending, State.done_eq,
        State.finish_banks, State.finish_regs, State.finish_requests, State.beginTake_banks, State.beginTake_regs,
        State.beginTake_requests]
      exact ⟨rfl, rfl, rfl, hand.ended .done (by simp [cancelBytes_length])⟩
    · subst hslot
      have isTaken : s.requests.slots[e.slot] = .taken := (htaken e.slot).mp (List.mem_map_of_mem he)
      have ne : e.slot ≠ k := fun heq => by
        have isPosted := (hposted k).mp (hh.2.1 ▸ List.mem_cons_self)
        rw [← heq, isTaken] at isPosted
        cases isPosted
      have entry := State.pendingEntry_of_mem hnodup he
      rw [State.cancelSlot_of_pending ((pending e.slot).trans entry) hcancel, State.done_eq, State.finish_banks,
        State.finish_regs, State.finish_requests, State.cancelled_requests, State.cancelled_banks, State.cancelled_regs]
      have slot : (s.beginTake k rest).requests.slots[e.slot] = .taken := by
        rw [State.beginTake_requests]
        exact isTaken
      rw [slot]
      refine ⟨(hand.cancelled e).ended .done (by simp [cancelBytes_length]), ?_, ?_, ?_, ?_, ?_⟩
      · dsimp only
        rw [getElem_fin_set_of_ne _ _ ne, getElem_fin_set_self]
      · intro hmem
        obtain ⟨f, hf, hslot⟩ := List.mem_map.mp hmem
        have := (List.mem_filter.mp hf).2
        simp [hslot] at this
      · have other := State.finish_repliesIn ((s.beginTake k rest).cancelled e) k .done
          (r := { okReply with data := cancelBytes e.slot (some e) .taken }) (by simp [cancelBytes_length])
        rw [other.bytes (k := e.slot) ne (by decide) (by decide)]
        exact State.cancelled_outcome hand.wf e
      · intro kind out closed hwork
        rw [hwork]
        have touched : (s.beginTake k rest).Touches [.banks, .exchangeMarks]
            ((s.beginTake k rest).withdraw e.slot (.banks kind out closed)) := by
          unfold State.withdraw
          exact .foldl (fun u o => u.putBank_touches o.1 _) out _
        refine ⟨by rw [touched.regs (by decide), State.beginTake_regs], fun b => ?_⟩
        have bank := State.withdraw_banks e.slot out (s.beginTake k rest) b
        rw [State.beginTake_banks] at bank
        unfold State.withdraw
        rw [bank]
        split
        · refine ⟨fun hheld => ?_, fun h rest causes hheld hrest hcauses => ?_⟩
          · rw [Bank.withdraw_eq, hheld, Option.bind_none, ← hheld]
          · subst hrest hcauses
            rw [Bank.withdraw_eq, hheld, Option.bind_some]
            rfl
        · rfl
      · intro p hwork
        have regs : ((s.beginTake k rest).withdraw e.slot (.rebase p)).regs =
            (s.beginTake k rest).regs.set p { (s.beginTake k rest).regs[p] with rebase := none } := rfl
        rw [hwork, regs, State.beginTake_regs]
        exact ⟨s.beginTake_banks k rest, rfl⟩

end Sys2Proof.Machine
end

section
/-! SUPPORT. What a request take leaves unchanged: other blocks, and the bytes outside the reply areas it ends (R146). -/

namespace Sys2Proof.Machine

/-! ### Checks of the register store -/

/-- The parts that a check of a register word other than a pending REBASE may touch. -/
def Part.ofWordCheck : List Part := [.regs, .registerMarks, .capture, .latched, .corrected, .exchangeMarks]

theorem State.loseReg_touches_of_ne (s : State) (p : SetId) {it : RegItem} (h : it ≠ .rebase) :
    s.Touches [.regs, .registerMarks] (s.loseReg p it) := by
  have written (x : RegisterSet) (which : RegItem → Bool) :
      s.Touches [.regs, .registerMarks] ((s.putRegs p x).regWritten p which) :=
    (s.putRegs_touches p x).seq (State.regWritten_touches _ p which) (by decide) (by decide)
  cases it
  case rebase => exact absurd rfl h
  all_goals exact written _ _

theorem State.countCorrected_touches (s : State) : s.Touches [.corrected, .exchangeMarks] s.countCorrected := .of_eq _ rfl

theorem State.checkReg_touches_of_ne (s : State) (p : SetId) {it : RegItem} (h : it ≠ .rebase) :
    s.Touches Part.ofWordCheck (s.checkReg p it) := by
  unfold State.checkReg
  split
  · exact .refl s _
  · exact (s.regWritten_touches p _).seq (State.countCorrected_touches _) (by decide) (by decide)
  · exact (s.report_touches _ _).seq (State.loseReg_touches_of_ne _ p h) (by decide) (by decide)

theorem State.checkRegs_touches_of_ne (s : State) (p : SetId) {items : List RegItem} (h : .rebase ∉ items) :
    s.Touches Part.ofWordCheck (s.checkRegs p items) := by
  unfold State.checkRegs
  induction items generalizing s with
  | nil => exact .refl s _
  | cons it items ih =>
    rw [List.mem_cons, not_or] at h
    exact (s.checkReg_touches_of_ne p (Ne.symm h.1)).trans (ih _ h.2)

theorem rebase_notMem_quantityWords (qs : List QuantityId) : RegItem.rebase ∉ qs.flatMap quantityWords := by
  intro h
  obtain ⟨q, -, hq⟩ := List.mem_flatMap.mp h
  simp [quantityWords] at hq

theorem rebase_notMem_netWords (first count : Nat) : RegItem.rebase ∉ netWords first count := by
  intro h
  obtain ⟨j, -, hj⟩ := List.mem_flatMap.mp h
  obtain ⟨q, -, hq⟩ := List.mem_flatMap.mp hj
  simp at hq

/-- The slot of the pending REBASE of a register set. -/
def State.RebaseSlot (s : State) (p : SetId) (k : SlotId) : Prop := ∃ x, s.regs[p].rebase = some x ∧ x.slot = k

theorem State.loseRebase_repliesIn (s : State) (p : SetId) : s.RepliesIn (s.loseRebase p) (s.RebaseSlot p) := by
  unfold State.loseRebase
  split
  next x hx =>
    have removed : s.RepliesIn (s.putRegs p { s.regs[p] with rebase := none }) (s.RebaseSlot p) := .of_mem rfl _
    refine removed.trans ((State.endDeferred_repliesIn _ x.slot _ _ _ _ _ (by simp)).mono fun k hk => ?_)
    exact ⟨x, hx, hk.symm⟩
  · exact .of_mem rfl _

/-- A lost pending REBASE ends its slot: the one reply area that a check of the store may write (R110). -/
theorem State.checkReg_repliesIn (s : State) (p : SetId) (it : RegItem) : s.RepliesIn (s.checkReg p it) (s.RebaseSlot p) := by
  by_cases hit : it = .rebase
  · subst hit
    unfold State.checkReg
    split
    · exact .of_mem rfl _
    · exact .of_mem rfl _
    · have reported := s.report_touches .registers (RegWord.location ⟨p, .rebase⟩)
      generalize s.report .registers (RegWord.location ⟨p, .rebase⟩) = u at reported ⊢
      have slots : u.RebaseSlot p = s.RebaseSlot p := by
        unfold State.RebaseSlot
        rw [reported.regs (by decide)]
      have lost : u.RepliesIn (u.loseReg p .rebase) (s.RebaseSlot p) := by
        rw [← slots]
        exact (u.loseRebase_repliesIn p).trans (.of_mem rfl _)
      exact .trans (.of_mem (reported.mem (by decide)) _) lost
  · exact .of_mem ((s.checkReg_touches_of_ne p hit).mem (by decide)) _

/-! ### Every take -/

section
variable (s : State) (k : SlotId)

theorem State.refuse_repliesIn (r : Reason) : s.RepliesIn (s.refuse k r) (· = k) :=
  s.finish_repliesIn k .refused (by simp [refusal])

theorem State.done_repliesIn {r : Reply} (h : r.data.length ≤ 320) : s.RepliesIn (s.done k r) (· = k) :=
  s.finish_repliesIn k .done h

theorem State.finishPoint_repliesIn (p : PointId) (st : SlotState) (r : Reply) : s.RepliesIn (s.finishPoint k p st r) (· = k) := by
  have read := s.checkRegs_touches_of_ne (setOf p) (items := [.scale, .staged]) (by decide)
  unfold State.finishPoint
  exact .trans (.of_mem (read.mem (by decide)) _) (State.finish_repliesIn _ k st (by simp [Profile.echo_length]))

theorem State.headroomReads_mem (p : PointId) (v : Fin 4) : (s.headroomReads p v).mem = s.mem := by
  have scale := s.checkReg_touches_of_ne (setOf p) (it := .scale) (by decide)
  have words (u : State) := u.checkRegs_touches_of_ne (setOf p) (items := allQuantityWords) (rebase_notMem_quantityWords _)
  unfold State.headroomReads
  dsimp only
  split
  · exact ((words _).mem (by decide)).trans (scale.mem (by decide))
  · exact scale.mem (by decide)

theorem State.takeSetPoint_repliesIn : s.RepliesIn (s.takeSetPoint k) (· = k) := by
  have reads (p : PointId) (v : Fin 4) : s.RepliesIn (s.headroomReads p v) (· = k) := .of_mem (s.headroomReads_mem p v) _
  have written (u : State) (p : PointId) (r : PointRequest) : u.RepliesIn (u.writePoint p r) (· = k) :=
    .of_mem ((u.writePoint_touches p r).mem (by decide)) _
  unfold State.takeSetPoint
  dsimp only
  split
  · split
    · unfold State.judgePoint
      split
      · exact s.finishPoint_repliesIn k _ _ _
      · split
        · exact s.finishPoint_repliesIn k _ _ _
        · dsimp only
          split
          · exact (reads _ _).trans (State.finishPoint_repliesIn _ k _ _ _)
          · exact ((reads _ _).trans (written _ _ _)).trans (State.finishPoint_repliesIn _ k _ _ _)
    · exact s.finishPoint_repliesIn k _ _ _
  · exact s.refuse_repliesIn k _

theorem State.takeSetBank_repliesIn : s.RepliesIn (s.takeSetBank k) (· = k) := by
  unfold State.takeSetBank
  dsimp only
  split
  · split
    · exact s.refuse_repliesIn k _
    · exact .trans (.of_mem (State.putBank_mem s _ _) _) (State.done_repliesIn _ k (by simp))
  · exact s.refuse_repliesIn k _

theorem State.doneTiming_repliesIn (n : Nat) : s.RepliesIn (s.doneTiming k n) (· = k) :=
  s.done_repliesIn k (by simp [State.timingEcho_length])

theorem State.takeSetTiming_repliesIn : s.RepliesIn (s.takeSetTiming k) (· = k) := by
  unfold State.takeSetTiming
  split
  next r _ => exact .trans (.of_mem ((s.writeTiming_touches r).mem (by decide)) _) (State.doneTiming_repliesIn _ k _)
  · exact s.refuse_repliesIn k _

theorem State.takeStart_repliesIn : s.RepliesIn (s.takeStart k) (· = k) := by
  unfold State.takeStart
  split
  next r _ =>
    split
    · exact s.refuse_repliesIn k _
    · have opened := State.Touches.foldl State.openBank_touches s.stoppedBanks (s.writeTiming r)
      have mem := (opened.mem (by decide)).trans ((s.writeTiming_touches r).mem (by decide))
      exact .trans (.of_mem mem _) (State.doneTiming_repliesIn _ k _)
  · exact s.refuse_repliesIn k _

theorem State.deferredCloses_repliesIn (w : Work) (n : Nat) (bs : List BankId) (cause : Causes) (why : SlotId × WaitCause) :
    s.RepliesIn ((s.defer k w n).askBanks bs cause why) (· = k) :=
  (s.defer_repliesIn k w n).trans (.of_mem ((State.askBanks_touches _ bs cause why).mem (by decide)) _)

theorem State.takeStop_repliesIn : s.RepliesIn (s.takeStop k) (· = k) := by
  unfold State.takeStop
  split
  next r _ =>
    split
    · exact s.refuse_repliesIn k _
    · exact .trans (.of_mem ((s.writeTiming_touches r).mem (by decide)) _) (State.deferredCloses_repliesIn _ k _ _ _ _ _)
  · exact s.refuse_repliesIn k _

theorem State.takeClose_repliesIn : s.RepliesIn (s.takeClose k) (· = k) := by
  have closes (kind : BankWork) (bs : List BankId) : s.RepliesIn (s.closeBanks k kind bs) (· = k) := by
    unfold State.closeBanks
    exact s.deferredCloses_repliesIn k _ _ _ _ _
  unfold State.takeClose
  dsimp only
  split
  · exact s.refuse_repliesIn k _
  · split
    · split
      · exact s.refuse_repliesIn k _
      · exact closes _ _
    · split
      · split
        · exact closes _ _
        · exact s.refuse_repliesIn k _
      · exact s.refuse_repliesIn k _

theorem State.takeReadOpen_repliesIn : s.RepliesIn (s.takeReadOpen k) (· = k) := by
  unfold State.takeReadOpen
  dsimp only
  split
  · split
    next hcount =>
      split
      · unfold State.readSet
        dsimp only
        refine .trans (.of_mem ((s.checkAccs_touches _ _ _).mem (by decide)) _) (State.done_repliesIn _ k ?_)
        exact readSet_data_length hcount.2.1
      · exact s.refuse_repliesIn k _
    · exact s.refuse_repliesIn k _
  · exact s.refuse_repliesIn k _

theorem State.judgeRead_repliesIn (size : Nat) {read : SetId → Nat → Nat → State}
    (h : ∀ p first count, count ≤ 20 → s.RepliesIn (read p first count) (· = k)) :
    s.RepliesIn (s.judgeRead k size read) (· = k) := by
  unfold State.judgeRead
  dsimp only
  split
  · split
    next hcount => exact h _ _ _ hcount.2.1
    · exact s.refuse_repliesIn k _
  · exact s.refuse_repliesIn k _

theorem State.takeReadRegisters_repliesIn : s.RepliesIn (s.takeReadRegisters k) (· = k) := by
  refine s.judgeRead_repliesIn k _ fun p first count hcount => ?_
  have read := s.checkRegs_touches_of_ne p (items := [.scale, .lastFolded] ++ (quantityRange first count).flatMap quantityWords)
    fun h => rebase_notMem_quantityWords _ ((List.mem_append.mp h).resolve_left (by decide))
  unfold State.readQuantities
  refine .trans (.of_mem (read.mem (by decide)) _) (State.done_repliesIn _ k ?_)
  dsimp only
  rw [RegisterSet.bytes_length]
  omega

theorem State.takeReadRegistersNet_repliesIn : s.RepliesIn (s.takeReadRegistersNet k) (· = k) := by
  refine s.judgeRead_repliesIn k _ fun p first count hcount => ?_
  have read := s.checkRegs_touches_of_ne p (items := [.scale, .lastFolded] ++ netWords first count)
    fun h => rebase_notMem_netWords _ _ ((List.mem_append.mp h).resolve_left (by decide))
  unfold State.readNet
  refine .trans (.of_mem (read.mem (by decide)) _) (State.done_repliesIn _ k ?_)
  dsimp only
  rw [RegisterSet.netBytes_length]
  omega

theorem State.takeRebase_repliesIn : s.RepliesIn (s.takeRebase k) fun j => j = k ∨ ∃ p, s.RebaseSlot p j := by
  have refused (u : State) (r : Reason) : u.RepliesIn (u.refuse k r) fun j => j = k ∨ ∃ p, s.RebaseSlot p j :=
    (u.refuse_repliesIn k r).mono fun j hj => Or.inl hj
  have held (u : State) (p : SetId) (values : List Nat) :
      u.RepliesIn (u.holdRebase k p values) fun j => j = k ∨ ∃ p, s.RebaseSlot p j := by
    intro a ha
    rw [State.holdRebase_eq, State.regWritten_mem, State.putRegs_mem]
    exact u.defer_repliesIn k _ _ a fun j hin hj => ha j hin (Or.inl hj)
  have checked (p : SetId) : s.RepliesIn (s.checkReg p .rebase) fun j => j = k ∨ ∃ p, s.RebaseSlot p j :=
    (s.checkReg_repliesIn p .rebase).mono fun j hj => Or.inr ⟨p, hj⟩
  unfold State.takeRebase
  dsimp only
  split
  · split
    · split
      · exact refused s _
      · split
        · exact (checked _).trans (refused _ _)
        · exact (checked _).trans (held _ _ _)
    · exact refused s _
  · exact refused s _

theorem State.cancelSlot_repliesIn (i : SlotId) :
    s.RepliesIn (s.cancelSlot k i) fun j => j = k ∨ j ∈ s.requests.table.map PendingEntry.slot := by
  have done (u : State) {r : Reply} (h : r.data.length ≤ 320) :
      u.RepliesIn (u.done k r) fun j => j = k ∨ j ∈ s.requests.table.map PendingEntry.slot :=
    (u.done_repliesIn k h).mono fun j hj => Or.inl hj
  unfold State.cancelSlot
  dsimp only
  split
  next x hx =>
    obtain ⟨y, hy, -⟩ := Option.bind_eq_some_iff.mp hx
    have hslot := beq_iff_eq.mp (List.find?_some (p := fun f : PendingEntry => f.slot == i) hy)
    have entry := List.mem_map_of_mem (f := PendingEntry.slot) (List.mem_of_find?_eq_some hy)
    rw [hslot] at entry
    have withdrawn : s.RepliesIn (s.withdraw i x.work) fun j => j = k ∨ j ∈ s.requests.table.map PendingEntry.slot :=
      .of_mem ((s.withdraw_touches i x.work).mem (by decide)) _
    refine (withdrawn.trans ?_).trans (done _ (by simp [cancelBytes_length]))
    exact (State.endDeferred_repliesIn _ i _ _ _ _ _ (by simp)).mono fun j hj => Or.inr (hj ▸ entry)
  · exact done s (by simp [cancelBytes_length])

theorem State.takeCancel_repliesIn :
    s.RepliesIn (s.takeCancel k) fun j => j = k ∨ j ∈ s.requests.table.map PendingEntry.slot := by
  unfold State.takeCancel
  dsimp only
  split
  · exact s.cancelSlot_repliesIn k _
  · exact (s.refuse_repliesIn k _).mono fun j hj => Or.inl hj

theorem State.takeLink_repliesIn (a : LinkAction) : s.RepliesIn (s.takeLink a k) (· = k) := by
  unfold State.takeLink
  dsimp only
  split
  · exact .trans (.of_mem ((s.linkAction_touches _ a).mem (by decide)) _) (State.done_repliesIn _ k (by simp [linkBytes_length]))
  · exact s.refuse_repliesIn k _

theorem State.takeReadCapture_repliesIn (clear : Bool) :
    s.RepliesIn ((if clear then State.takeReadCaptureClear else State.takeReadCapture) s k) (· = k) := by
  by_cases h : s.optionWord k ≤ 1
  · rw [State.takeReadCapture_of_good h]
    have taken : s.RepliesIn (s.captureTaken clear) (· = k) := by
      cases clear
      · exact .of_mem rfl _
      · exact .of_mem rfl _
    exact taken.trans (State.finish_repliesIn _ k _ (by simp [captureReply, captureBytes_length]))
  · rw [State.takeReadCapture_of_badParam (by omega)]
    exact s.refuse_repliesIn k _

end

end Sys2Proof.Machine
end

section
/-! SUPPORT. The frame of the eighteen request takes. -/

namespace Sys2Proof.Machine

/-- The commands that take a request. -/
def Instr.takes : List Instr := [Instr.badKind, .setPoint, .setBank, .setTiming, .start, .stop, .close, .readOpen, .readRegisters,
  .readRegistersNet, .rebase, .cancel, .linkControlEnable, .linkControlDisable, .linkControlReset, .linkControlClear,
  .readCapture, .readCaptureClear]

/-! ### Replies -/

theorem State.take_repliesIn {s : State} {k : SlotId} {rest : List SlotId} (hk : s.requests.intake = k :: rest) (row : Row)
    {carry : State → SlotId → State} {slots : SlotId → Prop}
    (h : (s.beginTake k rest).RepliesIn (carry (s.beginTake k rest) k) slots) : s.RepliesIn (s.take row carry) slots := by
  unfold State.take
  rw [hk]
  dsimp only
  split
  · exact .trans (.of_mem (s.beginTake_mem k rest) _) h
  · exact .of_mem rfl _

/-- A take writes the reply area of its slot, and those of TAKEN slots that it ends (R110, R146, R177). -/
theorem takes_repliesIn {c : Instr} (hc : c ∈ Instr.takes) {s : State} (hs : s.RequestsOk) {k : SlotId} {rest : List SlotId}
    (hk : s.requests.intake = k :: rest) :
    s.RepliesIn (commandEffect c s) fun j => j = k ∨ s.requests.slots[j] = .taken := by
  obtain ⟨-, -, -, htaken, -, hrebase, -⟩ := hs
  have own {u v : State} (h : u.RepliesIn v (· = k)) : u.RepliesIn v fun j => j = k ∨ s.requests.slots[j] = .taken :=
    h.mono fun j hj => Or.inl hj
  have take (row : Row) {carry : State → SlotId → State} (h : ∀ u : State, u.RepliesIn (carry u k) (· = k)) :
      s.RepliesIn (s.take row carry) fun j => j = k ∨ s.requests.slots[j] = .taken := State.take_repliesIn hk row (own (h _))
  have cancel : s.RepliesIn (s.take .cancel State.takeCancel) fun j => j = k ∨ s.requests.slots[j] = .taken := by
    refine State.take_repliesIn hk _ ((State.takeCancel_repliesIn _ k).mono fun j hj => hj.imp_right fun hmem => ?_)
    rw [State.beginTake_requests] at hmem
    exact (htaken j).mp hmem
  have rebase : s.RepliesIn (s.take .rebase State.takeRebase) fun j => j = k ∨ s.requests.slots[j] = .taken := by
    refine State.take_repliesIn hk _ ((State.takeRebase_repliesIn _ k).mono fun j hj => hj.imp_right fun ⟨p, x, hx, hslot⟩ => ?_)
    rw [State.beginTake_regs] at hx
    exact (htaken j).mp (hslot ▸ List.mem_map_of_mem (f := PendingEntry.slot) (hrebase p x hx))
  simp only [Instr.takes, List.mem_cons, List.not_mem_nil, or_false] at hc
  rcases hc with rfl | rfl | rfl | rfl | rfl | rfl | rfl | rfl | rfl | rfl | rfl | rfl | rfl | rfl | rfl | rfl | rfl | rfl
  · exact take _ fun u => u.refuse_repliesIn k _
  · exact take _ fun u => u.takeSetPoint_repliesIn k
  · exact take _ fun u => u.takeSetBank_repliesIn k
  · exact take _ fun u => u.takeSetTiming_repliesIn k
  · exact take _ fun u => u.takeStart_repliesIn k
  · exact take _ fun u => u.takeStop_repliesIn k
  · exact take _ fun u => u.takeClose_repliesIn k
  · exact take _ fun u => u.takeReadOpen_repliesIn k
  · exact take _ fun u => u.takeReadRegisters_repliesIn k
  · exact take _ fun u => u.takeReadRegistersNet_repliesIn k
  · exact rebase
  · exact cancel
  · exact take _ fun u => u.takeLink_repliesIn k _
  · exact take _ fun u => u.takeLink_repliesIn k _
  · exact take _ fun u => u.takeLink_repliesIn k _
  · exact take _ fun u => u.takeLink_repliesIn k _
  · exact take _ fun u => u.takeReadCapture_repliesIn k false
  · exact take _ fun u => u.takeReadCapture_repliesIn k true

/-! ### The alignment queue under a SET_POINT -/

/-- Both queues hold the same sequences in the same places. -/
def State.SameSeqs (s t : State) : Prop := t.sorter.queue.map Entry.seq = s.sorter.queue.map Entry.seq

theorem State.SameSeqs.of_touches {s t : State} {ps : List Part} (h : s.Touches ps t) (hp : Part.queue ∉ ps) : s.SameSeqs t :=
  congrArg (List.map Entry.seq) (h.same (p := .queue) hp)

theorem State.SameSeqs.trans {s t u : State} (h : s.SameSeqs t) (h' : t.SameSeqs u) : s.SameSeqs u := Eq.trans h' h

theorem State.markChange_sameSeqs (s : State) (p : PointId) : s.SameSeqs (s.markChange p) := by
  unfold State.SameSeqs State.markChange
  dsimp only
  rw [List.map_map]
  refine List.map_congr_left fun e _ => ?_
  rw [Function.comp_apply]
  split
  · rfl
  · rfl

theorem State.writePoint_sameSeqs (s : State) (p : PointId) (r : PointRequest) : s.SameSeqs (s.writePoint p r) := by
  unfold State.SameSeqs
  rw [State.writePoint_sorter]
  unfold State.marked
  split
  · rfl
  · exact s.markChange_sameSeqs p

theorem State.takeSetPoint_sameSeqs (s : State) (k : SlotId) : s.SameSeqs (s.takeSetPoint k) := by
  have finish (u : State) (p : PointId) (st : SlotState) (r : Reply) : u.SameSeqs (u.finishPoint k p st r) :=
    .of_touches (u.finishPoint_touches k p st r) (by decide)
  have reads (p : PointId) (v : Fin 4) : s.SameSeqs (s.headroomReads p v) :=
    .of_touches (s.headroomReads_touches p v) (by decide)
  unfold State.takeSetPoint
  dsimp only
  split
  · split
    · unfold State.judgePoint
      split
      · exact finish s _ _ _
      · split
        · exact finish s _ _ _
        · dsimp only
          split
          · exact (reads _ _).trans (finish _ _ _ _)
          · exact ((reads _ _).trans (State.writePoint_sameSeqs _ _ _)).trans (finish _ _ _ _)
    · exact finish s _ _ _
  · exact .of_touches (s.refuse_touches k _) (by decide)

theorem takeSetPoint_sameSeqs (s : State) : s.SameSeqs (commandEffect .setPoint s) := by
  change s.SameSeqs (s.take .setPoint State.takeSetPoint)
  unfold State.take
  split
  next k rest _ =>
    split
    · exact .trans (.of_touches (s.beginTake_touches k rest) (by decide)) (State.takeSetPoint_sameSeqs _ k)
    · rfl
  · rfl

/-! ### The frame -/

/-- The parts that no take touches. -/
def Part.outsideTakes : List Part :=
  [.control, .ld, .writer, .exceptions, .watches, .bankCounters, .mask, .owner, .ownerCount, .tagCount, .lastHanded]

theorem takes_leave : ∀ c ∈ Instr.takes,
    (∀ p ∈ Part.outsideTakes, p ∉ commandParts c) ∧
    (c ∉ [Instr.linkControlEnable, .linkControlDisable, .linkControlReset, .linkControlClear] → .links ∉ commandParts c) ∧
    (c ∉ [Instr.setPoint, .setTiming, .start, .stop] → ∀ p ∈ Part.ofSorter, p ∉ commandParts c) ∧
    (c ∉ [Instr.setPoint, .start, .stop, .close] → .profiles ∉ commandParts c) ∧
    (c ≠ .setPoint → .queue ∉ commandParts c) := by
  decide

/-- Settles O58: frame, replies, the queue. -/
theorem requestTakesFrame : Obligations.RequestTakesFrame := by
  intro c s t k rest hm hs hk hc hexec
  have touches := exec_touches hexec
  obtain ⟨hleave, hlinks, hsorter, hprofiles, hqueue⟩ := takes_leave c hc
  have same (p : Part) (hp : p ∈ Part.outsideTakes) : p.Same s t := touches.same (hleave p hp)
  refine ⟨same .control (by decide), same .ld (by decide), same .writer (by decide), same .exceptions (by decide),
    same .watches (by decide), same .bankCounters (by decide), same .mask (by decide), same .owner (by decide),
    same .ownerCount (by decide), same .tagCount (by decide), same .lastHanded (by decide), ?_,
    fun h => touches.links (hlinks h), fun h => touches.sorter (hsorter h), fun h => touches.profiles (hprofiles h), ?_⟩
  · by_cases h : c = .setPoint
    · subst h
      rcases exec_next_cases hexec with rfl | rfl
      · rfl
      · exact takeSetPoint_sameSeqs s
    · exact State.SameSeqs.of_touches touches (hqueue h)
  · have replies : s.RepliesIn t fun j => j = k ∨ s.requests.slots[j] = .taken := by
      rcases exec_next_cases hexec with rfl | rfl
      · exact .of_mem rfl _
      · exact takes_repliesIn hc hs hk
    exact fun a ha => replies a fun j hj hslot => hslot.elim (fun heq => (ha j hj).1 heq) fun htaken => (ha j hj).2 htaken

end Sys2Proof.Machine
end

section
/-! SUPPORT. Copies of exchange memory in violation records, and the pushes that carry them (R134, R137, R138). -/

namespace Sys2Proof.Machine

/-! ### Words that no check rewrites -/

/-- A word that both states read alike: its value and its error mark, a single-bit error perhaps corrected. -/
def State.SameRead (s t : State) (w : Nat) : Prop :=
  t.word w = s.word w ∧
    (t.ecc.exchange.lookup w = s.ecc.exchange.lookup w ∨
      s.ecc.exchange.lookup w = some .single ∧ t.ecc.exchange.lookup w = none)

namespace State.SameRead

variable {s t u : State} {w : Nat}

theorem refl (s : State) (w : Nat) : s.SameRead s w := ⟨rfl, Or.inl rfl⟩

theorem trans (h : s.SameRead t w) (h' : t.SameRead u w) : s.SameRead u w := by
  obtain ⟨hw, he⟩ := h
  obtain ⟨hw', he'⟩ := h'
  refine ⟨hw'.trans hw, ?_⟩
  rcases he with he | ⟨hs, ht⟩
  · rw [he] at he'
    exact he'
  · refine Or.inr ⟨hs, ?_⟩
    rcases he' with he' | ⟨-, hu⟩
    · exact he'.trans ht
    · exact hu

theorem wordAsRead (h : s.SameRead t w) : t.wordAsRead w = s.wordAsRead w := by
  obtain ⟨hw, he⟩ := h
  unfold State.wordAsRead
  rw [hw]
  rcases he with he | ⟨hs, ht⟩
  · rw [he]
  · rw [hs, ht]

end State.SameRead

/-- The images behind the header page's counters depend on slot tags and exception records alone. -/
theorem State.imageWord_of_steady {s t : State} (hr : t.requests = s.requests) (he : t.exceptions = s.exceptions) {w : Nat}
    (hw : 161 ≤ w) : t.imageWord w = s.imageWord w := by
  unfold State.imageWord
  rw [hr, he, s.headerWord_unused (by omega), t.headerWord_unused (by omega)]

theorem State.SameRead.of_steady {s t : State} (hr : t.requests = s.requests) (he : t.exceptions = s.exceptions)
    (hm : t.mem = s.mem) {w : Nat} (hw : 161 ≤ w)
    (hmarks : t.ecc.exchange.lookup w = s.ecc.exchange.lookup w ∨
      s.ecc.exchange.lookup w = some .single ∧ t.ecc.exchange.lookup w = none) : s.SameRead t w := by
  refine ⟨?_, hmarks⟩
  unfold State.word
  rw [State.imageWord_of_steady hr he hw, hm]

theorem State.SameRead.putWatchCounters (s : State) (x : WatchCounters) {w : Nat} (hw : 161 ≤ w) :
    s.SameRead (s.putWatchCounters x) w := by
  refine .of_steady (s := s) (t := s.putWatchCounters x) rfl rfl rfl hw (Or.inl ?_)
  have same : State.imageWord { s with watchCounters := x } w = s.imageWord w :=
    State.imageWord_of_steady (s := s) (t := { s with watchCounters := x }) rfl rfl hw
  unfold State.putWatchCounters
  rw [State.rewrite_lookup, if_pos same.symm]

theorem State.SameRead.checkWord (s : State) (v : Nat) {w : Nat} (hw : 161 ≤ w) : s.SameRead (s.checkWord v) w := by
  unfold State.checkWord
  split
  · exact refl s w
  next hsingle =>
    have written : s.SameRead (s.wordsWritten v (v + 1)) w := by
      refine .of_steady (s := s) (t := s.wordsWritten v (v + 1)) rfl rfl rfl hw ?_
      rw [State.wordsWritten_lookup]
      split
      next hv =>
        obtain rfl : w = v := by omega
        exact Or.inr ⟨hsingle, rfl⟩
      · exact Or.inl rfl
    exact written.trans (.putWatchCounters _ _ hw)
  · have put (c : Option Capture) : s.SameRead (s.putCapture c) w := by
      refine .of_steady (s := s) (t := s.putCapture c) rfl rfl rfl hw (Or.inl ?_)
      unfold State.putCapture
      rw [State.wordsWritten_lookup, if_neg (by omega)]
    unfold State.report
    split
    · exact (put _).trans (.of_steady rfl rfl rfl hw (Or.inl rfl))
    · exact put _

/-! ### The copy of eight words -/

/-- One word more of a copy (R138). -/
def copyStep (w : Nat) (acc : List Word × State) (j : Nat) : List Word × State :=
  (acc.1 ++ [acc.2.wordAsRead (w + j)], acc.2.checkWord (w + j))

theorem State.copyBlock_eq (s : State) (w : Nat) : s.copyBlock w =
    (tabulate 8 fun j => ((List.range 8).foldl (copyStep w) ([], s)).1.getD j.val 0,
      ((List.range 8).foldl (copyStep w) ([], s)).2) := by
  unfold State.copyBlock copyStep
  dsimp only

theorem foldl_copyStep_steady {s : State} {w : Nat} (hw : 161 ≤ w) (js : List Nat) (acc : List Word × State)
    (h : ∀ j, s.SameRead acc.2 (w + j)) :
    (js.foldl (copyStep w) acc).1 = acc.1 ++ js.map fun j => s.wordAsRead (w + j) := by
  induction js generalizing acc with
  | nil => simp
  | cons i js ih =>
    rw [List.foldl_cons, ih (copyStep w acc i) fun j => (h j).trans (State.SameRead.checkWord acc.2 (w + i) (by omega))]
    unfold copyStep
    rw [(h i).wordAsRead]
    simp

theorem foldl_copyStep_clean {w : Nat} (js : List Nat) (acc : List Word × State)
    (h : ∀ j ∈ js, acc.2.ecc.exchange.lookup (w + j) = none) :
    (js.foldl (copyStep w) acc).1 = acc.1 ++ js.map fun j => acc.2.word (w + j) := by
  induction js generalizing acc with
  | nil => simp
  | cons i js ih =>
    have clean := h i List.mem_cons_self
    have step : copyStep w acc i = (acc.1 ++ [acc.2.word (w + i)], acc.2) := by
      unfold copyStep State.wordAsRead
      rw [State.checkWord_of_clean clean, clean]
    rw [List.foldl_cons, step, ih (acc.1 ++ [acc.2.word (w + i)], acc.2) fun j hj => h j (List.mem_cons_of_mem i hj)]
    simp

theorem getD_map_range_eight (f : Nat → Word) (j : Fin 8) : (([] : List Word) ++ (List.range 8).map f).getD j.val 0 = f j.val := by
  rw [List.nil_append, List.getD_eq_getElem?_getD, List.getElem?_map, List.getElem?_range j.isLt]
  rfl

/-- Words behind the counters are copied as a reader finds them. -/
theorem State.copyBlock_of_steady (s : State) {w : Nat} (hw : 161 ≤ w) (j : Fin 8) :
    (s.copyBlock w).1[j] = s.wordAsRead (w + j.val) := by
  rw [State.copyBlock_eq, foldl_copyStep_steady (s := s) hw (List.range 8) ([], s) fun j => .refl s (w + j)]
  simp only [getElem_fin_tabulate]
  exact getD_map_range_eight _ j

/-- Words without errors are copied as they are. -/
theorem State.copyBlock_of_clean {s : State} {w : Nat} (h : ∀ j : Fin 8, s.ecc.exchange.lookup (w + j.val) = none) (j : Fin 8) :
    (s.copyBlock w).1[j] = s.word (w + j.val) := by
  rw [State.copyBlock_eq, foldl_copyStep_clean (List.range 8) ([], s) fun i hi => h ⟨i, List.mem_range.mp hi⟩]
  simp only [getElem_fin_tabulate]
  exact getD_map_range_eight _ j

/-! ### Pushes -/

theorem State.push_latches (s : State) (k : ExceptionKind) (a b c d : Word) (v : Vector Word 8) :
    (s.push k a b c d v).latched .exception = true := by
  have latched := State.latch_latched s .exception
  unfold State.latched at latched ⊢
  rw [State.push_latched]
  exact latched

/-- The record of a push into a stack with room (R181, R185). -/
theorem State.push_record {s : State} {n : Fin 64} (h : s.exceptions.top = n.val + 1) (k : ExceptionKind) (a b c d : Word)
    (v : Vector Word 8) : (s.push k a b c d v).exceptions.top = n.val ∧
      (s.push k a b c d v).exceptions.records[n] =
        { tag := .new
          kind := k.code
          lostAfter := 0
          lastHanded := seqWord s.sorter.lastHanded
          summary := s.bankSummary
          subject := a
          d0 := b
          d1 := c
          d2 := d
          copy := v } := by
  rw [State.push_exceptions_of_room s k a b c d v n h]
  exact ⟨rfl, getElem_fin_set_self _ _ _⟩

theorem State.push_lost {s : State} (h : s.exceptions.top = 0) (k : ExceptionKind) (a b c d : Word) (v : Vector Word 8) :
    (s.push k a b c d v).exceptions.lost = s.exceptions.lost + 1 :=
  (State.push_exceptions_of_full s k a b c d v h).1

end Sys2Proof.Machine
end

section
/-! SUPPORT. HOST_WRITE of an ordinary word (R132 to R134, R138). -/

namespace Sys2Proof.Machine

/-! ### Words of memory, byte by byte -/

theorem Memory.word_extractLsb' (m : Memory) (a : Nat) (j : Fin 4) :
    (m.word a).extractLsb' (8 * j.val) 8 = m.read (a + j.val) := by
  have bounds (i : Nat) : (m.read (a + i)).toNat < 256 := (m.read (a + i)).isLt
  have h0 := bounds 0
  have h1 := bounds 1
  have h2 := bounds 2
  have h3 := bounds 3
  have value : (m.word a).toNat = (m.read (a + 0)).toNat + 256 * ((m.read (a + 1)).toNat + 256 * ((m.read (a + 2)).toNat +
      256 * (m.read (a + 3)).toNat)) := by
    change (leValue [m.read (a + 0), m.read (a + 1), m.read (a + 2), m.read (a + 3)]) % 2 ^ 32 = _
    simp only [leValue]
    omega
  apply BitVec.eq_of_toNat_eq
  rw [BitVec.extractLsb'_toNat, value, Nat.shiftRight_eq_div_pow]
  fin_cases j <;> dsimp only <;> omega

theorem mergeBytes_length (old data : Word) (be : BitVec 4) : (mergeBytes old data be).length = 4 := rfl

theorem mergeBytes_getElem (old data : Word) (be : BitVec 4) (j : Fin 4) :
    (mergeBytes old data be)[j.val]'(by rw [mergeBytes_length]; exact j.isLt) =
      if be.getLsbD j.val = true then data.extractLsb' (8 * j.val) 8 else old.extractLsb' (8 * j.val) 8 := by
  unfold mergeBytes
  rw [List.getElem_map, List.getElem_finRange]
  rfl

/-- A write with all four bytes enabled stores the word written. -/
theorem mergeBytes_all (old data : Word) : mergeBytes old data 15 = wordBytes data := by
  have byte (i : Nat) : data.extractLsb' (8 * i) 8 = BitVec.ofNat 8 (data.toNat / 2 ^ (8 * i) % 256) := by
    apply BitVec.eq_of_toNat_eq
    rw [BitVec.extractLsb'_toNat, Nat.shiftRight_eq_div_pow, BitVec.toNat_ofNat, Nat.mod_mod]
  change [data.extractLsb' (8 * 0) 8, data.extractLsb' (8 * 1) 8, data.extractLsb' (8 * 2) 8, data.extractLsb' (8 * 3) 8] = _
  rw [byte, byte, byte, byte]
  simp only [wordBytes, leBytes, Nat.div_div_eq_div_mul]
  norm_num

/-- The word that a host write merges with (R133, R138). -/
def State.mergedWord (s : State) (w : Nat) : Word := if s.badWord w then 0 else s.word w

theorem State.storeWord_mem (s : State) (w : Nat) (data : Word) (be : BitVec 4) :
    (s.storeWord w data be).mem = s.mem.writeBytes (4 * w) (mergeBytes (s.mergedWord w) data be) := by
  unfold State.storeWord
  split
  next full =>
    subst full
    rw [mergeBytes_all]
    rfl
  · change Memory.writeBytes (s.checkWord w).mem (4 * w) _ = _
    rw [(s.checkWord_checked w).touches.mem (by decide)]
    rfl

theorem State.mergedWord_byte {s : State} {w : Nat} (h : ordinaryWord w) (j : Fin 4) :
    (s.mergedWord w).extractLsb' (8 * j.val) 8 = if s.badWord w = true then 0 else s.mem.read (4 * w + j.val) := by
  unfold State.mergedWord
  split
  · simp
  · rw [State.word_of_ordinary s h, Memory.word_extractLsb']

/-! ### Owners -/

/-- A word that the host owns and that guards nothing is ordinary (R128, R131). -/
theorem ordinaryWord_of_owned {s : State} {la : BitVec 16} (hg : guardedAt la = none) (ho : s.hostOwns (areaAt la) = true) :
    ordinaryWord la.toNat := by
  unfold guardedAt at hg
  dsimp only at hg
  unfold areaAt at ho
  split at ho
  · cases ho
  split at ho
  next hslot =>
    refine ⟨by omega, fun _ hmod => ?_, Or.inl hslot⟩
    split at hg
    · cases hg
    rw [dif_pos ⟨by omega, hslot, hmod⟩] at hg
    cases hg
  split at ho
  · cases ho
  · exact ⟨by omega, fun h => by omega, Or.inr (by omega)⟩

/-! ### Violations -/

/-- A violation's record: the copied block read, then the push (R134, R137). -/
def State.violation (s : State) (w : Nat) (k : ExceptionKind) (a b c d : Word) : State :=
  (s.copyBlock w).2.push k a b c d (s.copyBlock w).1

theorem State.violation_touches (s : State) (w : Nat) (k : ExceptionKind) (a b c d : Word) :
    s.Touches [.exceptions, .latched, .capture, .corrected, .exchangeMarks] (s.violation w k a b c d) :=
  ((State.copyBlock_touches s w).mono (by decide)).trans ((State.push_touches _ _ _ _ _ _ _).mono (by decide))

theorem State.violation_latches (s : State) (w : Nat) (k : ExceptionKind) (a b c d : Word) :
    (s.violation w k a b c d).latched .exception = true := State.push_latches _ _ _ _ _ _ _

theorem State.violation_lost {s : State} (h : s.exceptions.top = 0) (w : Nat) (k : ExceptionKind) (a b c d : Word) :
    (s.violation w k a b c d).exceptions.lost = s.exceptions.lost + 1 := by
  have same := (State.copyBlock_touches s w).exceptions (by decide)
  unfold State.violation
  rw [State.push_lost (by rw [same]; exact h), same]

theorem State.violation_record {s : State} {n : Fin 64} (h : s.exceptions.top = n.val + 1) (w : Nat) (k : ExceptionKind)
    (a b c d : Word) : (s.violation w k a b c d).exceptions.top = n.val ∧
      ∃ r, (s.violation w k a b c d).exceptions.records[n] = r ∧ r.tag = .new ∧ r.kind = k.code ∧ r.subject = a ∧
        r.d0 = b ∧ r.d1 = c ∧ r.d2 = d ∧ r.copy = (s.copyBlock w).1 := by
  have same := (State.copyBlock_touches s w).exceptions (by decide)
  unfold State.violation
  obtain ⟨top, record⟩ := State.push_record (by rw [same]; exact h) k a b c d (s.copyBlock w).1
  exact ⟨top, _, record, rfl, rfl, rfl, rfl, rfl, rfl, rfl⟩

/-- The count of an owner violation and the OWNER notice (R134). -/
def State.ownerCounted (s : State) : State :=
  { s.putWatchCounters { s.watchCounters with owner := s.watchCounters.owner + 1 } with
    notices := { s.notices with owner := true } }

theorem State.ownerViolation_of_noticed {s : State} (h : s.notices.owner = true) (la : BitVec 16) (data : Word)
    (be : BitVec 4) : s.ownerViolation la data be = s.ownerCounted := by
  unfold State.ownerViolation
  rw [h]
  exact if_neg Bool.false_ne_true

theorem State.ownerViolation_of_first {s : State} (h : s.notices.owner = false) (la : BitVec 16) (data : Word)
    (be : BitVec 4) : s.ownerViolation la data be = s.ownerCounted.violation (8 * (la.toNat / 8)) .ownerViolation
      (BitVec.ofNat 32 (areaAt la).subject) (violationDetail la be) data 0 := by
  unfold State.ownerViolation
  rw [h]
  exact if_pos rfl

theorem State.ownerCounted_touches (s : State) : s.Touches [.ownerCount, .owner, .exchangeMarks] s.ownerCounted := .of_eq _ rfl

theorem State.ownerCounted_sameRead (s : State) {w : Nat} (hw : 161 ≤ w) : s.SameRead s.ownerCounted w :=
  (State.SameRead.putWatchCounters s _ hw).trans (.of_steady rfl rfl rfl hw (Or.inl rfl))

theorem State.ownerCounted_clean {s : State} {w : Nat} (h : s.ecc.exchange.lookup w = none) :
    s.ownerCounted.ecc.exchange.lookup w = none := by
  unfold State.ownerCounted State.putWatchCounters
  dsimp only
  rw [State.rewrite_lookup]
  split
  · exact h
  · rfl

/-- No word shows the error marks or the notices. -/
theorem State.word_noticed (s : State) (e : Ecc) (x : Notices) (w : Nat) :
    State.word { s with ecc := e, notices := x } w = s.word w := by
  unfold State.word State.imageWord
  rw [State.headerWord_congr (s := s) (t := { s with ecc := e, notices := x }) rfl rfl rfl rfl rfl rfl rfl rfl w]

theorem State.ownerCounted_word (s : State) (w : Nat) : s.ownerCounted.word w =
    ({ s with watchCounters := { s.watchCounters with owner := s.watchCounters.owner + 1 } } : State).word w :=
  State.word_noticed { s with watchCounters := { s.watchCounters with owner := s.watchCounters.owner + 1 } }
    s.ownerCounted.ecc s.ownerCounted.notices w

theorem State.hostWrite_of_owned {s : State} {la : BitVec 16} {be : BitVec 4} (hg : guardedAt la = none) (hb : be ≠ 0)
    (ho : s.hostOwns (areaAt la) = true) (data : Word) : s.hostWrite la data be = s.storeWord la.toNat data be := by
  unfold State.hostWrite
  rw [if_neg hb, hg]
  exact if_pos ho

theorem State.hostWrite_of_not_owned {s : State} {la : BitVec 16} {be : BitVec 4} (hg : guardedAt la = none) (hb : be ≠ 0)
    (ho : s.hostOwns (areaAt la) = false) (data : Word) : s.hostWrite la data be = s.ownerViolation la data be := by
  unfold State.hostWrite
  rw [if_neg hb, hg]
  exact if_neg (by rw [ho]; exact Bool.false_ne_true)

theorem State.hostWrite_of_disabled (s : State) (la : BitVec 16) (data : Word) : s.hostWrite la data 0 = s := if_pos rfl

/-- Settles O44: the bytes of a host-owned word are merged in `storeWord_mem`; for any other word the first violation pushes the
block as the read check finds it, behind the counters unchanged by the count itself. -/
theorem hostWriteToOrdinaryWord : Obligations.HostWriteToOrdinaryWord := by
  intro s la data be ready memoryOk guards
  have effect : exec (.hostWrite la data be) s = .next (s.hostWrite la data be) := exec_of_ready _ ready
  refine ⟨fun none => ?_, fun some owned => ?_, fun some foreign => ?_⟩
  · rw [effect, none, State.hostWrite_of_disabled]
  · rw [State.hostWrite_of_owned guards some owned] at effect
    have touches := s.storeWord_touches la.toNat data be
    have stored := s.storeWord_mem la.toNat data be
    refine ⟨_, effect, fun j => ?_, fun a ha => ?_, touches.exceptions (by decide), touches.requests (by decide),
      touches.writer (by decide), touches.ownerCount (by decide), touches.tagCount (by decide)⟩
    · rw [stored, Memory.read_writeBytes_of_inside memoryOk.1 _ _ (by rw [mergeBytes_length]; exact j.isLt),
        mergeBytes_getElem, State.mergedWord_byte (ordinaryWord_of_owned guards owned)]
    · rw [stored, Memory.read_writeBytes_of_outside _ _ (by rw [mergeBytes_length]; exact ha)]
  · rw [State.hostWrite_of_not_owned guards some foreign] at effect
    have touches := s.ownerViolation_touches la data be
    have counted := s.ownerCounted_touches
    refine ⟨_, effect, touches.mem (by decide), touches.requests (by decide), touches.writer (by decide), ?_, ?_,
      touches.tagCount (by decide), fun noticed => ?_, fun first => ?_⟩
    · cases first : s.notices.owner
      · rw [State.ownerViolation_of_first first]
        exact (State.violation_touches _ _ _ _ _ _ _).owner (by decide)
      · rw [State.ownerViolation_of_noticed first]
        rfl
    · cases first : s.notices.owner
      · rw [State.ownerViolation_of_first first]
        exact (State.violation_touches _ _ _ _ _ _ _).ownerCount (by decide)
      · rw [State.ownerViolation_of_noticed first]
        rfl
    · rw [State.ownerViolation_of_noticed noticed]
      exact counted.exceptions (by decide)
    · rw [State.ownerViolation_of_first first]
      have same : s.ownerCounted.exceptions = s.exceptions := counted.exceptions (by decide)
      refine ⟨State.violation_latches _ _ _ _ _ _ _, fun full => ?_, fun n room => ?_⟩
      · rw [State.violation_lost (by rw [same]; exact full), same]
      · obtain ⟨top, r, record, tag, kind, subject, d0, d1, d2, copy⟩ :=
          State.violation_record (s := s.ownerCounted) (n := n) (by rw [same]; exact room) (8 * (la.toNat / 8)) .ownerViolation
            (BitVec.ofNat 32 (areaAt la).subject) (violationDetail la be) data 0
        rw [record, tag, kind, subject, d0, d1, d2, copy]
        refine ⟨top, rfl, rfl, rfl, rfl, rfl, rfl, fun behind j => ?_, fun clean j => ?_⟩
        · rw [State.copyBlock_of_steady _ (by omega), (s.ownerCounted_sameRead (by omega)).wordAsRead]
        · rw [State.copyBlock_of_clean fun i => State.ownerCounted_clean (clean i)]
          exact s.ownerCounted_word _

end Sys2Proof.Machine
end

section
/-! SUPPORT. HOST_WRITE of a guarded word (R135 to R137, R147, R157, R183). -/

namespace Sys2Proof.Machine

/-! ### Exception records -/

theorem ExceptionUnit.pop_records (n : Nat) (e : ExceptionUnit) : (e.pop n).records = e.records := by
  induction n generalizing e with
  | zero => rfl
  | succ n ih =>
    unfold ExceptionUnit.pop
    split
    · split
      · exact ih _
      · rfl
    · rfl

theorem ExceptionUnit.pop_lost (n : Nat) (e : ExceptionUnit) : (e.pop n).lost = e.lost := by
  induction n generalizing e with
  | zero => rfl
  | succ n ih =>
    unfold ExceptionUnit.pop
    split
    · split
      · exact ih _
      · rfl
    · rfl

theorem ExceptionUnit.acknowledge_tag (e : ExceptionUnit) (i : Fin 64) : (e.acknowledge i).records[i].tag = .acked := by
  rw [ExceptionUnit.acknowledge_eq, ExceptionUnit.pop_records]
  unfold ExceptionUnit.markAcked
  dsimp only
  rw [getElem_fin_set_self]

theorem ExceptionUnit.acknowledge_lost (e : ExceptionUnit) (i : Fin 64) : (e.acknowledge i).lost = e.lost := by
  rw [ExceptionUnit.acknowledge_eq, ExceptionUnit.pop_lost]
  rfl

/-- A push makes the record below the stack pointer NEW, and no other tag changes (R181, R182). -/
theorem State.push_tag (s : State) (k : ExceptionKind) (a b c d : Word) (v : Vector Word 8) (i : Fin 64) :
    (s.push k a b c d v).exceptions.records[i].tag =
      if i.val + 1 = s.exceptions.top ∧ s.exceptions.top ≤ 64 then .new else s.exceptions.records[i].tag := by
  unfold State.push
  dsimp only
  split
  next room =>
    change (s.exceptions.records.set (⟨s.exceptions.top - 1, by omega⟩ : Fin 64) _)[i].tag = _
    rw [getElem_fin_set]
    by_cases top : i.val + 1 = s.exceptions.top
    · rw [if_pos (Fin.ext (by dsimp only; omega)), if_pos ⟨top, room.2⟩]
    · rw [if_neg fun h => top (by rw [h]; dsimp only; omega), if_neg fun h => top h.1]
  next full =>
    have outside : ¬(i.val + 1 = s.exceptions.top ∧ s.exceptions.top ≤ 64) := fun h => full ⟨by omega, h.2⟩
    rw [if_neg outside]
    change (s.exceptions.records.set (0 : Fin 64) _)[i].tag = _
    rw [getElem_fin_set]
    split
    next bottom => rw [bottom]
    · rfl

/-! ### The judgement of a write -/

theorem State.hostWrite_of_guarded {s : State} {la : BitVec 16} {g : Guarded} {be : BitVec 4} (hg : guardedAt la = some g)
    (hb : be ≠ 0) (data : Word) : s.hostWrite la data be = s.guardedWrite g la data be := by
  unfold State.hostWrite
  rw [if_neg hb, hg]

theorem State.guardedWrite_of_held {s : State} {g : Guarded} {data : Word} (h : data = s.heldCode g) (la : BitVec 16) :
    s.guardedWrite g la data 15 = s := by
  unfold State.guardedWrite
  rw [if_neg (not_not.mpr rfl), if_pos h]

theorem State.guardedWrite_of_legal {s u : State} {g : Guarded} {data : Word} (h : data ≠ s.heldCode g)
    (hu : s.legalChange g data = some u) (la : BitVec 16) : s.guardedWrite g la data 15 = u := by
  unfold State.guardedWrite
  rw [if_neg (not_not.mpr rfl), if_neg h, hu]

theorem State.guardedWrite_of_violation {s : State} {g : Guarded} {data : Word} {be : BitVec 4}
    (h : be ≠ 15 ∨ data ≠ s.heldCode g ∧ s.legalChange g data = none) (la : BitVec 16) :
    s.guardedWrite g la data be = s.tagViolation g la data be := by
  unfold State.guardedWrite
  by_cases part : be ≠ 15
  · rw [if_pos part]
  · obtain ⟨changed, illegal⟩ := h.resolve_left part
    rw [if_neg part, if_neg changed, illegal]

/-- The changes that the host may make (R136). -/
theorem State.legalChange_eq_none {s : State} {g : Guarded} {data : Word}
    (hslot : ¬(∃ k, g = .slot k ∧ (s.requests.slots[k] = .free ∧ data = 1 ∨
      (s.requests.slots[k] = .done ∨ s.requests.slots[k] = .refused) ∧ data = 0)))
    (hpage : ¬(∃ p, g = .page p ∧ s.writer.pages[p] = .filled ∧ data = 3))
    (hrecord : ¬∃ i, g = .record i ∧ s.exceptions.records[i].tag = .new ∧ data = 2) : s.legalChange g data = none := by
  unfold State.legalChange
  cases g with
  | slot k => exact (if_neg fun h => hslot ⟨k, rfl, Or.inl h⟩).trans (if_neg fun h => hslot ⟨k, rfl, Or.inr h⟩)
  | page p => exact if_neg fun h => hpage ⟨p, rfl, h⟩
  | record i => exact if_neg fun h => hrecord ⟨i, rfl, h⟩

/-! ### A tag violation -/

/-- The count of a tag violation (R137). -/
def State.tagCounted (s : State) : State := s.putWatchCounters { s.watchCounters with tag := s.watchCounters.tag + 1 }

theorem State.tagViolation_eq (s : State) (g : Guarded) (la : BitVec 16) (data : Word) (be : BitVec 4) :
    s.tagViolation g la data be = s.tagCounted.violation g.item .tagViolation (BitVec.ofNat 32 g.subject)
      (violationDetail la be) data (s.heldCode g) := rfl

theorem State.tagCounted_touches (s : State) : s.Touches [.tagCount, .exchangeMarks] s.tagCounted := .of_eq _ rfl

theorem Guarded.item_slot (k : SlotId) : (Guarded.slot k).item = 1024 + 128 * k.val := rfl

theorem Guarded.item_page (p : PageId) : (Guarded.page p).item = 6144 + 1024 * p.val := by
  change pageWord p = _
  unfold pageWord
  omega

theorem Guarded.item_record (i : Fin 64) : (Guarded.record i).item = 5120 + 16 * i.val := rfl

theorem Guarded.item_ge (g : Guarded) : 161 ≤ g.item := by
  cases g with
  | slot k =>
    rw [Guarded.item_slot]
    omega
  | page p =>
    rw [Guarded.item_page]
    omega
  | record i =>
    rw [Guarded.item_record]
    omega

theorem State.heldCode_slot (s : State) (k : SlotId) : s.heldCode (.slot k) = s.requests.slots[k].code := rfl

theorem State.heldCode_page (s : State) (p : PageId) : s.heldCode (.page p) = s.writer.pages[p].code := rfl

theorem State.heldCode_record (s : State) (i : Fin 64) : s.heldCode (.record i) = s.exceptions.records[i].tag.code := rfl

/-- The code held after a violation: the record pushed is NEW (R181). -/
theorem State.tagViolation_heldCode (s : State) (g : Guarded) (la : BitVec 16) (data : Word) (be : BitVec 4) :
    (s.tagViolation g la data be).heldCode g = (match g with
      | .record i => if i.val + 1 = s.exceptions.top ∧ s.exceptions.top ≤ 64 then 1 else s.heldCode g
      | _ => s.heldCode g) := by
  have touches := s.tagViolation_touches g la data be
  cases g with
  | slot k => rw [State.heldCode_slot, State.heldCode_slot, touches.requests (by decide)]
  | page p => rw [State.heldCode_page, State.heldCode_page, touches.writer (by decide)]
  | record i =>
    have counted : (s.tagCounted.copyBlock (Guarded.record i).item).2.exceptions = s.exceptions :=
      ((State.copyBlock_touches _ _).exceptions (by decide)).trans (s.tagCounted_touches.exceptions (by decide))
    have tag := State.push_tag (s.tagCounted.copyBlock (Guarded.record i).item).2 .tagViolation
      (BitVec.ofNat 32 (Guarded.record i).subject) (violationDetail la be) data (s.heldCode (.record i))
      (s.tagCounted.copyBlock (Guarded.record i).item).1 i
    rw [counted] at tag
    rw [State.heldCode_record, State.tagViolation_eq]
    unfold State.violation
    rw [tag]
    dsimp only
    split <;> rfl

/-- Settles O45: the cases of `guardedWrite`, with the record of a violation read off `violation_record`. -/
theorem hostWriteToGuardedWord : Obligations.HostWriteToGuardedWord := by
  intro s la data be g ready guards
  have effect : exec (.hostWrite la data be) s = .next (s.hostWrite la data be) := exec_of_ready _ ready
  refine ⟨fun none => ?_, fun whole same => ?_, fun whole changed => ?_, fun some illegal => ?_⟩
  · rw [effect, none, State.hostWrite_of_disabled]
  · rw [effect, State.hostWrite_of_guarded guards (by rw [whole]; decide), whole, State.guardedWrite_of_held same]
  · have legal {u : State} (hu : s.legalChange g data = some u) : exec (.hostWrite la data be) s = .next u := by
      rw [effect, State.hostWrite_of_guarded guards (by rw [whole]; decide), whole, State.guardedWrite_of_legal changed hu]
    refine ⟨fun k hg free hd => ?_, fun k hg ended hd => ?_, fun p hg filled hd => ?_, fun i hg new hd => ?_⟩ <;> subst hg
    · exact ⟨_, legal (if_pos ⟨free, hd⟩), rfl, rfl⟩
    · have kept : ¬(s.requests.slots[k] = .free ∧ data = SlotState.posted.code) := fun h => by
        rw [hd] at h
        exact absurd h.2 (by decide)
      exact ⟨_, legal ((if_neg kept).trans (if_pos ⟨ended, hd⟩)), rfl, rfl⟩
    · exact ⟨_, legal (if_pos ⟨filled, hd⟩), rfl, rfl⟩
    · exact ⟨_, legal (if_pos ⟨new, hd⟩), s.exceptions.acknowledge_tag i, s.exceptions.acknowledge_lost i, rfl,
        fun stack => stack.acknowledge i⟩
  · have violates : be ≠ 15 ∨ data ≠ s.heldCode g ∧ s.legalChange g data = none :=
      illegal.imp_right fun ⟨changed, hslot, hpage, hrecord⟩ => ⟨changed, State.legalChange_eq_none hslot hpage hrecord⟩
    rw [State.hostWrite_of_guarded guards some, State.guardedWrite_of_violation violates] at effect
    have touches := s.tagViolation_touches g la data be
    have counted := s.tagCounted_touches
    have same : s.tagCounted.exceptions = s.exceptions := counted.exceptions (by decide)
    refine ⟨_, effect, s.tagViolation_heldCode g la data be, touches.mem (by decide), touches.requests (by decide),
      touches.writer (by decide), ?_, touches.ownerCount (by decide), touches.owner (by decide), ?_, fun full => ?_,
      fun n room => ?_⟩
    · rw [State.tagViolation_eq]
      exact (State.violation_touches _ _ _ _ _ _ _).tagCount (by decide)
    · exact State.violation_latches _ _ _ _ _ _ _
    · rw [State.tagViolation_eq, State.violation_lost (by rw [same]; exact full), same]
    · rw [State.tagViolation_eq]
      obtain ⟨top, r, record, -, kind, subject, d0, d1, d2, copy⟩ :=
        State.violation_record (s := s.tagCounted) (n := n) (by rw [same]; exact room) g.item .tagViolation
          (BitVec.ofNat 32 g.subject) (violationDetail la be) data (s.heldCode g)
      rw [record, kind, subject, d0, d1, d2, copy]
      refine ⟨top, rfl, rfl, rfl, rfl, rfl, fun j => ?_⟩
      rw [State.copyBlock_of_steady _ g.item_ge,
        (State.SameRead.putWatchCounters s _ (Nat.le_add_right_of_le g.item_ge)).wordAsRead (t := s.tagCounted)]
      cases g with
      | slot k => rw [Guarded.item_slot]
      | page p => rw [Guarded.item_page]
      | record i => rw [Guarded.item_record]

end Sys2Proof.Machine
end

section
/-! SUPPORT. A record write depends on the writer, the folds and the record pages alone (R115 to R118). -/

namespace Sys2Proof.Machine

/-! ### The memory from the record pages on -/

/-- The cells of the record pages. -/
def Memory.above (m : Memory) : Memory := m.filter fun c => 24576 ≤ c.1

theorem Memory.above_write_of_low (m : Memory) {a : Nat} (ha : a < 24576) (b : Byte) : (m.write a b).above = m.above := by
  induction m with
  | nil => grind [Memory.write, Memory.above]
  | cons c m ih => grind [Memory.write, Memory.above]

theorem Memory.above_write_of_high (m : Memory) {a : Nat} (ha : 24576 ≤ a) (b : Byte) :
    (m.write a b).above = m.above.write a b := by
  induction m with
  | nil => grind [Memory.write, Memory.above]
  | cons c m ih => grind [Memory.write, Memory.above]

theorem Memory.above_writeBytes_of_low (m : Memory) {a : Nat} {bs : List Byte} (ha : a + bs.length ≤ 24576) :
    (m.writeBytes a bs).above = m.above := by
  induction bs generalizing m a with
  | nil => rfl
  | cons b bs ih =>
    simp only [List.length_cons] at ha
    rw [Memory.writeBytes_cons, ih _ (by omega), Memory.above_write_of_low m (by omega)]

theorem Memory.above_writeBytes_of_high (m : Memory) {a : Nat} (ha : 24576 ≤ a) (bs : List Byte) :
    (m.writeBytes a bs).above = m.above.writeBytes a bs := by
  induction bs generalizing m a with
  | nil => rfl
  | cons b bs ih => rw [Memory.writeBytes_cons, Memory.writeBytes_cons, ih _ (by omega), Memory.above_write_of_high m ha]

theorem Memory.above_zero (m : Memory) (lo hi : Nat) : (m.zero lo hi).above = m.above.zero lo hi := by
  unfold Memory.zero Memory.above
  rw [List.filter_comm]

theorem Memory.read_above (m : Memory) {a : Nat} (ha : 24576 ≤ a) : m.above.read a = m.read a := by
  induction m with
  | nil => rfl
  | cons c m ih => grind [Memory.read, Memory.above]

theorem Memory.read_of_above {m m' : Memory} (h : m.above = m'.above) {a : Nat} (ha : 24576 ≤ a) : m'.read a = m.read a := by
  rw [← m.read_above ha, h, m'.read_above ha]

/-! ### Record writes side by side -/

/-- A relation between memories that the same write to a record page keeps. -/
structure KeptByPageWrites (M : Memory → Memory → Prop) : Prop where
  write : ∀ {m m' : Memory} {a : Nat} (bs : List Byte), M m m' → 24576 ≤ a → M (m.writeBytes a bs) (m'.writeBytes a bs)
  zero : ∀ {m m' : Memory} {lo : Nat} (hi : Nat), M m m' → 24576 ≤ lo → M (m.zero lo hi) (m'.zero lo hi)

theorem keptByPageWrites_eq : KeptByPageWrites Eq where
  write := fun bs h _ => by rw [h]
  zero := fun hi h _ => by rw [h]

theorem keptByPageWrites_above : KeptByPageWrites fun m m' => m.above = m'.above where
  write := fun {m m' a} bs h ha => by rw [m.above_writeBytes_of_high ha, m'.above_writeBytes_of_high ha, h]
  zero := fun {m m' lo} hi h _ => by rw [m.above_zero, m'.above_zero, h]

/-- Two states alike in what a record write reads and writes. -/
structure State.SameRecords (M : Memory → Memory → Prop) (s t : State) : Prop where
  writer : t.writer = s.writer
  folds : t.folds = s.folds
  mem : M s.mem t.mem

namespace State.SameRecords

variable {M : Memory → Memory → Prop} {s t : State}

theorem putWriter (h : s.SameRecords M t) (x : Writer) : (s.putWriter x).SameRecords M (t.putWriter x) :=
  ⟨rfl, h.folds, h.mem⟩

theorem putFold (h : s.SameRecords M t) (b : BankId) (x : Option Fold) : (s.putFold b x).SameRecords M (t.putFold b x) where
  writer := h.writer
  folds := congrArg (fun v => v.set b x) h.folds
  mem := h.mem

theorem fillPage (h : s.SameRecords M t) : s.fillPage.SameRecords M t.fillPage := by
  unfold State.fillPage
  rw [h.writer]
  cases s.writer.filling with
  | none => exact h
  | some f => exact ⟨rfl, h.folds, h.mem⟩

theorem makeRoom (h : s.SameRecords M t) (n : Nat) : (s.makeRoom n).SameRecords M (t.makeRoom n) := by
  unfold State.makeRoom
  rw [h.writer]
  cases s.writer.filling with
  | none => exact h
  | some f =>
    dsimp only
    split
    · exact h
    · exact h.fillPage

theorem loseRecord (h : s.SameRecords M t) (b : BankId) : (s.loseRecord b).SameRecords M (t.loseRecord b) := by
  have counted := h.putWriter { s.writer with lost := s.writer.lost + 1, gapLoss := s.writer.gapLoss + 1 }
  unfold State.loseRecord
  dsimp only
  rw [h.writer]
  have folds : (t.putWriter { s.writer with lost := s.writer.lost + 1, gapLoss := s.writer.gapLoss + 1 }).folds[b] =
      (s.putWriter { s.writer with lost := s.writer.lost + 1, gapLoss := s.writer.gapLoss + 1 }).folds[b] := by
    rw [counted.folds]
  rw [folds]
  exact counted.putFold b _

variable (hM : KeptByPageWrites M)
include hM

theorem writePage (h : s.SameRecords M t) (p : PageId) (off : Nat) (bs : List Byte) :
    (s.writePage p off bs).SameRecords M (t.writePage p off bs) :=
  ⟨h.writer, h.folds, hM.write bs h.mem (Nat.le_add_right_of_le (pageByte_bounds p).1)⟩

theorem zeroPage (h : s.SameRecords M t) (p : PageId) : (s.zeroPage p).SameRecords M (t.zeroPage p) :=
  ⟨h.writer, h.folds, hM.zero _ h.mem (Nat.le_add_right_of_le (pageByte_bounds p).1)⟩

theorem takePage (h : s.SameRecords M t) : s.takePage.SameRecords M t.takePage := by
  unfold State.takePage
  rw [h.writer]
  cases s.writer.freeQueue with
  | nil => exact h
  | cons p rest =>
    dsimp only
    exact (writePage hM (zeroPage hM h p) p 0 _).putWriter _

theorem ensurePage (h : s.SameRecords M t) : s.ensurePage.SameRecords M t.ensurePage := by
  unfold State.ensurePage
  rw [h.writer]
  split
  · exact h
  · exact takePage hM h

theorem updateHeader (h : s.SameRecords M t) (f : Filling) (n : Word) (used : Nat) :
    (s.updateHeader f n used).SameRecords M (t.updateHeader f n used) := by
  have counted := writePage hM h f.page 4 (leBytes 4 (f.count + 1))
  unfold State.updateHeader
  dsimp only
  split
  · exact writePage hM (writePage hM (writePage hM counted f.page 8 (wordBytes n)) f.page 12 (wordBytes n)) f.page 20 (leBytes 4 used)
  · exact writePage hM (writePage hM counted f.page 12 (wordBytes n)) f.page 20 (leBytes 4 used)

theorem recordPlaced (h : s.SameRecords M t) (f : Filling) (n : Word) (r : List Byte) :
    (s.recordPlaced f n r).SameRecords M (t.recordPlaced f n r) := by
  have updated := updateHeader hM (writePage hM h f.page (64 + f.used) r) f n (f.used + r.length)
  unfold State.recordPlaced
  rw [h.writer]
  exact updated.putWriter _

theorem placeRecord (h : s.SameRecords M t) (f : Filling) (n : Word) (r : List Byte) :
    (s.placeRecord f n r).SameRecords M (t.placeRecord f n r) := by
  rw [State.placeRecord_eq, State.placeRecord_eq]
  split
  · exact (recordPlaced hM h f n r).fillPage
  · exact recordPlaced hM h f n r

/-- A record goes to the same place in states alike. -/
theorem writeRecord (h : s.SameRecords M t) (b : BankId) (n : Word) (r : List Byte) :
    (s.writeRecord b n r).SameRecords M (t.writeRecord b n r) := by
  have ready := ensurePage hM (h.makeRoom r.length)
  unfold State.writeRecord
  dsimp only
  rw [ready.writer]
  cases (s.makeRoom r.length).ensurePage.writer.filling with
  | none => exact ready.loseRecord b
  | some f => exact placeRecord hM ready f n r

end State.SameRecords

end Sys2Proof.Machine
end

section
/-! SUPPORT. Point steps side by side: what a step does depends on the registers, the banks, the folds, the writer and the
memory alone (R97). -/

namespace Sys2Proof.Machine

/-! ### The second part of a step -/

/-- The state after the totals and the due rebase are written (R101, R103). -/
def State.totalsSettled (s : State) (p : SetId) (totals : Vector (BitVec 64) 104) : State :=
  (s.putRegs p (s.regs[p].settle totals)).regWritten p s.regs[p].rebasesWord

/-- The state after the slot of the due rebase has ended (R101, R175). -/
def State.rebaseEnded (s : State) (p : SetId) (n : Word) (totals : Vector (BitVec 64) 104) : State :=
  s.regs[p].dueRebase.elim (s.totalsSettled p totals) fun x => (s.totalsSettled p totals).endRebase p n x

/-- REGISTER_OVERFLOW of a step, pushed once (R102). -/
def State.overflowPushed (s : State) (p : SetId) (n : Word) (overflowing : List QuantityId) : State :=
  match overflowing with
  | q :: rest =>
    s.push .registerOverflow (BitVec.ofNat 32 p.val) n (BitVec.ofNat 32 q.val) (BitVec.ofNat 32 (rest.length + 1)) noCopy
  | [] => s

theorem State.stepSettle_eq (s : State) (p : SetId) (n : Word) (totals : Vector (BitVec 64) 104) :
    s.stepSettle p n totals = (s.rebaseEnded p n totals).overflowPushed p n (s.regs[p].overflowing totals) := by
  unfold State.stepSettle State.rebaseEnded
  dsimp only
  cases s.regs[p].dueRebase with
  | none => rfl
  | some x => rfl

theorem State.overflowPushed_touches (s : State) (p : SetId) (n : Word) (qs : List QuantityId) :
    s.Touches [.exceptions, .latched, .exchangeMarks] (s.overflowPushed p n qs) := by
  cases qs with
  | nil => exact .refl s _
  | cons q rest => exact (State.push_pushed _ _ _ _ _ _ _).touches

theorem State.totalsSettled_touches (s : State) (p : SetId) (totals : Vector (BitVec 64) 104) :
    s.Touches [.regs, .registerMarks] (s.totalsSettled p totals) :=
  (s.putRegs_touches p _).seq (State.regWritten_touches _ p _) (by decide) (by decide)

theorem State.rebaseEnded_of_none {s : State} {p : SetId} (h : s.regs[p].dueRebase = none) (n : Word)
    (totals : Vector (BitVec 64) 104) : s.rebaseEnded p n totals = s.totalsSettled p totals := by
  unfold State.rebaseEnded
  rw [h]
  rfl

theorem State.rebaseEnded_of_some {s : State} {p : SetId} {x : PendingRebase} (h : s.regs[p].dueRebase = some x) (n : Word)
    (totals : Vector (BitVec 64) 104) : s.rebaseEnded p n totals = (s.totalsSettled p totals).endDeferred x.slot .done .ok .none n
      x.values.length ((s.regs[p].settle totals).bytes x.first x.values.length) := by
  have regs : (s.totalsSettled p totals).regs[p] = s.regs[p].settle totals := getElem_fin_set_self _ _ _
  unfold State.rebaseEnded
  rw [h, Option.elim]
  unfold State.endRebase
  rw [regs]

/-- The parts that a step without a due rebase may touch. -/
def Part.ofPlainSettle : List Part := [.regs, .registerMarks, .exceptions, .latched, .exchangeMarks]

theorem State.stepSettled_of_no_rebase {s : State} {b : BankId} {e : Fin 6} (h : s.regs[entryPoint b e].dueRebase = none)
    (f : Fold) : s.Touches Part.ofPlainSettle (s.stepSettled b f e) := by
  have scaled := s.stepScale_touches (entryPoint b e) f.interval
  have none : (s.stepScale (entryPoint b e) f.interval).regs[entryPoint b e].dueRebase = none := by
    rw [State.stepScale_regs, getElem_fin_set_self, RegisterSet.dueRebase_scalePart, h]
  unfold State.stepSettled
  rw [State.stepSettle_eq, State.rebaseEnded_of_none none]
  exact (scaled.mono (by decide)).trans
    (((State.totalsSettled_touches _ _ _).mono (by decide)).trans ((State.overflowPushed_touches _ _ _ _).mono (by decide)))

/-- What a step with a due rebase does to the memory and the request unit (R101, R154, R175). -/
theorem State.stepSettled_of_rebase {s : State} {b : BankId} {e : Fin 6} {x : PendingRebase}
    (h : s.regs[entryPoint b e].dueRebase = some x) (f : Fold) :
    ∃ u d, s.Touches Part.ofPlainSettle u ∧ u.mem = s.mem ∧ u.requests = s.requests ∧
      d = (s.regs[entryPoint b e].scalePart.settle (s.banks[b].sets[f.set].totals e)).bytes x.first x.values.length ∧
      (u.endDeferred x.slot .done .ok .none f.interval x.values.length d).Touches [.exceptions, .latched, .exchangeMarks]
        (s.stepSettled b f e) := by
  have scaled := s.stepScale_touches (entryPoint b e) f.interval
  have regs : (s.stepScale (entryPoint b e) f.interval).regs[entryPoint b e] = s.regs[entryPoint b e].scalePart := by
    rw [State.stepScale_regs, getElem_fin_set_self]
  have due : (s.stepScale (entryPoint b e) f.interval).regs[entryPoint b e].dueRebase = some x := by
    rw [regs, RegisterSet.dueRebase_scalePart, h]
  have settled := State.totalsSettled_touches (s.stepScale (entryPoint b e) f.interval) (entryPoint b e)
    (s.banks[b].sets[f.set].totals e)
  have both : s.Touches Part.ofPlainSettle ((s.stepScale (entryPoint b e) f.interval).totalsSettled (entryPoint b e)
      (s.banks[b].sets[f.set].totals e)) := (scaled.mono (by decide)).trans (settled.mono (by decide))
  refine ⟨_, _, both, both.mem (by decide), both.requests (by decide), rfl, ?_⟩
  unfold State.stepSettled
  rw [State.stepSettle_eq, State.rebaseEnded_of_some due, regs]
  exact State.overflowPushed_touches _ _ _ _

theorem State.stepSettled_mem_of_rebase {s : State} {b : BankId} {e : Fin 6} {x : PendingRebase}
    (h : s.regs[entryPoint b e].dueRebase = some x) (f : Fold) : (s.stepSettled b f e).mem =
      s.mem.withEnding (slotByte x.slot) (BitVec.ofNat 32 ReplyOutcome.ok.code) (BitVec.ofNat 32 Reason.none.code) f.interval
        (BitVec.ofNat 32 x.values.length)
        ((s.regs[entryPoint b e].scalePart.settle (s.banks[b].sets[f.set].totals e)).bytes x.first x.values.length) := by
  obtain ⟨u, d, -, hmem, -, hd, pushed⟩ := State.stepSettled_of_rebase h f
  rw [pushed.mem (by decide), State.endDeferred_mem, hmem, hd]

/-! ### Two steps -/

/-- The same step over equal memories gives equal memories. -/
theorem State.stepSettled_mem_congr {s t : State} (hm : t.mem = s.mem) (hr : t.regs = s.regs) (hb : t.banks = s.banks)
    (b : BankId) (f : Fold) (e : Fin 6) : (t.stepSettled b f e).mem = (s.stepSettled b f e).mem := by
  cases h : s.regs[entryPoint b e].dueRebase with
  | none =>
    have ht : t.regs[entryPoint b e].dueRebase = none := by rw [hr, h]
    rw [(State.stepSettled_of_no_rebase h f).mem (by decide), (State.stepSettled_of_no_rebase ht f).mem (by decide), hm]
  | some x =>
    have ht : t.regs[entryPoint b e].dueRebase = some x := by rw [hr, h]
    rw [State.stepSettled_mem_of_rebase h, State.stepSettled_mem_of_rebase ht, hm, hr, hb]

/-- The settled states alike when the memories are: the writer and the folds are as before the step. -/
theorem State.stepSettled_sameRecords {M : Memory → Memory → Prop} {s t : State} {b : BankId} {f : Fold} {e : Fin 6}
    (hw : t.writer = s.writer) (hf : t.folds = s.folds) (hm : M (s.stepSettled b f e).mem (t.stepSettled b f e).mem) :
    (s.stepSettled b f e).SameRecords M (t.stepSettled b f e) where
  writer := by rw [(s.stepSettled_touches b f e).writer (by decide), (t.stepSettled_touches b f e).writer (by decide), hw]
  folds := by rw [(s.stepSettled_touches b f e).folds (by decide), (t.stepSettled_touches b f e).folds (by decide), hf]
  mem := hm

theorem State.SameRecords.stepEnded {M : Memory → Memory → Prop} {s t : State} (h : s.SameRecords M t) (b : BankId) (n : Word)
    (e : Fin 6) : (s.stepEnded b n e).SameRecords M (t.stepEnded b n e) where
  writer := ((t.stepEnded_touches b n e).writer (by decide)).trans
    (h.writer.trans ((s.stepEnded_touches b n e).writer (by decide)).symm)
  folds := congrArg (fun v => v.set b (v[b].map fun g : Fold => { g with position := e.val + 1 })) h.folds
  mem := by
    rw [(s.stepEnded_touches b n e).mem (by decide), (t.stepEnded_touches b n e).mem (by decide)]
    exact h.mem

theorem State.stepEntry_banks {s : State} (h : s.TablesClean) (b : BankId) (f : Fold) (e : Fin 6) :
    (s.stepEntry b f e).banks = s.banks := by
  rw [State.stepEntry_of_clean h, (State.stepEnded_touches _ b _ e).banks (by decide), State.stepRecord_settled h]
  split
  · exact ((State.writeRecord_recordEffect _ b _ _).touches.banks (by decide)).trans
      ((s.stepSettled_touches b f e).banks (by decide))
  · exact (s.stepSettled_touches b f e).banks (by decide)

/-- Two steps over stores without errors, alike in registers and banks: the record goes to the same place. -/
theorem State.stepEntry_sameRecords {M : Memory → Memory → Prop} (hM : KeptByPageWrites M) {s t : State} (hs : s.TablesClean)
    (ht : t.TablesClean) {b : BankId} {f : Fold} {e : Fin 6} (hr : t.regs = s.regs) (hb : t.banks = s.banks)
    (h : (s.stepSettled b f e).SameRecords M (t.stepSettled b f e)) :
    (s.stepEntry b f e).SameRecords M (t.stepEntry b f e) := by
  have regs : (t.stepSettled b f e).regs = (s.stepSettled b f e).regs := by
    rw [State.stepSettled_regs, State.stepSettled_regs, hr, hb]
  rw [State.stepEntry_of_clean hs, State.stepEntry_of_clean ht, State.stepRecord_settled hs, State.stepRecord_settled ht, regs, hr,
    hb]
  refine State.SameRecords.stepEnded ?_ b _ e
  split
  · exact State.SameRecords.writeRecord hM h b _ _
  · exact h

theorem State.stepEntry_regs_congr {s t : State} (hs : s.TablesClean) (ht : t.TablesClean) (hr : t.regs = s.regs)
    (hb : t.banks = s.banks) (b : BankId) (f : Fold) (e : Fin 6) : (t.stepEntry b f e).regs = (s.stepEntry b f e).regs := by
  rw [State.stepEntry_regs hs, State.stepEntry_regs ht, hr, hb]

/-- Behind its reads a step does not depend on what they found. -/
theorem State.stepEntry_of_reads {s u : State} {b : BankId} {f : Fold} {e : Fin 6} (h : s.stepReads b f.set e = u)
    (hu : u.TablesClean) : s.stepEntry b f e = u.stepEntry b f e := by
  unfold State.stepEntry
  rw [h, State.stepReads_of_clean hu]

end Sys2Proof.Machine
end

section
/-! SUPPORT. Memory errors of the register store (R105, R108 to R110, R155, R190, R191). -/

namespace Sys2Proof.Machine

/-! ### Reports -/

theorem State.Touches.watchCounters {s t : State} {ps : List Part} (h : s.Touches ps t) (ho : Part.ownerCount ∉ ps)
    (ht : Part.tagCount ∉ ps) (hc : Part.corrected ∉ ps) : t.watchCounters = s.watchCounters := by
  have owner := h.ownerCount ho
  have tag := h.tagCount ht
  have corrected : t.watchCounters.corrected = s.watchCounters.corrected := h.same hc
  cases hx : t.watchCounters
  cases hy : s.watchCounters
  rw [hx, hy] at owner tag corrected
  rw [WatchCounters.mk.injEq]
  exact ⟨owner, tag, corrected⟩

theorem State.report_watchCounters (s : State) (st : Store) (v : Word) : (s.report st v).watchCounters = s.watchCounters := by
  unfold State.report
  split
  · rfl
  · rfl

theorem State.report_reported (s : State) (st : Store) {v : Word} {form : Word → Prop} (h : form v) :
    s.Reported (s.report st v) st form := by
  refine ⟨fun empty => ?_, fun c frozen => ?_⟩
  · rw [State.report_of_empty empty]
    exact ⟨State.latch_latched _ _, v, rfl, h⟩
  · rw [State.report_of_frozen frozen, second_eq_min]
    rfl

theorem State.Reported.after {s u t : State} {st : Store} {form : Word → Prop} (h : s.Reported u st form)
    (hc : t.capture = u.capture) (hl : u.latched .capture = true → t.latched .capture = true) : s.Reported t st form := by
  obtain ⟨empty, frozen⟩ := h
  refine ⟨fun hs => ?_, fun c hs => hc.trans (frozen c hs)⟩
  obtain ⟨latched, v, captured, place⟩ := empty hs
  exact ⟨hl latched, v, hc.trans captured, place⟩

theorem State.Reported.captured {s t : State} {st : Store} {form : Word → Prop} (h : s.Reported t st form) :
    t.capture ≠ none := by
  obtain ⟨empty, frozen⟩ := h
  cases hs : s.capture with
  | none =>
    obtain ⟨-, v, captured, -⟩ := empty hs
    rw [captured]
    exact nofun
  | some c =>
    rw [frozen c hs]
    exact nofun

theorem State.Reported.mono {s t : State} {st : Store} {form form' : Word → Prop} (h : s.Reported t st form)
    (hf : ∀ v, form v → form' v) : s.Reported t st form' := by
  obtain ⟨empty, frozen⟩ := h
  refine ⟨fun hs => ?_, frozen⟩
  obtain ⟨latched, v, captured, place⟩ := empty hs
  exact ⟨latched, v, captured, hf v place⟩

theorem State.endDeferred_latched (s : State) (k : SlotId) (st : SlotState) (o : ReplyOutcome) (r : Reason) (i : Word) (c : Nat)
    (d : List Byte) : (s.endDeferred k st o r i c d).notices.latched = s.notices.latched ||| Cause.done.flag := by
  simp [State.endDeferred, State.endSlot]

/-! ### The loss of a word -/

/-- A register set after the loss of a word (R109, R110). -/
def RegisterSet.lose (r : RegisterSet) : RegItem → RegisterSet
  | .register q | .residue q | .state q => { r with quantities := r.quantities.set q lostQuantity }
  | .scale => { r with scale := 0, staged := none, quantities := Vector.replicate 104 lostQuantity }
  | .staged => { r with staged := none }
  | .lastFolded => { r with lastFolded := 0 }
  | .rebase => { r with rebase := none }

/-- The words rewritten with the loss of a word (R109, R110). -/
def RegItem.rewrites : RegItem → RegItem → Bool
  | .register q, it | .residue q, it | .state q, it => it.ofQuantity q
  | .scale, it => it != .lastFolded && it != .rebase
  | .staged, it => it == .staged
  | .lastFolded, it => it == .lastFolded
  | .rebase, it => it == .rebase

theorem RegItem.rewrites_self (it : RegItem) : it.rewrites it = true := by
  cases it
  case register q | residue q | state q => simp [RegItem.rewrites, RegItem.ofQuantity]
  case scale | staged | lastFolded | rebase => decide

theorem State.loseRebase_eq_of_some {s : State} {p : SetId} {x : PendingRebase} (h : s.regs[p].rebase = some x) :
    s.loseRebase p = (s.putRegs p { s.regs[p] with rebase := none }).endDeferred x.slot .refused .none .memory 0 0 [] := by
  unfold State.loseRebase
  rw [h]

theorem State.loseRebase_of_none {s : State} {p : SetId} (h : s.regs[p].rebase = none) : s.loseRebase p = s := by
  unfold State.loseRebase
  rw [h]

theorem RegisterSet.withoutRebase_of_none {r : RegisterSet} (h : r.rebase = none) : { r with rebase := none } = r := by
  rw [← h]

theorem State.loseRebase_regs (s : State) (p : SetId) : (s.loseRebase p).regs = s.regs.set p (s.regs[p].lose .rebase) := by
  cases h : s.regs[p].rebase with
  | none =>
    have same : s.regs[p].lose .rebase = s.regs[p] := RegisterSet.withoutRebase_of_none h
    rw [State.loseRebase_of_none h, same]
    exact (Vector.set_getElem_self p.isLt).symm
  | some x =>
    rw [State.loseRebase_eq_of_some h, (State.endDeferred_touches _ _ _ _ _ _ _ _).regs (by decide)]
    rfl

theorem State.loseRebase_touches_request (s : State) (p : SetId) :
    s.Touches [.regs, .slots, .table, .latched, .mem, .exchangeMarks] (s.loseRebase p) := by
  cases h : s.regs[p].rebase with
  | none =>
    rw [State.loseRebase_of_none h]
    exact .refl s _
  | some x =>
    rw [State.loseRebase_eq_of_some h]
    exact (s.putRegs_touches p _).seq (State.endDeferred_touches _ _ _ _ _ _ _ _) (by decide) (by decide)

/-- The parts that the loss of a register word may touch. -/
def Part.ofRegLoss : List Part := [.regs, .registerMarks, .slots, .table, .latched, .mem, .exchangeMarks]

theorem State.loseReg_touches_loss (s : State) (p : SetId) (it : RegItem) : s.Touches Part.ofRegLoss (s.loseReg p it) := by
  by_cases hit : it = .rebase
  · subst hit
    exact (s.loseRebase_touches_request p).seq (State.regWritten_touches _ p _) (by decide) (by decide)
  · exact (s.loseReg_touches_of_ne p hit).mono (by decide)

theorem State.loseReg_regs (s : State) (p : SetId) (it : RegItem) : (s.loseReg p it).regs = s.regs.set p (s.regs[p].lose it) := by
  cases it
  case rebase => exact s.loseRebase_regs p
  all_goals rfl

theorem State.loseReg_marks (s : State) (p : SetId) (it : RegItem) : (s.loseReg p it).ecc.registers =
    s.ecc.registers.filter fun m => !(m.1.point == p && it.rewrites m.1.item) := by
  cases it
  case rebase =>
    have kept := (s.loseRebase_touches_request p).registerMarks (by decide)
    change (s.loseRebase p).ecc.registers.filter _ = _
    rw [kept]
    rfl
  all_goals rfl

theorem State.loseReg_latched (s : State) (p : SetId) (it : RegItem) {c : Cause} (h : s.latched c = true) :
    (s.loseReg p it).latched c = true := by
  by_cases hit : it = .rebase
  · subst hit
    cases hx : s.regs[p].rebase with
    | none =>
      change (s.loseRebase p).latched c = true
      rw [State.loseRebase_of_none hx]
      exact h
    | some x =>
      change (s.loseRebase p).latched c = true
      rw [State.loseRebase_eq_of_some hx]
      unfold State.latched at h ⊢
      rw [State.endDeferred_latched, BitVec.getLsbD_or]
      exact Bool.or_eq_true_iff.mpr (Or.inl h)
  · unfold State.latched at h ⊢
    rw [(s.loseReg_touches_of_ne p hit).latched_eq (by decide)]
    exact h

theorem State.loseReg_rebase (s : State) (p : SetId) : s.loseReg p .rebase = (s.loseRebase p).regWritten p (· == .rebase) := rfl

/-! ### A check -/

theorem State.checkReg_of_clean {s : State} {p : SetId} {it : RegItem} (h : s.ecc.registers.lookup ⟨p, it⟩ = none) :
    s.checkReg p it = s := by
  unfold State.checkReg
  rw [h]

theorem State.checkReg_of_single {s : State} {p : SetId} {it : RegItem} (h : s.ecc.registers.lookup ⟨p, it⟩ = some .single) :
    s.checkReg p it = (s.regWritten p (· == it)).countCorrected := by
  unfold State.checkReg
  rw [h]

theorem State.checkReg_of_uncorrectable {s : State} {p : SetId} {it : RegItem}
    (h : s.ecc.registers.lookup ⟨p, it⟩ = some .uncorrectable) :
    s.checkReg p it = (s.report .registers (RegWord.location ⟨p, it⟩)).loseReg p it := by
  unfold State.checkReg
  rw [h]

theorem lookup_withoutWords (l : List (RegWord × EccMark)) (p : SetId) (which : RegItem → Bool) (it : RegItem) :
    (l.filter fun m => !(m.1.point == p && which m.1.item)).lookup ⟨p, it⟩ =
      if which it = true then none else l.lookup ⟨p, it⟩ := by
  rw [lookup_filter_fst l (fun w => !(w.point == p && which w.item)) ⟨p, it⟩]
  cases hw : which it with
  | true => simp [hw]
  | false => simp [hw]

theorem State.checkReg_single_marks (s : State) (p : SetId) (it it' : RegItem) :
    ((s.regWritten p (· == it)).countCorrected).ecc.registers.lookup ⟨p, it'⟩ =
      if (it' == it) = true then none else s.ecc.registers.lookup ⟨p, it'⟩ :=
  lookup_withoutWords s.ecc.registers p (· == it) it'

theorem State.checkReg_lost_marks {s : State} {p : SetId} {it : RegItem}
    (h : s.ecc.registers.lookup ⟨p, it⟩ = some .uncorrectable) (it' : RegItem) :
    (s.checkReg p it).ecc.registers.lookup ⟨p, it'⟩ =
      if it.rewrites it' = true then none else s.ecc.registers.lookup ⟨p, it'⟩ := by
  have reported := (s.report_touches .registers (RegWord.location ⟨p, it⟩)).registerMarks (by decide)
  rw [State.checkReg_of_uncorrectable h, State.loseReg_marks, reported, lookup_withoutWords]

theorem State.checkReg_lost_regs {s : State} {p : SetId} {it : RegItem}
    (h : s.ecc.registers.lookup ⟨p, it⟩ = some .uncorrectable) :
    (s.checkReg p it).regs = s.regs.set p (s.regs[p].lose it) := by
  have reported := (s.report_touches .registers (RegWord.location ⟨p, it⟩)).regs (by decide)
  rw [State.checkReg_of_uncorrectable h, State.loseReg_regs, reported]

theorem State.checkReg_lost_reported {s : State} {p : SetId} {it : RegItem}
    (h : s.ecc.registers.lookup ⟨p, it⟩ = some .uncorrectable) :
    s.Reported (s.checkReg p it) .registers (· = RegWord.location ⟨p, it⟩) := by
  have reported : s.Reported (s.report .registers (RegWord.location ⟨p, it⟩)) .registers (· = RegWord.location ⟨p, it⟩) :=
    s.report_reported .registers rfl
  rw [State.checkReg_of_uncorrectable h]
  exact reported.after ((State.loseReg_touches_loss _ p it).capture (by decide))
    (State.loseReg_latched _ p it)

theorem State.checkReg_lost_watchCounters {s : State} {p : SetId} {it : RegItem}
    (h : s.ecc.registers.lookup ⟨p, it⟩ = some .uncorrectable) : (s.checkReg p it).watchCounters = s.watchCounters := by
  rw [State.checkReg_of_uncorrectable h,
    (State.loseReg_touches_loss _ p it).watchCounters (by decide) (by decide) (by decide), State.report_watchCounters]

/-- The lost REBASE is refused with MEMORY (R110, R155). -/
theorem State.checkReg_lost_rebase {s : State} {p : SetId} {x : PendingRebase}
    (h : s.ecc.registers.lookup ⟨p, .rebase⟩ = some .uncorrectable) (hx : s.regs[p].rebase = some x) :
    ∃ u ps, s.Touches ps u ∧ Part.mem ∉ ps ∧ Part.slots ∉ ps ∧
      s.checkReg p .rebase = (u.endDeferred x.slot .refused .none .memory 0 0 []).regWritten p (· == .rebase) := by
  have reported := s.report_touches .registers (RegWord.location ⟨p, .rebase⟩)
  have held : (s.report .registers (RegWord.location ⟨p, .rebase⟩)).regs[p].rebase = some x := by
    rw [reported.regs (by decide), hx]
  have removed := reported.seq (rs := [.capture, .latched, .corrected, .exchangeMarks, .regs])
    (State.putRegs_touches _ p { (s.report .registers (RegWord.location ⟨p, .rebase⟩)).regs[p] with rebase := none })
    (by decide) (by decide)
  refine ⟨_, _, removed, by decide, by decide, ?_⟩
  rw [State.checkReg_of_uncorrectable h, State.loseReg_rebase, State.loseRebase_eq_of_some held]

end Sys2Proof.Machine
end

section
/-! SUPPORT. READ_REGISTERS over words in error, and a point step whose pending REBASE is lost (R105, R108 to R110). -/

namespace Sys2Proof.Machine

/-! ### The loss of several words -/

theorem Vector.set_replicate_self {α : Type} {n : Nat} (x : α) (i : Fin n) : (Vector.replicate n x).set i x = Vector.replicate n x := by
  apply Vector.ext
  intro j hj
  simp

/-- Losses commute. -/
theorem RegisterSet.lose_comm (r : RegisterSet) (a b : RegItem) : (r.lose a).lose b = (r.lose b).lose a := by
  have quantities (v : Vector Quantity 104) (i j : QuantityId) :
      (v.set i lostQuantity).set j lostQuantity = (v.set j lostQuantity).set i lostQuantity := by
    by_cases h : i = j
    · rw [h]
    · exact Vector.set_comm _ _ (Fin.val_ne_of_ne h)
  cases a
  case register i | residue i | state i =>
    cases b
    case register j | residue j | state j => exact congrArg (fun v => { r with quantities := v }) (quantities r.quantities i j)
    case scale => simp only [RegisterSet.lose, Vector.set_replicate_self]
    all_goals rfl
  case scale =>
    cases b
    case register j | residue j | state j => simp only [RegisterSet.lose, Vector.set_replicate_self]
    all_goals rfl
  all_goals
    cases b
    all_goals rfl

theorem RegItem.ofQuantity_eq_true {it : RegItem} {q : QuantityId} (h : it.ofQuantity q = true) :
    it = .register q ∨ it = .residue q ∨ it = .state q := by
  unfold RegItem.ofQuantity at h
  simpa only [Bool.or_eq_true, beq_iff_eq, or_assoc] using h

theorem RegItem.ofQuantity_unique {it : RegItem} {i j : QuantityId} (hi : it.ofQuantity i = true)
    (hj : it.ofQuantity j = true) : i = j := by
  rcases RegItem.ofQuantity_eq_true hi with rfl | rfl | rfl
  all_goals
    rcases RegItem.ofQuantity_eq_true hj with h | h | h
    all_goals cases h
    rfl

theorem RegisterSet.lose_lose_self (r : RegisterSet) (q : QuantityId) :
    ({ r with quantities := r.quantities.set q lostQuantity } : RegisterSet).lose (.register q) =
      { r with quantities := r.quantities.set q lostQuantity } := by
  simp only [RegisterSet.lose, Vector.set_set]

/-- A word rewritten with a loss is lost with it. -/
theorem RegisterSet.lose_of_rewrites (r : RegisterSet) {a b : RegItem} (h : a.rewrites b = true) :
    (r.lose a).lose b = r.lose a := by
  cases a
  case register i | residue i | state i =>
    rcases RegItem.ofQuantity_eq_true h with rfl | rfl | rfl
    all_goals exact r.lose_lose_self i
  case scale =>
    cases b
    case register j | residue j | state j => simp only [RegisterSet.lose, Vector.set_replicate_self]
    case lastFolded | rebase => exact absurd h (by decide)
    all_goals rfl
  case staged | lastFolded | rebase =>
    cases beq_iff_eq.mp h
    rfl

/-- The register set behind the reads of words of which some are lost. -/
def RegisterSet.loseAll (lost : RegItem → Bool) (r : RegisterSet) (items : List RegItem) : RegisterSet :=
  items.foldl (fun r it => if lost it = true then r.lose it else r) r

/-- The marks of the words still to be read: a lost word is marked, or was rewritten with a word lost before. -/
def State.Unread (s : State) (p : SetId) (lost : RegItem → Bool) (it : RegItem) : Prop :=
  (s.ecc.registers.lookup ⟨p, it⟩ = some .uncorrectable → lost it = true) ∧
  (lost it = true → s.ecc.registers.lookup ⟨p, it⟩ = some .uncorrectable ∨ s.regs[p].lose it = s.regs[p])

theorem State.checkReg_unread {s : State} {p : SetId} {lost : RegItem → Bool} {it : RegItem} (h : s.Unread p lost it) :
    (s.checkReg p it).regs = s.regs.set p (if lost it = true then s.regs[p].lose it else s.regs[p]) ∧
      ∀ it', s.Unread p lost it' → (s.checkReg p it).Unread p lost it' := by
  have kept (hl : s.ecc.registers.lookup ⟨p, it⟩ ≠ some .uncorrectable) :
      s.regs = s.regs.set p (if lost it = true then s.regs[p].lose it else s.regs[p]) := by
    refine (Vector.set_getElem_self p.isLt).symm.trans (congrArg (fun r => s.regs.set p r) ?_)
    split
    next hlost => exact ((h.2 hlost).resolve_left hl).symm
    · rfl
  cases hm : s.ecc.registers.lookup ⟨p, it⟩ with
  | none =>
    rw [State.checkReg_of_clean hm]
    exact ⟨kept (by rw [hm]; decide), fun _ => id⟩
  | some m =>
    cases m with
    | single =>
      rw [State.checkReg_of_single hm]
      refine ⟨kept (by rw [hm]; decide), fun it' hit' => ?_⟩
      have regs : ((s.regWritten p (· == it)).countCorrected).regs = s.regs := rfl
      unfold State.Unread at hit' ⊢
      rw [State.checkReg_single_marks, regs]
      by_cases same : it' = it
      · subst same
        rw [if_pos (beq_self_eq_true it')]
        rw [hm] at hit'
        exact ⟨fun h => (nomatch h), fun hl => Or.inr ((hit'.2 hl).resolve_left (by decide))⟩
      · rw [if_neg (fun heq => same (beq_iff_eq.mp heq))]
        exact hit'
    | uncorrectable =>
      have hlost := h.1 hm
      have regs := State.checkReg_lost_regs hm
      refine ⟨by rw [regs, if_pos hlost], fun it' hit' => ?_⟩
      unfold State.Unread at hit' ⊢
      rw [State.checkReg_lost_marks hm, regs, getElem_fin_set_self]
      by_cases hr : it.rewrites it' = true
      · rw [if_pos hr]
        refine ⟨fun h => (nomatch h), fun _ => Or.inr (RegisterSet.lose_of_rewrites _ hr)⟩
      · rw [if_neg hr]
        refine ⟨hit'.1, fun hl => (hit'.2 hl).imp_right fun same => ?_⟩
        rw [RegisterSet.lose_comm, same]

/-- What the reads of several words of one set find: every lost word has its effect (R108 to R110). -/
theorem State.checkRegs_lost {s : State} {p : SetId} {lost : RegItem → Bool} {items : List RegItem}
    (h : ∀ it ∈ items, s.Unread p lost it) : (s.checkRegs p items).regs = s.regs.set p (s.regs[p].loseAll lost items) := by
  induction items generalizing s with
  | nil => exact (Vector.set_getElem_self p.isLt).symm
  | cons it items ih =>
    obtain ⟨regs, unread⟩ := State.checkReg_unread (h it List.mem_cons_self)
    have rest := ih fun it' hit' => unread it' (h it' (List.mem_cons_of_mem it hit'))
    rw [regs, getElem_fin_set_self, Vector.set_set] at rest
    exact rest

/-! ### What READ_REGISTERS returns -/

theorem RegisterSet.loseAll_append (lost : RegItem → Bool) (r : RegisterSet) (xs ys : List RegItem) :
    r.loseAll lost (xs ++ ys) = (r.loseAll lost xs).loseAll lost ys := List.foldl_append ..

/-- A word of a quantity. -/
def RegItem.isQuantityWord (it : RegItem) : Prop := ∃ q, it.ofQuantity q = true

/-- The loss of words of quantities: a quantity with a lost word is 0, 0, INVALID, and nothing else changes (R109). -/
theorem RegisterSet.loseAll_quantities (lost : RegItem → Bool) (r : RegisterSet) {items : List RegItem}
    (h : ∀ it ∈ items, it.isQuantityWord) :
    r.loseAll lost items = { r with quantities := (r.loseAll lost items).quantities } ∧
    ∀ q : QuantityId, (r.loseAll lost items).quantities[q] =
      if ∃ it ∈ items, it.ofQuantity q = true ∧ lost it = true then lostQuantity else r.quantities[q] := by
  induction items generalizing r with
  | nil => exact ⟨rfl, fun q => (if_neg (by simp)).symm⟩
  | cons it items ih =>
    have words : ∀ it ∈ items, it.isQuantityWord := fun it' hit' => h it' (List.mem_cons_of_mem it hit')
    obtain ⟨i, hi⟩ := h it List.mem_cons_self
    have one (q : QuantityId) : it.ofQuantity q = true ↔ q = i :=
      ⟨fun hq => RegItem.ofQuantity_unique hq hi, fun heq => heq ▸ hi⟩
    have step : (if lost it = true then r.lose it else r) =
        { r with quantities := if lost it = true then r.quantities.set i lostQuantity else r.quantities } := by
      split
      · rcases RegItem.ofQuantity_eq_true hi with rfl | rfl | rfl
        all_goals rfl
      · rfl
    obtain ⟨rest, quantities⟩ := ih { r with
      quantities := if lost it = true then r.quantities.set i lostQuantity else r.quantities } words
    rw [show r.loseAll lost (it :: items) = _ from congrArg (fun r => RegisterSet.loseAll lost r items) step]
    refine ⟨rest, fun q => ?_⟩
    rw [quantities q]
    by_cases hlater : ∃ it ∈ items, it.ofQuantity q = true ∧ lost it = true
    · have some : ∃ it' ∈ it :: items, it'.ofQuantity q = true ∧ lost it' = true :=
        hlater.imp fun it' ⟨hm, hq⟩ => ⟨List.mem_cons_of_mem it hm, hq⟩
      rw [if_pos hlater, if_pos some]
    · rw [if_neg hlater]
      dsimp only
      by_cases here : q = i ∧ lost it = true
      · have some : ∃ it' ∈ it :: items, it'.ofQuantity q = true ∧ lost it' = true :=
          ⟨it, List.mem_cons_self, (one q).mpr here.1, here.2⟩
        rw [if_pos some, if_pos here.2, here.1, getElem_fin_set_self]
      · have none : ¬∃ it' ∈ it :: items, it'.ofQuantity q = true ∧ lost it' = true := by
          rintro ⟨it', hm, hq, hl⟩
          rcases List.mem_cons.mp hm with rfl | hm
          · exact here ⟨(one q).mp hq, hl⟩
          · exact hlater ⟨it', hm, hq, hl⟩
        rw [if_neg none]
        split
        next hl => rw [getElem_fin_set_of_ne _ _ fun heq => here ⟨heq, hl⟩]
        · rfl

end Sys2Proof.Machine
end

section
/-! SUPPORT. The words of the register store in error: what a check, a read and a point step do (R105, R108 to R110). -/

namespace Sys2Proof.Machine

/-! ### READ_REGISTERS -/

theorem exists_lost_word {first count : Nat} (q : QuantityId) (lost : RegItem → Bool) :
    (∃ it ∈ (quantityRange first count).flatMap quantityWords, it.ofQuantity q = true ∧ lost it = true) ↔
      first ≤ q.val ∧ q.val < first + count ∧
        (lost (.register q) = true ∨ lost (.residue q) = true ∨ lost (.state q) = true) := by
  have inRange (i : QuantityId) : i ∈ quantityRange first count ↔ first ≤ i.val ∧ i.val < first + count := by
    simp [quantityRange]
  constructor
  · rintro ⟨it, hit, hq, hl⟩
    obtain ⟨i, hi, hword⟩ := List.mem_flatMap.mp hit
    have own : it.ofQuantity i = true := by
      simp only [quantityWords, List.mem_cons, List.not_mem_nil, or_false] at hword
      rcases hword with rfl | rfl | rfl
      all_goals simp [RegItem.ofQuantity]
    obtain rfl : q = i := RegItem.ofQuantity_unique hq own
    refine ⟨((inRange q).mp hi).1, ((inRange q).mp hi).2, ?_⟩
    rcases RegItem.ofQuantity_eq_true hq with rfl | rfl | rfl
    · exact Or.inl hl
    · exact Or.inr (Or.inl hl)
    · exact Or.inr (Or.inr hl)
  · rintro ⟨hlow, hhigh, hl⟩
    have word (it : RegItem) (hit : it ∈ quantityWords q) : it ∈ (quantityRange first count).flatMap quantityWords :=
      List.mem_flatMap.mpr ⟨q, (inRange q).mpr ⟨hlow, hhigh⟩, hit⟩
    rcases hl with hl | hl | hl
    · exact ⟨_, word (.register q) (by simp [quantityWords]), by simp [RegItem.ofQuantity], hl⟩
    · exact ⟨_, word (.residue q) (by simp [quantityWords]), by simp [RegItem.ofQuantity], hl⟩
    · exact ⟨_, word (.state q) (by simp [quantityWords]), by simp [RegItem.ofQuantity], hl⟩

/-- The words that READ_REGISTERS reads before the quantities. -/
theorem RegisterSet.loseAll_heads (lost : RegItem → Bool) (r : RegisterSet) :
    (r.loseAll lost [.scale, .lastFolded]).rebase = r.rebase ∧
    (r.loseAll lost [.scale, .lastFolded]).scale = (if lost .scale = true then 0 else r.scale) ∧
    (r.loseAll lost [.scale, .lastFolded]).staged = (if lost .scale = true then none else r.staged) ∧
    (r.loseAll lost [.scale, .lastFolded]).lastFolded = (if lost .lastFolded = true then 0 else r.lastFolded) ∧
    ∀ q : QuantityId, (r.loseAll lost [.scale, .lastFolded]).quantities[q] =
      if lost .scale = true then lostQuantity else r.quantities[q] := by
  have replicated (q : QuantityId) : (Vector.replicate 104 lostQuantity)[q] = lostQuantity := Vector.getElem_replicate _
  unfold RegisterSet.loseAll
  simp only [List.foldl_cons, List.foldl_nil]
  by_cases hs : lost .scale = true
  · by_cases hl : lost .lastFolded = true
    · simp only [if_pos hs, if_pos hl]
      exact ⟨rfl, rfl, rfl, rfl, replicated⟩
    · simp only [if_pos hs, if_neg hl]
      exact ⟨rfl, rfl, rfl, rfl, replicated⟩
  · by_cases hl : lost .lastFolded = true
    · simp only [if_neg hs, if_pos hl]
      exact ⟨rfl, rfl, rfl, rfl, fun q => rfl⟩
    · simp only [if_neg hs, if_neg hl, implies_true, and_self]

theorem isQuantityWord_of_mem {qs : List QuantityId} {it : RegItem} (h : it ∈ qs.flatMap quantityWords) : it.isQuantityWord := by
  obtain ⟨q, -, hq⟩ := List.mem_flatMap.mp h
  refine ⟨q, ?_⟩
  simp only [quantityWords, List.mem_cons, List.not_mem_nil, or_false] at hq
  rcases hq with rfl | rfl | rfl
  all_goals simp [RegItem.ofQuantity]

/-- A register set behind the reads of a READ_REGISTERS (R105, R109, R110). -/
theorem RegisterSet.loseAll_reads (lost : RegItem → Bool) (r x : RegisterSet) {first count : Nat}
    (hx : x = r.loseAll lost ([.scale, .lastFolded] ++ (quantityRange first count).flatMap quantityWords)) :
    x.rebase = r.rebase ∧ x.scale = (if lost .scale = true then 0 else r.scale) ∧
    x.staged = (if lost .scale = true then none else r.staged) ∧
    x.lastFolded = (if lost .lastFolded = true then 0 else r.lastFolded) ∧
    ∀ q : QuantityId, x.quantities[q] =
      if lost .scale = true ∨ first ≤ q.val ∧ q.val < first + count ∧
          (lost (.register q) = true ∨ lost (.residue q) = true ∨ lost (.state q) = true) then ⟨0, 0, false⟩
      else r.quantities[q] := by
  rw [RegisterSet.loseAll_append] at hx
  obtain ⟨hrebase, hscale, hstaged, hlast, heads⟩ := r.loseAll_heads lost
  generalize r.loseAll lost [.scale, .lastFolded] = r1 at hx hrebase hscale hstaged hlast heads
  obtain ⟨rest, words⟩ := RegisterSet.loseAll_quantities lost r1
    (items := (quantityRange first count).flatMap quantityWords) fun it => isQuantityWord_of_mem
  rw [← hx] at rest words
  refine ⟨(congrArg RegisterSet.rebase rest).trans hrebase, (congrArg RegisterSet.scale rest).trans hscale,
    (congrArg RegisterSet.staged rest).trans hstaged, (congrArg RegisterSet.lastFolded rest).trans hlast, fun q => ?_⟩
  rw [words q, if_congr (exists_lost_word q lost) rfl rfl, heads q]
  by_cases hs : lost .scale = true
  · rw [if_pos hs, if_pos (Or.inl hs), ite_self]
    rfl
  · rw [if_neg hs]
    exact if_congr ⟨Or.inr, fun h => h.resolve_left hs⟩ rfl rfl

theorem State.SameArea.checkRegs (s : State) (p : SetId) (items : List RegItem) (k : SlotId) :
    s.SameArea (s.checkRegs p items) k := by
  unfold State.checkRegs
  induction items generalizing s with
  | nil => exact .refl s k
  | cons it items ih => exact .trans (.checkReg s p it k) (ih _)

theorem State.readQuantities_of_lost {s v : State} {k : SlotId} {rest : List SlotId} (hand : s.InHand v k rest) (p : SetId)
    {first count : Nat} (hc : count ≤ 20) {lost : RegItem → Bool}
    (hl : ∀ it, lost it = decide (v.ecc.registers.lookup ⟨p, it⟩ = some .uncorrectable)) :
    ∃ r, r = v.regs[p].loseAll lost ([.scale, .lastFolded] ++ (quantityRange first count).flatMap quantityWords) ∧
      (v.readQuantities k p first count).regs = v.regs.set p r ∧
      s.Ended (v.readQuantities k p first count) k rest .done
        { okReply with interval := r.lastFolded, count := count, data := r.bytes first count } := by
  have unread (it : RegItem) : v.Unread p lost it := by
    rw [State.Unread, hl, decide_eq_true_eq]
    exact ⟨id, Or.inl⟩
  have regs := State.checkRegs_lost (items := [.scale, .lastFolded] ++ (quantityRange first count).flatMap quantityWords)
    fun it _ => unread it
  have touches := v.checkRegs_touches_of_ne p
    (items := [.scale, .lastFolded] ++ (quantityRange first count).flatMap quantityWords)
    (by simpa using rebase_notMem_quantityWords _)
  have area := State.SameArea.checkRegs v p ([.scale, .lastFolded] ++ (quantityRange first count).flatMap quantityWords) k
  have at_p : (v.checkRegs p ([.scale, .lastFolded] ++ (quantityRange first count).flatMap quantityWords)).regs[p] =
      v.regs[p].loseAll lost ([.scale, .lastFolded] ++ (quantityRange first count).flatMap quantityWords) := by
    rw [regs, getElem_fin_set_self]
  refine ⟨_, rfl, ?_, ?_⟩
  · unfold State.readQuantities
    dsimp only
    rw [State.done_eq, State.finish_regs, regs]
  · unfold State.readQuantities
    dsimp only
    rw [State.done_eq, at_p]
    refine (hand.step touches (by decide) area).ended .done ?_
    rw [RegisterSet.bytes_length]
    omega

end Sys2Proof.Machine
end

section
/-! SUPPORT. Memory errors of the register store, settled (R105, R108 to R110, R190, R191). -/

namespace Sys2Proof.Machine

/-! ### A lost REBASE -/

theorem State.endDeferred_above (s : State) (k : SlotId) (st : SlotState) (o : ReplyOutcome) (r : Reason) (i : Word) (c : Nat)
    {d : List Byte} (hd : d.length ≤ 320) : (s.endDeferred k st o r i c d).mem.above = s.mem.above := by
  have := slotByte_le k
  have field (m : Memory) (off : Nat) (w : Word) (hoff : off ≤ 0x9C) :
      (m.writeBytes (slotByte k + off) (wordBytes w)).above = m.above :=
    m.above_writeBytes_of_low (by rw [wordBytes_length]; omega)
  rw [State.endDeferred_mem]
  unfold Memory.withEnding
  rw [Memory.above_writeBytes_of_low _ (by omega), field _ _ _ (by decide), field _ _ _ (by decide), field _ _ _ (by decide),
    field _ _ _ (by decide)]

/-- What the loss of a pending REBASE does to its slot and to the memory (R110, R155). -/
theorem State.checkReg_lost_rebase_slot {s : State} {p : SetId} {x : PendingRebase}
    (h : s.ecc.registers.lookup ⟨p, .rebase⟩ = some .uncorrectable) (hx : s.regs[p].rebase = some x) :
    (s.checkReg p .rebase).requests.slots[x.slot] = .refused ∧
    x.slot ∉ (s.checkReg p .rebase).requests.table.map PendingEntry.slot ∧ (s.checkReg p .rebase).latched .done = true ∧
    (s.checkReg p .rebase).mem.above = s.mem.above ∧
    (s.mem.wf → (s.checkReg p .rebase).mem.bytes (slotByte x.slot + 0x88) 8 = leBytes 4 0 ++ leBytes 4 10) := by
  obtain ⟨u, ps, touches, hmem, -, heq⟩ := State.checkReg_lost_rebase h hx
  have mem : u.mem = s.mem := touches.mem hmem
  have kept := (u.endDeferred x.slot .refused .none .memory 0 0 []).regWritten_touches p (· == .rebase)
  rw [← heq] at kept
  have requests := kept.requests (by decide)
  rw [State.endDeferred_requests] at requests
  refine ⟨?_, ?_, ?_, ?_, fun hwf => ?_⟩
  · rw [requests]
    exact getElem_fin_set_self _ _ _
  · rw [requests]
    intro hin
    obtain ⟨y, hy, hslot⟩ := List.mem_map.mp hin
    exact absurd hslot (bne_iff_ne.mp (List.mem_filter.mp hy).2)
  · unfold State.latched
    rw [kept.latched_eq (by decide), State.endDeferred_latched, BitVec.getLsbD_or]
    exact Bool.or_eq_true_iff.mpr (Or.inr rfl)
  · rw [kept.mem (by decide), State.endDeferred_above _ _ _ _ _ _ _ (Nat.zero_le _), mem]
  · rw [kept.mem (by decide)]
    exact (State.endDeferred_bytes (mem ▸ hwf) x.slot .refused .none .memory 0 0 []).1

/-- The parts that the report and the loss of a register word may touch. -/
def Part.ofRegReport : List Part :=
  [.capture, .latched, .corrected, .exchangeMarks, .regs, .registerMarks, .slots, .table, .mem]

theorem State.checkReg_lost_touches {s : State} {p : SetId} {it : RegItem}
    (h : s.ecc.registers.lookup ⟨p, it⟩ = some .uncorrectable) : s.Touches Part.ofRegReport (s.checkReg p it) := by
  rw [State.checkReg_of_uncorrectable h]
  exact (s.report_touches _ _).seq (State.loseReg_touches_loss _ p it) (by decide) (by decide)

/-- The reads of a step whose one word in error is the pending REBASE (R97, R110). -/
theorem State.stepReads_of_lost_rebase {s : State} {b : BankId} {e : Fin 6} (ha : s.ecc.accounting = [])
    (hr : s.ecc.registers = [(⟨entryPoint b e, .rebase⟩, .uncorrectable)]) (i : Fin 2) :
    s.stepReads b i e = s.checkReg (entryPoint b e) .rebase ∧ (s.checkReg (entryPoint b e) .rebase).TablesClean := by
  have lost : s.ecc.registers.lookup ⟨entryPoint b e, .rebase⟩ = some .uncorrectable := by
    rw [hr]
    simp
  have other {it : RegItem} (hit : it ≠ .rebase) : s.checkReg (entryPoint b e) it = s := by
    refine State.checkReg_of_clean ?_
    rw [hr]
    simp [hit]
  have clean : (s.checkReg (entryPoint b e) .rebase).TablesClean := by
    refine ⟨((State.checkReg_lost_touches lost).accountingMarks (by decide)).trans ha, ?_⟩
    rw [State.checkReg_of_uncorrectable lost, State.loseReg_marks, (s.report_touches _ _).registerMarks (by decide), hr]
    simp [RegItem.rewrites]
  have heads : s.checkRegs (entryPoint b e) [.scale, .staged, .rebase] = s.checkReg (entryPoint b e) .rebase := by
    unfold State.checkRegs
    rw [List.foldl_cons, other (by decide), List.foldl_cons, other (by decide), List.foldl_cons, List.foldl_nil]
  refine ⟨?_, clean⟩
  unfold State.stepReads
  dsimp only
  rw [heads, State.checkRegs_of_clean clean.2, State.checkAccs_of_clean clean.1]

/-- A step without a due rebase leaves the request unit. -/
theorem State.stepEntry_requests_of_no_rebase {s : State} (h : s.TablesClean) {b : BankId} {e : Fin 6}
    (hn : s.regs[entryPoint b e].dueRebase = none) (f : Fold) : (s.stepEntry b f e).requests = s.requests := by
  rw [State.stepEntry_of_clean h, (State.stepEnded_touches _ b _ e).requests (by decide),
    (State.stepRecord_touches _ b e f _).requests (by decide), (State.stepSettled_of_no_rebase hn f).requests (by decide)]

/-- Two steps without a due rebase, over states alike but for the memory below the record pages. -/
theorem State.stepEntry_of_no_rebase_sameRecords {u v : State} (hu : u.TablesClean) (hv : v.TablesClean) {b : BankId} {e : Fin 6}
    (hr : v.regs = u.regs) (hb : v.banks = u.banks) (hw : v.writer = u.writer) (hf : v.folds = u.folds)
    (hm : u.mem.above = v.mem.above) (hn : u.regs[entryPoint b e].dueRebase = none) (f : Fold) :
    (u.stepEntry b f e).SameRecords (fun m m' => m.above = m'.above) (v.stepEntry b f e) := by
  have hn' : v.regs[entryPoint b e].dueRebase = none := by rw [hr, hn]
  refine State.stepEntry_sameRecords keptByPageWrites_above hu hv hr hb (State.stepSettled_sameRecords hw hf ?_)
  rw [(State.stepSettled_of_no_rebase hn f).mem (by decide), (State.stepSettled_of_no_rebase hn' f).mem (by decide), hm]

/-- Settles O43: one check, the reads of a READ_REGISTERS as a fold of losses, and the step as one behind its reads. -/
theorem registerStoreErrors : Obligations.RegisterStoreErrors := by
  refine ⟨fun s t p it ht => ?_, fun s k rest p first count lost hm hh hp hf hc hone hmax hend hopt hlost => ?_,
    fun s b f e p x ready next hp hx ha hr => ?_⟩
  · subst ht
    refine ⟨State.checkReg_of_clean, fun marked => ?_, fun single => ?_, fun bad => ?_⟩
    · cases hmark : s.ecc.registers.lookup ⟨p, it⟩ with
      | none => exact absurd hmark marked
      | some m =>
        cases m with
        | single =>
          rw [State.checkReg_of_single hmark, State.checkReg_single_marks]
          exact if_pos (beq_self_eq_true it)
        | uncorrectable =>
          rw [State.checkReg_lost_marks hmark]
          exact if_pos it.rewrites_self
    · rw [State.checkReg_of_single single]
      exact ⟨rfl, rfl, rfl⟩
    · refine ⟨(State.checkReg_lost_reported bad).mono fun v hv => ?_, State.checkReg_lost_watchCounters bad, ?_,
        fun word => ?_, fun x hit hx => ?_⟩
      · rw [hv, RegWord.location, Nat.add_comm]
        cases it
        all_goals rfl
      · rw [State.checkReg_lost_regs bad]
        cases it
        all_goals rfl
      · have touches := s.checkReg_touches_of_ne p word
        exact ⟨touches.requests (by decide), touches.mem (by decide)⟩
      · subst hit
        obtain ⟨slot, table, latched, -, bytes⟩ := State.checkReg_lost_rebase_slot bad hx
        exact ⟨slot, table, latched, fun memoryOk => bytes memoryOk.1⟩
  · have hand := State.InHand.beginTake hm.1 k rest
    have area := State.SameArea.beginTake s k rest
    have h10 := area.param 0x10 2 (by decide) (by decide)
    have h12 := area.param 0x12 2 (by decide) (by decide)
    have h14 := area.param 0x14 2 (by decide) (by decide)
    obtain ⟨r, hr, regs, ended⟩ := State.readQuantities_of_lost hand p (first := first) (lost := lost) hmax
      (by rw [State.beginTake_registerMarks]; exact hlost)
    rw [State.beginTake_regs] at hr regs
    obtain ⟨hrebase, hscale, hstaged, hlast, hquantities⟩ := RegisterSet.loseAll_reads lost s.regs[p] r hr
    refine ⟨_, r, hh.exec rfl, ?_, hrebase, hscale, hstaged, hlast, hquantities, ?_⟩
    all_goals
      unfold State.takeReadRegisters
      rw [State.judgeRead_of_good (h10.trans hp) (by rw [h12, h14, area.optionWord]; omega), h12, h14, hf, hc]
    · exact regs
    · exact ended
  · subst hp
    have lost : s.ecc.registers.lookup ⟨entryPoint b e, .rebase⟩ = some .uncorrectable := by
      rw [hr]
      simp
    obtain ⟨reads, clean⟩ := State.stepReads_of_lost_rebase ha hr f.set
    have behind := State.stepEntry_of_reads (f := f) reads clean
    obtain ⟨slot, table, -, above, -⟩ := State.checkReg_lost_rebase_slot lost hx
    have regs := State.checkReg_lost_regs lost
    have touches := State.checkReg_lost_touches lost
    have unrebased : (s.checkReg (entryPoint b e) .rebase).regs[entryPoint b e].dueRebase = none := by
      rw [regs, getElem_fin_set_self]
      rfl
    have nextPlain : State.nextStep { s with
        regs := s.regs.set (entryPoint b e) { s.regs[entryPoint b e] with rebase := none }
        ecc := { s.ecc with registers := [] } } b = some (f, e) := next
    have cleanPlain : State.TablesClean { s with
        regs := s.regs.set (entryPoint b e) { s.regs[entryPoint b e] with rebase := none }
        ecc := { s.ecc with registers := [] } } := ⟨ha, rfl⟩
    have sameRegs : (State.regs { s with
        regs := s.regs.set (entryPoint b e) { s.regs[entryPoint b e] with rebase := none }
        ecc := { s.ecc with registers := [] } }) = (s.checkReg (entryPoint b e) .rebase).regs := regs.symm
    refine ⟨_, _, State.exec_pointStep ready next, State.exec_pointStep ready nextPlain, ?_⟩
    have alike := State.stepEntry_of_no_rebase_sameRecords clean cleanPlain (b := b) (e := e) sameRegs
      (touches.banks (by decide)).symm (touches.writer (by decide)).symm (touches.folds (by decide)).symm above unrebased f
    have same := State.stepEntry_regs_congr clean cleanPlain sameRegs (touches.banks (by decide)).symm b f e
    have requests := State.stepEntry_requests_of_no_rebase clean unrebased f
    rw [behind]
    refine ⟨same.symm, alike.writer.symm, alike.folds.symm, fun a ha => Memory.read_of_above alike.mem.symm ha, ?_, ?_⟩
    · rw [requests]
      exact slot
    · rw [requests]
      exact table

end Sys2Proof.Machine
end

section
/-! SUPPORT. A check of the accounting table (R72, R190, R191). -/

namespace Sys2Proof.Machine

/-! ### The loss of a word -/

/-- The change of one word of an entry with DAMAGED is the loss of that word (R72). -/
theorem AccSet.entryLost_damage (x : AccSet) (e : Fin 6) {f f' : PointEntry → PointEntry} {g g' : BalanceEntry → BalanceEntry}
    (hf : ∀ z, ({ f z with damaged := true } : PointEntry) = { f' z with damaged := true })
    (hg : ∀ z, ({ g z with damaged := true } : BalanceEntry) = { g' z with damaged := true }) :
    x.EntryLost ((x.mapEntry e f g).damage e) e f' g' := by
  have beside (y : AccSet) (f : PointEntry → PointEntry) (g : BalanceEntry → BalanceEntry) :
      y.mapEntry e f g = { y with entries := (y.mapEntry e f g).entries, balance := (y.mapEntry e f g).balance } := by
    unfold AccSet.mapEntry
    split
    · rfl
    · rfl
  unfold AccSet.damage
  refine ⟨?_, fun i => ?_, ?_⟩
  · have outer := beside (x.mapEntry e f g) (fun y => { y with damaged := true }) (fun y => { y with damaged := true })
    have inner := beside x f g
    rw [outer]
    generalize ((x.mapEntry e f g).mapEntry e _ _) = w
    rw [inner]
  · rw [AccSet.mapEntry_entries, AccSet.mapEntry_entries]
    split
    · exact hf _
    · rfl
  · rw [AccSet.mapEntry_balance_eq, AccSet.mapEntry_balance_eq]
    split
    · rw [Option.map_map]
      exact congrArg (fun h => x.balance.map h) (funext hg)
    · rfl

/-- A set is determined by the word lost in it. -/
theorem AccSet.EntryLost.unique {x y z : AccSet} {e : Fin 6} {f : PointEntry → PointEntry} {g : BalanceEntry → BalanceEntry}
    (hy : x.EntryLost y e f g) (hz : x.EntryLost z e f g) : y = z := by
  obtain ⟨wholeY, entriesY, balanceY⟩ := hy
  obtain ⟨wholeZ, entriesZ, balanceZ⟩ := hz
  have entries : y.entries = z.entries := by
    apply Vector.ext
    intro i hi
    exact (entriesY ⟨i, hi⟩).trans (entriesZ ⟨i, hi⟩).symm
  rw [wholeY, wholeZ, entries, balanceY, balanceZ]

theorem AccSet.setLost_damageAll (x : AccSet) {y : AccSet} {f : AccSet → AccSet} (hy : y = (f x).damageAll)
    (he : (f x).entries = x.entries) (hb : (f x).balance = x.balance) : x.SetLost y f := by
  rw [hy]
  refine ⟨rfl, fun i => ?_, ?_⟩
  · unfold AccSet.damageAll
    simp only [getElem_fin_tabulate, he]
  · exact congrArg (Option.map _) hb

/-- What the loss of a word does to its set, word by word (R72). -/
theorem AccSet.loseWord_lost (x : AccSet) (it : AccItem) : match it with
    | .acc e q => x.EntryLost (x.loseWord it) e
        (fun z => { z with acc := z.acc.set q 0 }) (fun z => { z with acc := z.acc.set q 0 })
    | .present e => x.EntryLost (x.loseWord it) e
        (fun z => { z with present := 0 }) (fun z => { z with balanced := 0 })
    | .absent e => x.EntryLost (x.loseWord it) e
        (fun z => { z with absent := 0 }) (fun z => { z with unbalanced := 0 })
    | .clipped e => x.EntryLost (x.loseWord it) e (fun z => { z with clipped := 0 }) (fun z => z)
    | .flag e => x.EntryLost (x.loseWord it) e (fun z => { z with maskChanged := false }) (fun z => z)
    | .mask e => x.EntryLost (x.loseWord it) e (fun z => { z with mask := 0 }) (fun z => z)
    | .invert e => x.EntryLost (x.loseWord it) e (fun z => { z with invert := false }) (fun z => z)
    | .interval => x.SetLost (x.loseWord it) (fun x => { x with interval := 0 })
    | .start => x.SetLost (x.loseWord it) (fun x => { x with start := some 0 })
    | .last => x.SetLost (x.loseWord it) (fun x => { x with last := some 0 })
    | .span => x.SetLost (x.loseWord it) (fun x => { x with span := 0 })
    | .causes => x.SetLost (x.loseWord it) (fun x => { x with causes := ⟨false, false, false, false, false⟩ }) := by
  cases it
  case interval | start | last | span | causes =>
    dsimp only
    exact x.setLost_damageAll rfl rfl rfl
  all_goals exact x.entryLost_damage _ (fun _ => rfl) fun _ => rfl

theorem entryPoint_val (b : BankId) (e : Fin 6) : (entryPoint b e).val = if e.val < 5 then 5 * b.val + e.val else 40 := by
  unfold entryPoint
  split
  · rfl
  · rfl

theorem AccWord.location_of_entry {w : AccWord} {e : Fin 6} (h : w.item.entry = some e) :
    w.location = w.place e w.itemField := by
  unfold AccWord.location AccWord.place AccWord.pointField
  rw [h]
  dsimp only
  rw [entryPoint_val]

theorem AccWord.location_of_set {w : AccWord} (h : w.item.entry = none) :
    w.location.toNat / 256 = 255 + 256 * w.set.val + 65536 * w.bank.val := by
  have field : w.itemField < 256 := by
    unfold AccWord.itemField
    cases hw : w.item
    case acc | present | absent | clipped | flag | mask | invert =>
      rw [hw] at h
      cases h
    all_goals exact Config.accountingSetItem.isLt
  have := w.set.isLt
  have := w.bank.isLt
  unfold AccWord.location AccWord.pointField
  rw [h]
  dsimp only
  rw [BitVec.toNat_ofNat]
  omega

/-! ### A check -/

theorem State.checkAcc_of_clean {s : State} {w : AccWord} (h : s.ecc.accounting.lookup w = none) : s.checkAcc w = s := by
  unfold State.checkAcc
  rw [h]

theorem State.checkAcc_of_single {s : State} {w : AccWord} (h : s.ecc.accounting.lookup w = some .single) :
    s.checkAcc w = (s.accWritten w).countCorrected := by
  unfold State.checkAcc
  rw [h]

/-- A lost word of a set rewritten. -/
def State.withLostWord (s : State) (w : AccWord) : State :=
  s.putBank w.bank (s.banks[w.bank].withSet w.set (s.banks[w.bank].sets[w.set].loseWord w.item))

theorem State.checkAcc_of_uncorrectable {s : State} {w : AccWord} (h : s.ecc.accounting.lookup w = some .uncorrectable) :
    s.checkAcc w = ((s.report .accounting w.location).accWritten w).withLostWord w := by
  unfold State.checkAcc
  rw [h]
  rfl

theorem State.withLostWord_touches (s : State) (w : AccWord) : s.Touches [.banks, .exchangeMarks] (s.withLostWord w) :=
  s.putBank_touches _ _

section
variable {s : State} {w : AccWord}

theorem State.checkAcc_marks_of_error (h : s.ecc.accounting.lookup w ≠ none) :
    (s.checkAcc w).ecc.accounting = s.ecc.accounting.filter fun m => m.1 != w := by
  cases hm : s.ecc.accounting.lookup w with
  | none => exact absurd hm h
  | some m =>
    cases m with
    | single =>
      rw [State.checkAcc_of_single hm]
      rfl
    | uncorrectable =>
      rw [State.checkAcc_of_uncorrectable hm, (State.withLostWord_touches _ w).accountingMarks (by decide)]
      unfold State.accWritten
      dsimp only
      rw [(s.report_touches .accounting w.location).accountingMarks (by decide)]

theorem State.checkAcc_lost_banks (h : s.ecc.accounting.lookup w = some .uncorrectable) :
    (s.checkAcc w).banks =
      s.banks.set w.bank (s.banks[w.bank].withSet w.set (s.banks[w.bank].sets[w.set].loseWord w.item)) := by
  have banks : ((s.report .accounting w.location).accWritten w).banks = s.banks :=
    ((State.accWritten_touches _ w).banks (by decide)).trans ((s.report_touches .accounting w.location).banks (by decide))
  rw [State.checkAcc_of_uncorrectable h, ← banks]
  rfl

theorem State.checkAcc_lost_reported (h : s.ecc.accounting.lookup w = some .uncorrectable) :
    s.Reported (s.checkAcc w) .accounting (· = w.location) := by
  have reported : s.Reported (s.report .accounting w.location) .accounting (· = w.location) := s.report_reported .accounting rfl
  have touches : (s.report .accounting w.location).Touches [.accountingMarks, .banks, .exchangeMarks] (s.checkAcc w) := by
    rw [State.checkAcc_of_uncorrectable h]
    exact (State.accWritten_touches _ w).seq (State.withLostWord_touches _ w) (by decide) (by decide)
  refine reported.after (touches.capture (by decide)) fun latched => ?_
  unfold State.latched at latched ⊢
  rw [touches.latched_eq (by decide)]
  exact latched

theorem State.checkAcc_lost_watchCounters (h : s.ecc.accounting.lookup w = some .uncorrectable) :
    (s.checkAcc w).watchCounters = s.watchCounters := by
  rw [State.checkAcc_of_uncorrectable h,
    (State.withLostWord_touches _ w).watchCounters (by decide) (by decide) (by decide),
    (State.accWritten_touches _ w).watchCounters (by decide) (by decide) (by decide), State.report_watchCounters]

/-- A lost word of an entry or of the set as a whole, by its place (R72, spec 11.6). -/
theorem State.checkAcc_lost_place (h : s.ecc.accounting.lookup w = some .uncorrectable) :
    s.Reported (s.checkAcc w) .accounting (fun location => match w.item with
      | .acc e q => location = w.place e q.val
      | .present e => location = w.place e 104
      | .absent e => location = w.place e 105
      | .clipped e => location = w.place e 106
      | .flag e | .mask e | .invert e => location = w.place e 107
      | .interval | .start | .last | .span | .causes =>
        location.toNat / 256 = 255 + 256 * w.set.val + 65536 * w.bank.val) := by
  refine (State.checkAcc_lost_reported h).mono fun v hv => ?_
  rw [hv]
  obtain ⟨b, i, it⟩ := w
  cases it
  case interval | start | last | span | causes => exact AccWord.location_of_set rfl
  all_goals exact AccWord.location_of_entry rfl

end

end Sys2Proof.Machine
end

section
/-! SUPPORT. Reads of several words of an accounting set of which some are lost (R72, R87). -/

namespace Sys2Proof.Machine

/-! ### A set behind the loss of a word -/

theorem AccSet.loseWord_interval (x : AccSet) (it : AccItem) :
    (x.loseWord it).interval = if it = .interval then 0 else x.interval := by
  have lost := x.loseWord_lost it
  cases it
  all_goals exact (congrArg AccSet.interval lost.1).trans rfl

theorem AccSet.loseWord_span (x : AccSet) (it : AccItem) : (x.loseWord it).span = if it = .span then 0 else x.span := by
  have lost := x.loseWord_lost it
  cases it
  all_goals exact (congrArg AccSet.span lost.1).trans rfl

section
variable {x y : AccSet} {e : Fin 6} {f : PointEntry → PointEntry} {g : BalanceEntry → BalanceEntry}

/-- A change of the windows present of the entry that lost a word. -/
theorem AccSet.EntryLost.presentOf (h : x.EntryLost y e f g) {v : Word → Word} (hf : ∀ z, (f z).present = v z.present)
    (hg : ∀ z, (g z).balanced = v z.balanced) (hv : v 0 = 0) : y.presentOf e = v (x.presentOf e) := by
  obtain ⟨-, entries, balance⟩ := h
  unfold AccSet.presentOf
  by_cases he : e.val < 5
  · rw [dif_pos he, dif_pos he]
    have entry := entries ⟨e.val, he⟩
    rw [if_pos rfl] at entry
    exact (congrArg PointEntry.present entry).trans (hf _)
  · rw [dif_neg he, dif_neg he, balance, if_pos (by omega)]
    cases x.balance with
    | none => exact hv.symm
    | some z => exact hg z

/-- A change of the accumulators of the entry that lost a word. -/
theorem AccSet.EntryLost.totals (h : x.EntryLost y e f g) {v : Vector (BitVec 64) 104 → Vector (BitVec 64) 104}
    (hf : ∀ z, (f z).acc = v z.acc) (hg : ∀ z, (g z).acc = v z.acc) (hv : v (Vector.replicate 104 0) = Vector.replicate 104 0) :
    y.totals e = v (x.totals e) := by
  obtain ⟨-, entries, balance⟩ := h
  unfold AccSet.totals
  by_cases he : e.val < 5
  · rw [dif_pos he, dif_pos he]
    have entry := entries ⟨e.val, he⟩
    rw [if_pos rfl] at entry
    exact (congrArg PointEntry.acc entry).trans (hf _)
  · rw [dif_neg he, dif_neg he, balance, if_pos (by omega)]
    cases x.balance with
    | none => exact hv.symm
    | some z => exact hg z

theorem AccSet.SetLost.presentOf {h : AccSet → AccSet} (hl : x.SetLost y h) (e : Fin 6) : y.presentOf e = x.presentOf e := by
  obtain ⟨-, entries, balance⟩ := hl
  unfold AccSet.presentOf
  by_cases he : e.val < 5
  · rw [dif_pos he, dif_pos he]
    exact (congrArg PointEntry.present (entries ⟨e.val, he⟩)).trans rfl
  · rw [dif_neg he, dif_neg he, balance]
    cases x.balance with
    | none => rfl
    | some z => rfl

theorem AccSet.SetLost.totals {h : AccSet → AccSet} (hl : x.SetLost y h) (e : Fin 6) : y.totals e = x.totals e := by
  obtain ⟨-, entries, balance⟩ := hl
  unfold AccSet.totals
  by_cases he : e.val < 5
  · rw [dif_pos he, dif_pos he]
    exact (congrArg PointEntry.acc (entries ⟨e.val, he⟩)).trans rfl
  · rw [dif_neg he, dif_neg he, balance]
    cases x.balance with
    | none => rfl
    | some z => rfl

end

/-- The words that a READ_OPEN of entry `e` reads (R87). -/
def AccItem.readFor (e : Fin 6) (it : AccItem) : Prop :=
  it = .interval ∨ it = .span ∨ it = .present e ∨ ∃ q, it = .acc e q

theorem AccSet.loseWord_presentOf (x : AccSet) {e : Fin 6} {it : AccItem} (h : it.readFor e) :
    (x.loseWord it).presentOf e = if it = .present e then 0 else x.presentOf e := by
  have lost := x.loseWord_lost it
  rcases h with rfl | rfl | rfl | ⟨q, rfl⟩
  · exact AccSet.SetLost.presentOf lost e
  · exact AccSet.SetLost.presentOf lost e
  · rw [if_pos rfl]
    exact AccSet.EntryLost.presentOf lost (v := fun _ => 0) (fun _ => rfl) (fun _ => rfl) rfl
  · exact AccSet.EntryLost.presentOf lost (v := id) (fun _ => rfl) (fun _ => rfl) rfl

theorem AccSet.loseWord_totals (x : AccSet) {e : Fin 6} {it : AccItem} (h : it.readFor e) (q : QuantityId) :
    ((x.loseWord it).totals e)[q] = if it = .acc e q then 0 else (x.totals e)[q] := by
  have lost := x.loseWord_lost it
  rcases h with rfl | rfl | rfl | ⟨i, rfl⟩
  · rw [AccSet.SetLost.totals lost e]
    rfl
  · rw [AccSet.SetLost.totals lost e]
    rfl
  · rw [AccSet.EntryLost.totals lost (v := id) (fun _ => rfl) (fun _ => rfl) rfl]
    rfl
  · rw [AccSet.EntryLost.totals lost (v := fun v => v.set i 0) (fun _ => rfl) (fun _ => rfl) (Vector.set_replicate_self 0 i),
      getElem_fin_set]
    exact if_congr ⟨fun h => by rw [h], fun h => (AccItem.acc.inj h).2.symm⟩ rfl rfl

/-- From `x` to `y` the entries with `D` became DAMAGED, and no other (R72). -/
def AccSet.DamagedBy (x y : AccSet) (D : Fin 6 → Prop) : Prop :=
  (∀ j : Fin 5, y.entries[j].damaged = true ↔ x.entries[j].damaged = true ∨ D ⟨j.val, by omega⟩) ∧
  ∀ z, x.balance = some z → ∃ z', y.balance = some z' ∧ (z'.damaged = true ↔ z.damaged = true ∨ D 5)

theorem AccSet.DamagedBy.congr {x y : AccSet} {D D' : Fin 6 → Prop} (h : x.DamagedBy y D) (hD : ∀ j, D j ↔ D' j) :
    x.DamagedBy y D' := by
  obtain rfl : D = D' := funext fun j => propext (hD j)
  exact h

theorem AccSet.DamagedBy.refl (x : AccSet) : x.DamagedBy x fun _ => False :=
  ⟨fun _ => (iff_of_eq (or_false _)).symm, fun z hz => ⟨z, hz, (iff_of_eq (or_false _)).symm⟩⟩

theorem AccSet.DamagedBy.trans {x y w : AccSet} {D D' : Fin 6 → Prop} (h : x.DamagedBy y D) (h' : y.DamagedBy w D') :
    x.DamagedBy w fun j => D j ∨ D' j := by
  obtain ⟨entries, balance⟩ := h
  obtain ⟨entries', balance'⟩ := h'
  refine ⟨fun j => (entries' j).trans ?_, fun z hz => ?_⟩
  · rw [entries j, or_assoc]
  · obtain ⟨z1, hz1, damaged1⟩ := balance z hz
    obtain ⟨z2, hz2, damaged2⟩ := balance' z1 hz1
    exact ⟨z2, hz2, damaged2.trans (by rw [damaged1, or_assoc])⟩

theorem AccSet.EntryLost.damagedBy {x y : AccSet} {e : Fin 6} {f : PointEntry → PointEntry} {g : BalanceEntry → BalanceEntry}
    (h : x.EntryLost y e f g) : x.DamagedBy y (· = e) := by
  obtain ⟨-, entries, balance⟩ := h
  refine ⟨fun j => ?_, fun z hz => ?_⟩
  · rw [entries j]
    by_cases hj : j.val = e.val
    · rw [if_pos hj]
      exact ⟨fun _ => Or.inr (Fin.ext hj), fun _ => rfl⟩
    · rw [if_neg hj]
      exact ⟨Or.inl, fun h => h.resolve_right fun heq => hj (congrArg Fin.val heq)⟩
  · rw [balance, hz]
    by_cases he : e.val = 5
    · rw [if_pos he]
      exact ⟨_, rfl, fun _ => Or.inr (Fin.ext he.symm), fun _ => rfl⟩
    · rw [if_neg he]
      exact ⟨z, rfl, Or.inl, fun h => h.resolve_right fun heq => he (congrArg Fin.val heq.symm)⟩

theorem AccSet.SetLost.damagedBy {x y : AccSet} {f : AccSet → AccSet} (h : x.SetLost y f) : x.DamagedBy y fun _ => True := by
  obtain ⟨-, entries, balance⟩ := h
  refine ⟨fun j => ?_, fun z hz => ?_⟩
  · rw [entries j]
    exact ⟨fun _ => Or.inr trivial, fun _ => rfl⟩
  · rw [balance, hz]
    exact ⟨_, rfl, fun _ => Or.inr trivial, fun _ => rfl⟩

/-- A lost word damages its entry, or every entry of the set (R72). -/
theorem AccSet.loseWord_damagedBy (x : AccSet) (it : AccItem) :
    x.DamagedBy (x.loseWord it) fun j => it.entry = none ∨ it.entry = some j := by
  have lost := x.loseWord_lost it
  cases it
  case interval | start | last | span | causes =>
    exact (AccSet.SetLost.damagedBy lost).congr fun _ => ⟨fun _ => Or.inl rfl, fun _ => trivial⟩
  all_goals
    refine (AccSet.EntryLost.damagedBy lost).congr fun j => ?_
    exact ⟨fun h => Or.inr (congrArg some h.symm), fun h => (Option.some.inj (h.resolve_left nofun)).symm⟩

/-! ### A set behind the loss of several words -/

/-- The set behind the reads of words of which some are lost. -/
def AccSet.loseAll (lost : AccItem → Bool) (x : AccSet) (items : List AccItem) : AccSet :=
  items.foldl (fun x it => if lost it = true then x.loseWord it else x) x

/-- What the set shows of one word: 0 when the word was read and lost. -/
theorem AccSet.loseAll_project {α : Type} {π : AccSet → α} {target : AccItem} {z : α} {items : List AccItem}
    (h : ∀ x : AccSet, ∀ it ∈ items, π (x.loseWord it) = if it = target then z else π x) (lost : AccItem → Bool) (x : AccSet) :
    π (x.loseAll lost items) = if target ∈ items ∧ lost target = true then z else π x := by
  induction items generalizing x with
  | nil => exact (if_neg fun hin => absurd hin.1 List.not_mem_nil).symm
  | cons it items ih =>
    have rest := ih (fun x it' hit' => h x it' (List.mem_cons_of_mem it hit')) (if lost it = true then x.loseWord it else x)
    refine rest.trans ?_
    have first : π (if lost it = true then x.loseWord it else x) = if it = target ∧ lost target = true then z else π x := by
      by_cases hl : lost it = true
      · rw [if_pos hl, h x it List.mem_cons_self]
        exact if_congr ⟨fun heq => ⟨heq, heq ▸ hl⟩, And.left⟩ rfl rfl
      · rw [if_neg hl, if_neg]
        rintro ⟨rfl, h⟩
        exact hl h
    rw [first]
    by_cases later : target ∈ items ∧ lost target = true
    · rw [if_pos later, if_pos ⟨List.mem_cons_of_mem it later.1, later.2⟩]
    · rw [if_neg later]
      refine if_congr ⟨fun ⟨heq, hl⟩ => ⟨heq ▸ List.mem_cons_self, hl⟩, fun ⟨hin, hl⟩ => ⟨?_, hl⟩⟩ rfl rfl
      exact ((List.mem_cons.mp hin).resolve_right fun hm => later ⟨hm, hl⟩).symm

theorem AccSet.loseAll_damagedBy (lost : AccItem → Bool) (x : AccSet) (items : List AccItem) :
    x.DamagedBy (x.loseAll lost items) fun j =>
      ∃ it ∈ items, lost it = true ∧ (it.entry = none ∨ it.entry = some j) := by
  induction items generalizing x with
  | nil => exact (AccSet.DamagedBy.refl x).congr fun j => ⟨False.elim, fun ⟨_, hin, _⟩ => absurd hin List.not_mem_nil⟩
  | cons it items ih =>
    have first : x.DamagedBy (if lost it = true then x.loseWord it else x) fun j =>
        lost it = true ∧ (it.entry = none ∨ it.entry = some j) := by
      by_cases hl : lost it = true
      · rw [if_pos hl]
        exact (x.loseWord_damagedBy it).congr fun j => ⟨fun h => ⟨hl, h⟩, And.right⟩
      · rw [if_neg hl]
        exact (AccSet.DamagedBy.refl x).congr fun j => ⟨False.elim, fun h => hl h.1⟩
    refine (first.trans (ih _)).congr fun j => ?_
    simp only [List.mem_cons, exists_eq_or_imp]

/-! ### The checks -/

theorem Bank.withSet_self (x : Bank) (i : Fin 2) : x.withSet i x.sets[i] = x := by
  unfold Bank.withSet
  rw [show x.sets.set i x.sets[i] = x.sets from Vector.set_getElem_self i.isLt]

theorem State.checkAcc_lookup_of_ne (s : State) {w v : AccWord} (h : v ≠ w) :
    (s.checkAcc w).ecc.accounting.lookup v = s.ecc.accounting.lookup v := by
  cases hm : s.ecc.accounting.lookup w with
  | none => rw [State.checkAcc_of_clean hm]
  | some m =>
    rw [State.checkAcc_marks_of_error (by rw [hm]; exact nofun), lookup_filter_fst s.ecc.accounting (fun u => u != w) v,
      if_pos (bne_iff_ne.mpr h)]

theorem State.checkAcc_banks_of_mark {s : State} {b : BankId} {i : Fin 2} {it : AccItem} {l : Bool}
    (h : l = decide (s.ecc.accounting.lookup ⟨b, i, it⟩ = some .uncorrectable)) : (s.checkAcc ⟨b, i, it⟩).banks =
      s.banks.set b (s.banks[b].withSet i (if l = true then s.banks[b].sets[i].loseWord it else s.banks[b].sets[i])) := by
  have same : s.banks = s.banks.set b (s.banks[b].withSet i s.banks[b].sets[i]) := by
    rw [Bank.withSet_self]
    exact (Vector.set_getElem_self b.isLt).symm
  cases hm : s.ecc.accounting.lookup ⟨b, i, it⟩ with
  | none =>
    rw [hm] at h
    rw [State.checkAcc_of_clean hm, h, if_neg (by decide)]
    exact same
  | some m =>
    cases m with
    | single =>
      rw [hm] at h
      rw [State.checkAcc_of_single hm, h, if_neg (by decide)]
      exact same
    | uncorrectable =>
      rw [hm] at h
      rw [State.checkAcc_lost_banks hm, h, if_pos (by decide)]

/-- What the reads of several words of one set find: every lost word has its effect (R72). -/
theorem State.checkAccs_lost {s : State} {b : BankId} {i : Fin 2} {lost : AccItem → Bool} {items : List AccItem}
    (hn : items.Nodup) (h : ∀ it ∈ items, lost it = decide (s.ecc.accounting.lookup ⟨b, i, it⟩ = some .uncorrectable)) :
    (s.checkAccs b i items).banks =
      s.banks.set b (s.banks[b].withSet i (s.banks[b].sets[i].loseAll lost items)) := by
  induction items generalizing s with
  | nil =>
    have same : s.banks[b].withSet i (s.banks[b].sets[i].loseAll lost []) = s.banks[b] := Bank.withSet_self _ _
    rw [same]
    exact (Vector.set_getElem_self b.isLt).symm
  | cons it items ih =>
    obtain ⟨fresh, distinct⟩ := List.nodup_cons.mp hn
    have first := State.checkAcc_banks_of_mark (h it List.mem_cons_self)
    have rest := ih (s := s.checkAcc ⟨b, i, it⟩) distinct fun it' hit' => by
      have other : (⟨b, i, it'⟩ : AccWord) ≠ ⟨b, i, it⟩ := fun heq => by
        cases heq
        exact fresh hit'
      rw [State.checkAcc_lookup_of_ne s other]
      exact h it' (List.mem_cons_of_mem it hit')
    refine rest.trans ?_
    rw [first, getElem_fin_set_self, Vector.set_set]
    unfold Bank.withSet
    dsimp only
    rw [getElem_fin_set_self, Vector.set_set]
    rfl

end Sys2Proof.Machine
end

section
/-! SUPPORT. Memory errors of the accounting table, settled (R72, R87, R97, R124, R190, R191). -/

namespace Sys2Proof.Machine

/-! ### READ_OPEN -/

/-- The words that a READ_OPEN reads, in their order (R87). -/
def openReads (e : Fin 6) (first count : Nat) : List AccItem :=
  [.interval, .span, .present e] ++ (quantityRange first count).map (AccItem.acc e)

theorem mem_quantityRange {first count : Nat} {q : QuantityId} :
    q ∈ quantityRange first count ↔ first ≤ q.val ∧ q.val < first + count := by
  simp [quantityRange]

theorem mem_openReads {e : Fin 6} {first count : Nat} {it : AccItem} : it ∈ openReads e first count ↔
    it = .interval ∨ it = .span ∨ it = .present e ∨ ∃ q ∈ quantityRange first count, it = .acc e q := by
  simp only [openReads, List.cons_append, List.nil_append, List.mem_cons, List.mem_map, eq_comm]

theorem readFor_of_mem {e : Fin 6} {first count : Nat} {it : AccItem} (h : it ∈ openReads e first count) : it.readFor e := by
  rcases mem_openReads.mp h with h | h | h | ⟨q, -, h⟩
  · exact Or.inl h
  · exact Or.inr (Or.inl h)
  · exact Or.inr (Or.inr (Or.inl h))
  · exact Or.inr (Or.inr (Or.inr ⟨q, h⟩))

theorem openReads_nodup (e : Fin 6) (first count : Nat) : (openReads e first count).Nodup := by
  have range : (quantityRange first count).Nodup := (List.nodup_finRange 104).filter _
  have words : ((quantityRange first count).map (AccItem.acc e)).Nodup :=
    range.map fun _ _ h => (AccItem.acc.inj h).2
  unfold openReads
  simp [words]

/-- A set behind the reads of a READ_OPEN (R72, R87). -/
theorem AccSet.loseAll_openReads (lost : AccItem → Bool) (x y : AccSet) {e : Fin 6} {first count : Nat}
    (hy : y = x.loseAll lost (openReads e first count)) :
    y.interval = (if lost .interval = true then 0 else x.interval) ∧ y.span = (if lost .span = true then 0 else x.span) ∧
    y.presentOf e = (if lost (.present e) = true then 0 else x.presentOf e) ∧
    (∀ q ∈ quantityRange first count, (y.totals e)[q] = if lost (.acc e q) = true then 0 else (x.totals e)[q]) ∧
    x.DamagedBy y fun j => lost .interval = true ∨ lost .span = true ∨ j = e ∧ (lost (.present e) = true ∨
      ∃ q ∈ quantityRange first count, lost (.acc e q) = true) := by
  have member {it : AccItem} (h : it ∈ openReads e first count) {α : Type} (u w : α) :
      (if it ∈ openReads e first count ∧ lost it = true then u else w) = if lost it = true then u else w :=
    if_congr (and_iff_right h) rfl rfl
  have interval := AccSet.loseAll_project (items := openReads e first count) (fun x it _ => x.loseWord_interval it) lost x
  have span := AccSet.loseAll_project (items := openReads e first count) (fun x it _ => x.loseWord_span it) lost x
  have present := AccSet.loseAll_project (π := fun x => x.presentOf e) (items := openReads e first count)
    (fun x it hit => x.loseWord_presentOf (readFor_of_mem hit)) lost x
  have totals (q : QuantityId) := AccSet.loseAll_project (π := fun x => (x.totals e)[q]) (items := openReads e first count)
    (fun x it hit => x.loseWord_totals (readFor_of_mem hit) q) lost x
  subst hy
  refine ⟨?_, ?_, ?_, fun q hq => ?_, ?_⟩
  · rw [interval, member (mem_openReads.mpr (Or.inl rfl))]
  · rw [span, member (mem_openReads.mpr (Or.inr (Or.inl rfl)))]
  · rw [present, member (mem_openReads.mpr (Or.inr (Or.inr (Or.inl rfl))))]
  · rw [totals q, member (mem_openReads.mpr (Or.inr (Or.inr (Or.inr ⟨q, hq, rfl⟩))))]
  · refine (x.loseAll_damagedBy lost (openReads e first count)).congr fun j => ⟨?_, ?_⟩
    · rintro ⟨it, hit, hl, hentry⟩
      rcases mem_openReads.mp hit with rfl | rfl | rfl | ⟨q, hq, rfl⟩
      · exact Or.inl hl
      · exact Or.inr (Or.inl hl)
      · exact Or.inr (Or.inr ⟨(Option.some.inj (hentry.resolve_left nofun)).symm, Or.inl hl⟩)
      · exact Or.inr (Or.inr ⟨(Option.some.inj (hentry.resolve_left nofun)).symm, Or.inr ⟨q, hq, hl⟩⟩)
    · rintro (hl | hl | ⟨rfl, hl | ⟨q, hq, hl⟩⟩)
      · exact ⟨_, mem_openReads.mpr (Or.inl rfl), hl, Or.inl rfl⟩
      · exact ⟨_, mem_openReads.mpr (Or.inr (Or.inl rfl)), hl, Or.inl rfl⟩
      · exact ⟨_, mem_openReads.mpr (Or.inr (Or.inr (Or.inl rfl))), hl, Or.inr rfl⟩
      · exact ⟨_, mem_openReads.mpr (Or.inr (Or.inr (Or.inr ⟨q, hq, rfl⟩))), hl, Or.inr rfl⟩

theorem State.SameArea.checkAcc (s : State) (w : AccWord) (k : SlotId) : s.SameArea (s.checkAcc w) k := by
  unfold State.checkAcc
  split
  · exact .refl s k
  · unfold State.countCorrected State.putWatchCounters
    refine .trans (.of_same rfl rfl k : s.SameArea (s.accWritten w) k) (.rewritten _ _ ?_ ?_ k)
    · rfl
    · rfl
  · have reported : s.SameArea (s.report .accounting w.location) k := .of_ordinary (fun _ hw => .report s _ _ hw) k
    have written : (s.report .accounting w.location).SameArea ((s.report .accounting w.location).accWritten w) k :=
      .of_same rfl rfl k
    exact .trans (reported.trans written) (.putBank _ _ _ k)

theorem State.SameArea.checkAccs (s : State) (b : BankId) (i : Fin 2) (items : List AccItem) (k : SlotId) :
    s.SameArea (s.checkAccs b i items) k := by
  unfold State.checkAccs
  induction items generalizing s with
  | nil => exact .refl s k
  | cons it items ih => exact .trans (.checkAcc s _ k) (ih _)

/-- A READ_OPEN over a set with lost words: it returns what it so reads (R87). -/
theorem State.readSet_of_lost {s v : State} {k : SlotId} {rest : List SlotId} (hand : s.InHand v k rest) (p : SetId) (i : Fin 2)
    {first count : Nat} (hc : count ≤ 40) {lost : AccItem → Bool}
    (hl : ∀ it, lost it = decide (v.ecc.accounting.lookup ⟨bankOfSet p, i, it⟩ = some .uncorrectable)) :
    ∃ y, y = v.banks[bankOfSet p].sets[i].loseAll lost (openReads (entryOf p) first count) ∧
      (v.readSet k p i first count).banks[bankOfSet p].sets[i] = y ∧
      s.Ended (v.readSet k p i first count) k rest .done { okReply with
        interval := y.interval, windows := y.span, count := (y.presentOf (entryOf p)).toNat
        data := (quantityRange first count).flatMap fun q => leBytes 8 (y.totals (entryOf p))[q].toNat } := by
  have banks := State.checkAccs_lost (openReads_nodup (entryOf p) first count) fun it _ => hl it
  have touches := v.checkAccs_touches (bankOfSet p) i (openReads (entryOf p) first count)
  have area := State.SameArea.checkAccs v (bankOfSet p) i (openReads (entryOf p) first count) k
  have inSet : (v.checkAccs (bankOfSet p) i (openReads (entryOf p) first count)).banks[bankOfSet p].sets[i] =
      v.banks[bankOfSet p].sets[i].loseAll lost (openReads (entryOf p) first count) := by
    rw [banks, getElem_fin_set_self]
    exact getElem_fin_set_self _ _ _
  have read : v.readSet k p i first count =
      (v.checkAccs (bankOfSet p) i (openReads (entryOf p) first count)).finish k .done { okReply with
        interval := (v.checkAccs (bankOfSet p) i (openReads (entryOf p) first count)).banks[bankOfSet p].sets[i].interval
        windows := (v.checkAccs (bankOfSet p) i (openReads (entryOf p) first count)).banks[bankOfSet p].sets[i].span
        count := ((v.checkAccs (bankOfSet p) i (openReads (entryOf p) first count)).banks[bankOfSet p].sets[i].presentOf
          (entryOf p)).toNat
        data := (quantityRange first count).flatMap fun q =>
          leBytes 8 ((v.checkAccs (bankOfSet p) i (openReads (entryOf p) first count)).banks[bankOfSet p].sets[i].totals
            (entryOf p))[q].toNat } := rfl
  rw [inSet] at read
  refine ⟨_, rfl, ?_, ?_⟩
  · rw [read, State.finish_banks]
    exact inSet
  · rw [read]
    exact (hand.step touches (by decide) area).ended .done (readSet_data_length hc)

/-! ### A point step -/

theorem State.checkAccs_of_single_mark {s : State} {b : BankId} {i : Fin 2} {it : AccItem} {items : List AccItem}
    (hm : s.ecc.accounting = [(⟨b, i, it⟩, .uncorrectable)]) (hit : it ∈ items) :
    s.checkAccs b i items = s.checkAcc ⟨b, i, it⟩ ∧ (s.checkAcc ⟨b, i, it⟩).ecc.accounting = [] := by
  have marked : s.ecc.accounting.lookup ⟨b, i, it⟩ ≠ none := by
    rw [hm]
    simp
  have cleaned : (s.checkAcc ⟨b, i, it⟩).ecc.accounting = [] := by
    rw [State.checkAcc_marks_of_error marked, hm]
    simp
  refine ⟨?_, cleaned⟩
  induction items with
  | nil => exact absurd hit List.not_mem_nil
  | cons it' items ih =>
    have unfolded : s.checkAccs b i (it' :: items) = (s.checkAcc ⟨b, i, it'⟩).checkAccs b i items := rfl
    rw [unfolded]
    by_cases heq : it' = it
    · rw [heq, State.checkAccs_of_clean cleaned]
    · have clean : s.checkAcc ⟨b, i, it'⟩ = s := by
        refine State.checkAcc_of_clean ?_
        rw [hm]
        simp [heq]
      rw [clean]
      exact ih ((List.mem_cons.mp hit).resolve_left fun h => heq h.symm)

/-- The parts that the report and the loss of a word of the accounting table may touch. -/
def Part.ofAccReport : List Part := [.capture, .latched, .corrected, .exchangeMarks, .accountingMarks, .banks]

theorem State.checkAcc_lost_touches {s : State} {w : AccWord} (h : s.ecc.accounting.lookup w = some .uncorrectable) :
    s.Touches Part.ofAccReport (s.checkAcc w) := by
  rw [State.checkAcc_of_uncorrectable h]
  exact ((s.report_touches _ _).mono (by decide)).trans
    ((State.accWritten_touches _ w).seq (State.withLostWord_touches _ w) (by decide) (by decide))

/-- The reads of a step whose one word in error is a total of its entry (R97). -/
theorem State.stepReads_of_lost_total {s : State} {b : BankId} {i : Fin 2} {e : Fin 6} {q : QuantityId}
    (hr : s.ecc.registers = []) (ha : s.ecc.accounting = [(⟨b, i, .acc e q⟩, .uncorrectable)]) :
    s.stepReads b i e = s.checkAcc ⟨b, i, .acc e q⟩ ∧ (s.checkAcc ⟨b, i, .acc e q⟩).TablesClean := by
  obtain ⟨checks, clean⟩ := State.checkAccs_of_single_mark (items := (List.finRange 104).map (AccItem.acc e)) ha
    (List.mem_map.mpr ⟨q, List.mem_finRange q, rfl⟩)
  have marked : s.ecc.accounting.lookup ⟨b, i, .acc e q⟩ = some .uncorrectable := by
    rw [ha]
    simp
  refine ⟨?_, clean, ((State.checkAcc_lost_touches marked).registerMarks (by decide)).trans hr⟩
  unfold State.stepReads
  dsimp only
  rw [State.checkRegs_of_clean hr, State.checkRegs_of_clean hr, checks]

theorem AccSet.EntryLost.hasStep {x y : AccSet} {e : Fin 6} {f : PointEntry → PointEntry} {g : BalanceEntry → BalanceEntry}
    (h : x.EntryLost y e f g) (hf : ∀ z, (f z).inUse = z.inUse) (i : Fin 6) : y.hasStep i = x.hasStep i := by
  obtain ⟨-, entries, balance⟩ := h
  unfold AccSet.hasStep
  by_cases hi : i.val < 5
  · rw [dif_pos hi, dif_pos hi]
    refine (congrArg PointEntry.inUse (entries ⟨i.val, hi⟩)).trans ?_
    split
    · exact hf _
    · rfl
  · rw [dif_neg hi, dif_neg hi, balance]
    split
    · exact Option.isSome_map
    · rfl

/-- The next step depends on the fold and on which entries of its set have a step (R96). -/
theorem State.nextStep_congr {s v : State} {b : BankId} {f : Fold} (hfold : s.folds[b] = some f) (hf : v.folds = s.folds)
    (hs : ∀ i, v.banks[b].sets[f.set].hasStep i = s.banks[b].sets[f.set].hasStep i) : v.nextStep b = s.nextStep b := by
  unfold State.nextStep
  rw [hf, hfold]
  dsimp only
  simp only [hs]

theorem State.stepEntry_capture {s : State} (h : s.TablesClean) (b : BankId) (f : Fold) (e : Fin 6) :
    (s.stepEntry b f e).capture = s.capture := by
  rw [State.stepEntry_of_clean h, (State.stepEnded_touches _ b _ e).capture (by decide), State.stepRecord_settled h]
  split
  · exact ((State.writeRecord_recordEffect _ b _ _).touches.capture (by decide)).trans
      ((s.stepSettled_touches b f e).capture (by decide))
  · exact (s.stepSettled_touches b f e).capture (by decide)

/-- The same step over states alike (R97). -/
theorem State.stepEntry_alike {u v : State} (hu : u.TablesClean) (hv : v.TablesClean) (hr : v.regs = u.regs)
    (hb : v.banks = u.banks) (hw : v.writer = u.writer) (hf : v.folds = u.folds) (hm : v.mem = u.mem) (b : BankId) (f : Fold)
    (e : Fin 6) : (v.stepEntry b f e).banks = (u.stepEntry b f e).banks ∧ (v.stepEntry b f e).regs = (u.stepEntry b f e).regs ∧
      (v.stepEntry b f e).mem = (u.stepEntry b f e).mem ∧ (v.stepEntry b f e).writer = (u.stepEntry b f e).writer ∧
      (v.stepEntry b f e).folds = (u.stepEntry b f e).folds := by
  have settled := State.stepSettled_mem_congr hm hr hb b f e
  have alike := State.stepEntry_sameRecords keptByPageWrites_eq hu hv hr hb (State.stepSettled_sameRecords hw hf settled.symm)
  refine ⟨?_, State.stepEntry_regs_congr hu hv hr hb b f e, alike.mem.symm, alike.writer, alike.folds⟩
  rw [State.stepEntry_banks hu, State.stepEntry_banks hv, hb]

/-- Settles O42: one check, the reads of a READ_OPEN as a fold of losses, and the step as one behind its reads. -/
theorem accountingTableErrors : Obligations.AccountingTableErrors := by
  refine ⟨fun s t w ht => ?_, fun s k rest p i first count x lost hm hh hp hf hc hone hmax hend hopt hset hx hlost => ?_,
    fun s b f e q y ready next hr ha hy => ?_⟩
  · subst ht
    refine ⟨State.checkAcc_of_clean, fun marked => ?_, fun single => ?_, fun bad => ?_⟩
    · rw [State.checkAcc_marks_of_error marked]
      exact List.filter_congr fun m _ => by rw [Bool.eq_iff_iff, bne_iff_ne, decide_eq_true_iff]
    · rw [State.checkAcc_of_single single]
      exact ⟨rfl, rfl, rfl⟩
    · have banks := State.checkAcc_lost_banks bad
      have inSet : (s.checkAcc w).banks[w.bank].sets[w.set] = s.banks[w.bank].sets[w.set].loseWord w.item := by
        rw [banks, getElem_fin_set_self]
        exact getElem_fin_set_self _ _ _
      refine ⟨State.checkAcc_lost_place bad, State.checkAcc_lost_watchCounters bad, ?_, ?_⟩
      · rw [inSet]
        exact banks
      · rw [inSet]
        exact AccSet.loseWord_lost _ w.item
  · have hand := State.InHand.beginTake hm.1 k rest
    have area := State.SameArea.beginTake s k rest
    have h10 := area.param 0x10 2 (by decide) (by decide)
    have h12 := area.param 0x12 2 (by decide) (by decide)
    have h14 := area.param 0x14 2 (by decide) (by decide)
    obtain ⟨z, hz, inSet, ended⟩ := State.readSet_of_lost hand p i (first := first) (lost := lost) hmax
      (by rw [State.beginTake_accountingMarks]; exact hlost)
    rw [State.beginTake_banks, hx] at hz
    obtain ⟨hinterval, hspan, hpresent, htotals, entries, balance⟩ := AccSet.loseAll_openReads lost x z hz
    have source : (s.beginTake k rest).readSource k p = some i := by
      unfold State.readSource
      rw [area.optionWord, State.beginTake_banks]
      exact hset
    have taken : (s.beginTake k rest).takeReadOpen k = (s.beginTake k rest).readSet k p i first count := by
      rw [State.takeReadOpen_of_good (h10.trans hp) (by rw [h12, h14, area.optionWord]; omega), source, h12, h14, hf, hc]
      rfl
    have range (P : QuantityId → Prop) : (∃ q ∈ quantityRange first count, P q) ↔
        ∃ q : QuantityId, first ≤ q.val ∧ q.val < first + count ∧ P q := by
      simp only [mem_quantityRange, and_assoc]
    refine ⟨_, hh.exec rfl, ?_, fun j => ⟨?_, fun u hu => ?_⟩⟩
    · rw [taken]
      have data : ((quantityRange first count).flatMap fun q => leBytes 8 (z.totals (entryOf p))[q].toNat) =
          (quantityRange first count).flatMap fun q =>
            leBytes 8 (if lost (.acc (entryOf p) q) = true then 0 else (x.totals (entryOf p))[q].toNat) :=
        List.flatMap_congr fun q hq => by
          rw [htotals q hq, apply_ite BitVec.toNat]
          rfl
      rw [hinterval, hspan, hpresent, apply_ite BitVec.toNat, data] at ended
      exact ended
    · rw [taken, inSet, entries j, range]
      dsimp only
      rw [Fin.ext_iff]
    · obtain ⟨z', hz', damaged⟩ := balance u hu
      rw [taken, inSet]
      refine ⟨z', hz', ?_⟩
      rw [damaged, range]
      dsimp only
      rw [Fin.ext_iff, eq_comm (a := (5 : Fin 6).val)]
      rfl
  · have marked : s.ecc.accounting.lookup ⟨b, f.set, .acc e q⟩ = some .uncorrectable := by
      rw [ha]
      simp
    obtain ⟨reads, clean⟩ := State.stepReads_of_lost_total hr ha
    have behind := State.stepEntry_of_reads (f := f) reads clean
    have touches := State.checkAcc_lost_touches marked
    have lostSet : s.banks[b].sets[f.set].loseWord (.acc e q) = y :=
      AccSet.EntryLost.unique (s.banks[b].sets[f.set].loseWord_lost (.acc e q)) hy
    have banks := State.checkAcc_lost_banks marked
    rw [lostSet] at banks
    have inPlain : (s.banks.set b { s.banks[b] with sets := s.banks[b].sets.set f.set y })[b].sets[f.set] = y := by
      rw [getElem_fin_set_self]
      exact getElem_fin_set_self _ _ _
    have nextPlain : State.nextStep { s with
        banks := s.banks.set b { s.banks[b] with sets := s.banks[b].sets.set f.set y }
        ecc := { s.ecc with accounting := [] } } b = some (f, e) := by
      rw [← next]
      refine State.nextStep_congr (State.nextStep_spec next).1 rfl fun j => ?_
      exact (congrArg (AccSet.hasStep · j) inPlain).trans (hy.hasStep (fun _ => rfl) j)
    have cleanPlain : State.TablesClean { s with
        banks := s.banks.set b { s.banks[b] with sets := s.banks[b].sets.set f.set y }
        ecc := { s.ecc with accounting := [] } } := ⟨rfl, hr⟩
    have sameBanks : State.banks { s with
        banks := s.banks.set b { s.banks[b] with sets := s.banks[b].sets.set f.set y }
        ecc := { s.ecc with accounting := [] } } = (s.checkAcc ⟨b, f.set, .acc e q⟩).banks := banks.symm
    refine ⟨_, _, State.exec_pointStep ready next, State.exec_pointStep ready nextPlain, ?_⟩
    obtain ⟨stepped, regs, mem, writer, folds⟩ := State.stepEntry_alike clean cleanPlain (touches.regs (by decide)).symm sameBanks
      (touches.writer (by decide)).symm (touches.folds (by decide)).symm (touches.mem (by decide)).symm b f e
    rw [behind]
    refine ⟨stepped.symm, regs.symm, mem.symm, writer.symm, folds.symm, ?_⟩
    rw [State.stepEntry_capture clean]
    exact (State.checkAcc_lost_reported marked).captured

end Sys2Proof.Machine
end

section
/-! SUPPORT. Pushes one after another, and the causes that stay latched (R181, R182, R187). -/

namespace Sys2Proof.Machine

/-! ### Causes stay latched -/

/-- Every cause latched in `s` is latched in `t`. -/
def State.KeepsLatched (s t : State) : Prop := ∀ c, s.latched c = true → t.latched c = true

namespace State.KeepsLatched

variable {s t u : State}

theorem refl (s : State) : s.KeepsLatched s := fun _ => id

theorem trans (h : s.KeepsLatched t) (h' : t.KeepsLatched u) : s.KeepsLatched u := fun c hc => h' c (h c hc)

theorem of_touches {ps : List Part} (h : s.Touches ps t) (hp : Part.latched ∉ ps) : s.KeepsLatched t := fun c hc => by
  unfold State.latched at hc ⊢
  rw [h.latched_eq hp]
  exact hc

/-- What latches one cause more. -/
theorem of_or {w : BitVec 6} (h : t.notices.latched = s.notices.latched ||| w) : s.KeepsLatched t := fun c hc => by
  unfold State.latched at hc ⊢
  rw [h, BitVec.getLsbD_or, hc, Bool.true_or]

theorem latch (s : State) (c : Cause) : s.KeepsLatched (s.latch c) := of_or rfl

theorem push (s : State) (k : ExceptionKind) (a b c d : Word) (v : Vector Word 8) : s.KeepsLatched (s.push k a b c d v) :=
  of_or (State.push_latched s k a b c d v)

theorem endDeferred (s : State) (k : SlotId) (st : SlotState) (o : ReplyOutcome) (r : Reason) (i : Word) (c : Nat)
    (d : List Byte) : s.KeepsLatched (s.endDeferred k st o r i c d) := of_or (State.endDeferred_latched s k st o r i c d)

theorem fillPage (s : State) : s.KeepsLatched s.fillPage := by
  cases hf : s.writer.filling with
  | none =>
    rw [State.fillPage_of_none hf]
    exact refl s
  | some f => exact of_or (State.fillPage_filled hf).2

theorem takePage (s : State) : s.KeepsLatched s.takePage := fun c hc => by
  unfold State.latched at hc ⊢
  rw [State.takePage_latched]
  exact hc

theorem ensurePage (s : State) : s.KeepsLatched s.ensurePage := by
  unfold State.ensurePage
  split
  · exact refl s
  · exact takePage s

theorem makeRoom (s : State) (n : Nat) : s.KeepsLatched (s.makeRoom n) := by
  unfold State.makeRoom
  split
  · split
    · exact refl s
    · exact fillPage s
  · exact refl s

theorem placeRecord (s : State) (f : Filling) (n : Word) (r : List Byte) : s.KeepsLatched (s.placeRecord f n r) := by
  have placed : s.KeepsLatched (s.recordPlaced f n r) := of_touches (s.recordPlaced_touches f n r) (by decide)
  rw [State.placeRecord_eq]
  split
  · exact placed.trans (fillPage _)
  · exact placed

theorem writeRecord (s : State) (b : BankId) (n : Word) (r : List Byte) : s.KeepsLatched (s.writeRecord b n r) := by
  have ready : s.KeepsLatched (s.makeRoom r.length).ensurePage := (makeRoom s _).trans (ensurePage _)
  unfold State.writeRecord
  dsimp only
  split
  · exact ready.trans (placeRecord _ _ _ _)
  · exact ready.trans (of_touches ((State.putWriter_touches _ _).seq (State.putFold_touches _ b _)
      (rs := [.writer, .exchangeMarks, .folds]) (by decide) (by decide)) (by decide))

end State.KeepsLatched

/-! ### Pushes one after another -/

/-- What a push says besides the interval and the subject: its kind and two details. -/
abbrev PushedDetail := BitVec 16 × Word × Word

/-- The records from place `n` up read alike, but for the losses counted in them. -/
def ExceptionUnit.KeepsRecords (e e' : ExceptionUnit) : Prop :=
  ∀ n : Fin 64, e.top ≤ n.val → e'.records[n] = { e.records[n] with lostAfter := e'.records[n].lostAfter }

/-- From `s` to `t` these exceptions of one subject and interval were pushed, in order (R181, R182). -/
structure State.PushedAs (s t : State) (subject interval : Word) (pushes : List PushedDetail) : Prop where
  kept : pushes = [] → t.exceptions = s.exceptions
  latches : pushes ≠ [] → t.latched .exception = true
  top : t.exceptions.top = s.exceptions.top - pushes.length
  lost : t.exceptions.lost = s.exceptions.lost + BitVec.ofNat 32 (pushes.length - s.exceptions.top)
  old : s.exceptions.KeepsRecords t.exceptions
  new : ∀ (i : Nat) (x : PushedDetail) (n : Fin 64), pushes[i]? = some x → s.exceptions.top = n.val + i + 1 →
    t.exceptions.records[n].tag = .new ∧ t.exceptions.records[n].kind = x.1 ∧ t.exceptions.records[n].subject = subject ∧
    t.exceptions.records[n].d0 = interval ∧ t.exceptions.records[n].d1 = x.2.1 ∧ t.exceptions.records[n].d2 = x.2.2

namespace State.PushedAs

variable {s t u : State} {subject interval : Word} {pushes : List PushedDetail}

theorem nothing (h : t.exceptions = s.exceptions) : s.PushedAs t subject interval [] where
  kept := fun _ => h
  latches := fun h => absurd rfl h
  top := by rw [h]; rfl
  lost := by rw [h]; simp
  old := fun n _ => by rw [h]
  new := fun i x n hx => by simp at hx

theorem after (h : s.PushedAs t subject interval pushes) (he : u.exceptions = t.exceptions) (hl : t.KeepsLatched u) :
    s.PushedAs u subject interval pushes where
  kept := fun hp => he.trans (h.kept hp)
  latches := fun hp => hl _ (h.latches hp)
  top := by rw [he]; exact h.top
  lost := by rw [he]; exact h.lost
  old := by rw [he]; exact h.old
  new := by rw [he]; exact h.new

theorem before (h : s.PushedAs t subject interval pushes) (he : s.exceptions = u.exceptions) :
    u.PushedAs t subject interval pushes where
  kept := fun hp => (h.kept hp).trans he
  latches := h.latches
  top := by rw [← he]; exact h.top
  lost := by rw [← he]; exact h.lost
  old := by rw [← he]; exact h.old
  new := by rw [← he]; exact h.new

theorem one (h : s.exceptions.top ≤ 64) (k : ExceptionKind) (c d : Word) (v : Vector Word 8) :
    s.PushedAs (s.push k subject interval c d v) subject interval [(k.code, c, d)] := by
  have latches := State.push_latches s k subject interval c d v
  rcases Nat.eq_zero_or_pos s.exceptions.top with full | room
  · have exceptions := s.push_exceptions_of_top_zero k subject interval c d v full
    refine ⟨fun hp => absurd hp (List.cons_ne_nil _ _), fun _ => latches, ?_, ?_, fun n _ => ?_, fun i x n _ hn => ?_⟩
    · rw [exceptions, full]
      rfl
    · rw [exceptions, full]
      rfl
    · rw [exceptions, getElem_fin_set]
      split
      next hn => rw [hn]
      · rfl
    · omega
  · obtain ⟨n, hn⟩ : ∃ n : Fin 64, s.exceptions.top = n.val + 1 := ⟨⟨s.exceptions.top - 1, by omega⟩, by dsimp only; omega⟩
    have exceptions := s.push_exceptions_of_room k subject interval c d v n hn
    refine ⟨fun hp => absurd hp (List.cons_ne_nil _ _), fun _ => latches, ?_, ?_, fun m hm => ?_, fun i x m hx hm => ?_⟩
    · rw [exceptions, hn]
      rfl
    · rw [exceptions, hn]
      simp
    · rw [exceptions, getElem_fin_set_of_ne _ _ (Fin.ne_of_gt (show n.val < m.val by omega))]
    · obtain rfl : i = 0 := by
        have := (List.getElem?_eq_some_iff.mp hx).1
        simp only [List.length_singleton] at this
        omega
      obtain rfl : m = n := Fin.ext (by omega)
      cases hx
      rw [exceptions, getElem_fin_set_self]
      exact ⟨rfl, rfl, rfl, rfl, rfl, rfl⟩

theorem append {more : List PushedDetail} (h : s.PushedAs t subject interval pushes)
    (h' : t.PushedAs u subject interval more) (hl : t.KeepsLatched u) : s.PushedAs u subject interval (pushes ++ more) := by
  have htop := h.top
  refine ⟨fun hp => ?_, fun hp => ?_, ?_, ?_, fun n hn => ?_, fun i x n hx hn => ?_⟩
  · obtain ⟨hp, hm⟩ := List.append_eq_nil_iff.mp hp
    rw [h'.kept hm, h.kept hp]
  · by_cases hm : more = []
    · exact hl _ (h.latches fun hp => absurd (List.append_eq_nil_iff.mpr ⟨hp, hm⟩) (by assumption))
    · exact h'.latches hm
  · rw [h'.top, htop, List.length_append]
    omega
  · have split : pushes.length + more.length - s.exceptions.top =
        (pushes.length - s.exceptions.top) + (more.length - (s.exceptions.top - pushes.length)) := by omega
    rw [h'.lost, h.lost, htop, List.length_append, split, BitVec.ofNat_add, BitVec.add_assoc]
  · rw [h'.old n (by omega), h.old n hn]
  · by_cases hi : i < pushes.length
    · rw [List.getElem?_append_left hi] at hx
      rw [h'.old n (by omega)]
      exact h.new i x n hx hn
    · rw [List.getElem?_append_right (Nat.not_lt.mp hi)] at hx
      exact h'.new (i - pushes.length) x n hx (by omega)

end State.PushedAs

end Sys2Proof.Machine
end

section
/-! SUPPORT. What a point step reports and records (R98, R100 to R102, R175). -/

namespace Sys2Proof.Machine

/-! ### Record writes and the reply areas -/

theorem keptByPageWrites_below (m0 : Memory) : KeptByPageWrites fun _ m => ∀ a, a < 24576 → m.read a = m0.read a where
  write := fun {_ m a} bs h ha x hx => by rw [m.read_writeBytes_of_outside bs (Or.inl (by omega)), h x hx]
  zero := fun {_ m lo} hi h hlo x hx => by rw [m.read_zero, if_neg (by omega), h x hx]

theorem State.writeRecord_read_below (s : State) (b : BankId) (n : Word) (r : List Byte) {a : Nat} (ha : a < 24576) :
    (s.writeRecord b n r).mem.read a = s.mem.read a := by
  have alike : s.SameRecords (fun _ m => ∀ a, a < 24576 → m.read a = s.mem.read a) s := ⟨rfl, rfl, fun _ _ => rfl⟩
  exact (State.SameRecords.writeRecord (keptByPageWrites_below s.mem) alike b n r).mem a ha

section
variable {s : State} (b : BankId) (f : Fold) (e : Fin 6)

theorem State.stepEntry_read_below (h : s.TablesClean) {a : Nat} (ha : a < 24576) :
    (s.stepEntry b f e).mem.read a = (s.stepSettled b f e).mem.read a := by
  rw [State.stepEntry_of_clean h, (State.stepEnded_touches _ b _ e).mem (by decide), State.stepRecord_settled h]
  split
  · exact State.writeRecord_read_below _ b _ _ ha
  · rfl

theorem State.stepEntry_bytes_below (h : s.TablesClean) {a n : Nat} (ha : a + n ≤ 24576) :
    (s.stepEntry b f e).mem.bytes a n = (s.stepSettled b f e).mem.bytes a n :=
  Memory.bytes_congr fun _ _ hhigh => State.stepEntry_read_below b f e h (by omega)

theorem State.stepEntry_requests (h : s.TablesClean) : (s.stepEntry b f e).requests = (s.stepSettled b f e).requests := by
  rw [State.stepEntry_of_clean h, (State.stepEnded_touches _ b _ e).requests (by decide),
    (State.stepRecord_touches _ b e f _).requests (by decide)]

theorem State.stepEntry_exceptions (h : s.TablesClean) : (s.stepEntry b f e).exceptions = (s.stepSettled b f e).exceptions := by
  rw [State.stepEntry_of_clean h, (State.stepEnded_touches _ b _ e).exceptions (by decide),
    (State.stepRecord_touches _ b e f _).exceptions (by decide)]

theorem State.stepEntry_keepsLatched (h : s.TablesClean) : (s.stepSettled b f e).KeepsLatched (s.stepEntry b f e) := by
  rw [State.stepEntry_of_clean h]
  refine .trans ?_ (.of_touches (State.stepEnded_touches _ b _ e) (by decide))
  rw [State.stepRecord_settled h]
  split
  · exact .writeRecord _ b _ _
  · exact .refl _

end

/-! ### The pushes of a step -/

/-- SCALE_ABANDONED of a step (R100). -/
def RegisterSet.scalePushes (r : RegisterSet) : List PushedDetail :=
  match r.abandons, r.dueScale with
  | some q, some v => [(5, BitVec.ofNat 32 (r.scale.val + 256 * v.val), BitVec.ofNat 32 q.val)]
  | _, _ => []

/-- REGISTER_OVERFLOW of a step (R102). -/
def overflowPushes : List QuantityId → List PushedDetail
  | q :: rest => [(6, BitVec.ofNat 32 q.val, BitVec.ofNat 32 (rest.length + 1))]
  | [] => []

theorem RegisterSet.scalePushes_eq (r : RegisterSet) : r.scalePushes = match r.dueScale with
    | some v =>
      (((List.finRange 104).find? fun q => decide (v < r.scale) && r.quantities[q].valid &&
        decide (10 ^ (16 - (r.scale.val - v.val)) ≤ r.quantities[q].register)).map fun q =>
          ((5 : BitVec 16), BitVec.ofNat 32 (r.scale.val + 256 * v.val), BitVec.ofNat 32 q.val)).toList
    | none => [] := by
  unfold RegisterSet.scalePushes RegisterSet.abandons
  cases r.dueScale with
  | none => rfl
  | some v =>
    dsimp only
    by_cases hv : v < r.scale
    · simp only [if_pos hv, decide_eq_true hv, Bool.true_and]
      unfold RegisterSet.failing Quantity.failsHeadroom
      cases (List.finRange 104).find? fun q =>
        r.quantities[q].valid && decide (10 ^ (16 - (r.scale.val - v.val)) ≤ r.quantities[q].register) with
      | none => rfl
      | some q => rfl
    · simp [if_neg hv, decide_eq_false hv]

theorem Quantity.overflows_eq (q : Quantity) (scale : Fin 4) (total : Nat) : q.overflows scale total =
    (q.valid && decide (registerLimit * residueLimit scale ≤ q.stored scale + total)) := by
  have limit : registerLimit ≤ q.register + (q.residue + total) / residueLimit scale ↔
      registerLimit * residueLimit scale ≤ q.stored scale + total := by
    unfold Quantity.stored
    rw [← Nat.mul_add_div (residueLimit_pos scale), Nat.le_div_iff_mul_le (residueLimit_pos scale),
      Nat.mul_comm (residueLimit scale) q.register, Nat.add_assoc]
  unfold Quantity.overflows
  rw [decide_eq_decide.mpr limit]

/-- The overflowing quantities of a step, by the stored values before it (R99, R100, R102). -/
theorem RegisterSet.overflowing_scalePart {r : RegisterSet} (h : r.Ok) (totals : Vector (BitVec 64) 104) :
    r.scalePart.overflowing totals = (List.finRange 104).filter fun q =>
      ((r.dueRebase.bind fun x => x.valueFor q.val).isNone && r.quantities[q].valid) &&
      decide (registerLimit * residueLimit (if r.abandons.isSome then r.scale else r.dueScale.getD r.scale) ≤
        r.quantities[q].stored r.scale + totals[q].toNat) := by
  unfold RegisterSet.overflowing
  refine List.filter_congr fun q _ => ?_
  obtain ⟨valid, stored⟩ := RegisterSet.scalePart_quantity h q
  rw [RegisterSet.dueRebase_scalePart, Quantity.overflows_eq, valid, Bool.and_assoc]
  cases hv : r.quantities[q].valid with
  | false => rw [Bool.false_and, Bool.false_and]
  | true => rw [stored hv, RegisterSet.scalePart_scale]

theorem State.stepScale_pushedAs {s : State} (h : s.exceptions.top ≤ 64) (p : SetId) (n : Word) :
    s.PushedAs (s.stepScale p n) (BitVec.ofNat 32 p.val) n s.regs[p].scalePushes := by
  have top : (s.putRegs p s.regs[p].scalePart).exceptions.top ≤ 64 := h
  unfold State.stepScale RegisterSet.scalePushes
  dsimp only
  cases s.regs[p].abandons with
  | none => exact .nothing rfl
  | some q =>
    cases s.regs[p].dueScale with
    | none => exact .nothing rfl
    | some v => exact (State.PushedAs.one top .scaleAbandoned _ _ noCopy).before rfl

theorem State.overflowPushed_pushedAs {s : State} (h : s.exceptions.top ≤ 64) (p : SetId) (n : Word) (qs : List QuantityId) :
    s.PushedAs (s.overflowPushed p n qs) (BitVec.ofNat 32 p.val) n (overflowPushes qs) := by
  cases qs with
  | nil => exact .nothing rfl
  | cons q rest => exact State.PushedAs.one h .registerOverflow _ _ noCopy

theorem State.overflowPushed_keepsLatched (s : State) (p : SetId) (n : Word) (qs : List QuantityId) :
    s.KeepsLatched (s.overflowPushed p n qs) := by
  cases qs with
  | nil => exact .refl s
  | cons q rest => exact .push s _ _ _ _ _ _

theorem State.rebaseEnded_exceptions (s : State) (p : SetId) (n : Word) (totals : Vector (BitVec 64) 104) :
    (s.rebaseEnded p n totals).exceptions = s.exceptions ∧ s.KeepsLatched (s.rebaseEnded p n totals) := by
  have settled := s.totalsSettled_touches p totals
  cases hx : s.regs[p].dueRebase with
  | none =>
    rw [State.rebaseEnded_of_none hx]
    exact ⟨settled.exceptions (by decide), .of_touches settled (by decide)⟩
  | some x =>
    rw [State.rebaseEnded_of_some hx]
    exact ⟨((State.endDeferred_touches _ _ _ _ _ _ _ _).exceptions (by decide)).trans (settled.exceptions (by decide)),
      .trans (.of_touches settled (by decide)) (.endDeferred _ _ _ _ _ _ _ _)⟩

/-- The exceptions of a step over stores without errors, in order (R100, R102). -/
theorem State.stepSettled_pushedAs {s : State} (h : s.exceptions.top ≤ 64) (b : BankId) (f : Fold) (e : Fin 6) :
    s.PushedAs (s.stepSettled b f e) (BitVec.ofNat 32 (entryPoint b e).val) f.interval
      (s.regs[entryPoint b e].scalePushes ++
        overflowPushes (s.regs[entryPoint b e].scalePart.overflowing (s.banks[b].sets[f.set].totals e))) := by
  have scaled := s.stepScale_pushedAs h (entryPoint b e) f.interval
  obtain ⟨exceptions, keeps⟩ := (s.stepScale (entryPoint b e) f.interval).rebaseEnded_exceptions (entryPoint b e) f.interval
    (s.banks[b].sets[f.set].totals e)
  have top : ((s.stepScale (entryPoint b e) f.interval).rebaseEnded (entryPoint b e) f.interval
      (s.banks[b].sets[f.set].totals e)).exceptions.top ≤ 64 := by
    rw [exceptions, scaled.top]
    omega
  have regs : (s.stepScale (entryPoint b e) f.interval).regs[entryPoint b e] = s.regs[entryPoint b e].scalePart := by
    rw [State.stepScale_regs, getElem_fin_set_self]
  unfold State.stepSettled
  rw [State.stepSettle_eq, regs]
  exact (scaled.after exceptions keeps).append (State.overflowPushed_pushedAs top _ _ _) (State.overflowPushed_keepsLatched _ _ _ _)

end Sys2Proof.Machine
end

section
/-! SUPPORT. The reports and the record of a point step, settled (R97 to R102, R175). -/

namespace Sys2Proof.Machine

theorem overflowPushes_eq (qs : List QuantityId) : overflowPushes qs = match qs with
    | q :: rest => [((6 : BitVec 16), BitVec.ofNat 32 q.val, BitVec.ofNat 32 (rest.length + 1))]
    | [] => [] := by
  cases qs with
  | nil => rfl
  | cons q rest => rfl

theorem RegisterSet.anyInvalid_eq (r : RegisterSet) :
    r.anyInvalid = decide (∃ q : QuantityId, r.quantities[q].valid = false) := by
  rw [Bool.eq_iff_iff, decide_eq_true_iff]
  simp [RegisterSet.anyInvalid]

section
variable {s : State} {b : BankId} {e : Fin 6} {x : PendingRebase}

theorem PendingRebase.data_length (hx : x.values.length ≤ 12 ∧ x.first + x.values.length ≤ 104) (r : RegisterSet) :
    (r.bytes x.first x.values.length).length = 16 * x.values.length := by
  rw [RegisterSet.bytes_length]
  omega

theorem RegisterSet.dueRebase_bounds {r : RegisterSet} (h : r.Ok) (hx : r.dueRebase = some x) :
    x.values.length ≤ 12 ∧ x.first + x.values.length ≤ 104 := by
  obtain ⟨-, long, inside, -⟩ := h.2.2 x (RegisterSet.rebase_of_due hx)
  exact ⟨long, inside⟩

/-- The record pages are as before the step when its record is written. -/
theorem State.stepSettled_above (h : s.regs[entryPoint b e].Ok) (f : Fold) : (s.stepSettled b f e).mem.above = s.mem.above := by
  cases hx : s.regs[entryPoint b e].dueRebase with
  | none => rw [(State.stepSettled_of_no_rebase hx f).mem (by decide)]
  | some x =>
    obtain ⟨u, d, -, hmem, -, hd, pushed⟩ := State.stepSettled_of_rebase hx f
    have bounds := RegisterSet.dueRebase_bounds h hx
    have length := PendingRebase.data_length bounds
      (s.regs[entryPoint b e].scalePart.settle (s.banks[b].sets[f.set].totals e))
    rw [← hd] at length
    rw [pushed.mem (by decide), State.endDeferred_above _ _ _ _ _ _ _ (by omega), hmem]

theorem State.stepSettled_done_latched (hx : s.regs[entryPoint b e].dueRebase = some x) (f : Fold) :
    (s.stepSettled b f e).latched .done = true := by
  have due : (s.stepScale (entryPoint b e) f.interval).regs[entryPoint b e].dueRebase = some x := by
    rw [State.stepScale_regs, getElem_fin_set_self, RegisterSet.dueRebase_scalePart, hx]
  unfold State.stepSettled
  rw [State.stepSettle_eq, State.rebaseEnded_of_some due]
  exact State.overflowPushed_keepsLatched _ _ _ _ .done (or_flag_latched (State.endDeferred_latched _ _ _ _ _ _ _ _))

/-- The slot of an applied rebase (R101, R154, R175). -/
theorem State.stepEntry_rebased (hmem : s.MemoryOk) (h : s.regs[entryPoint b e].Ok) (hclean : s.TablesClean) (f : Fold)
    (hx : s.regs[entryPoint b e].dueRebase = some x) :
    (s.stepEntry b f e).requests.slots[x.slot] = .done ∧
    x.slot ∉ (s.stepEntry b f e).requests.table.map PendingEntry.slot ∧ (s.stepEntry b f e).latched .done = true ∧
    (s.stepEntry b f e).mem.bytes (slotByte x.slot + 0x88) 8 = leBytes 4 1 ++ leBytes 4 0 ∧
    (s.stepEntry b f e).mem.bytes (slotByte x.slot + 0x94) 4 = wordBytes f.interval ∧
    (s.stepEntry b f e).mem.bytes (slotByte x.slot + 0x9C) 4 = leBytes 4 x.values.length ∧
    (s.stepEntry b f e).mem.bytes (slotByte x.slot + 0xC0) (16 * x.values.length) =
      (s.stepEntry b f e).regs[entryPoint b e].bytes x.first x.values.length := by
  obtain ⟨u, d, touched, mem, requests, hd, pushed⟩ := State.stepSettled_of_rebase hx f
  have bounds := RegisterSet.dueRebase_bounds h hx
  have length := PendingRebase.data_length bounds
    (s.regs[entryPoint b e].scalePart.settle (s.banks[b].sets[f.set].totals e))
  rw [← hd] at length
  obtain ⟨outcome, interval, count, data, -⟩ := State.endDeferred_bytes (s := u) (mem ▸ hmem.1) x.slot .done .ok .none f.interval
    x.values.length d
  have pending := (pushed.requests (by decide)).trans (u.endDeferred_requests x.slot .done .ok .none f.interval x.values.length d)
  have slot := slotByte_le x.slot
  have below {a n : Nat} (ha : a + n ≤ 24576) : (s.stepEntry b f e).mem.bytes a n =
      (u.endDeferred x.slot .done .ok .none f.interval x.values.length d).mem.bytes a n := by
    rw [State.stepEntry_bytes_below b f e hclean ha, pushed.mem (by decide)]
  rw [State.stepEntry_requests b f e hclean, pending]
  refine ⟨getElem_fin_set_self _ _ _, fun hin => ?_, ?_, ?_, ?_, ?_, ?_⟩
  · obtain ⟨y, hy, hslot⟩ := List.mem_map.mp hin
    exact absurd hslot (bne_iff_ne.mp (List.mem_filter.mp hy).2)
  · exact State.stepEntry_keepsLatched b f e hclean .done (State.stepSettled_done_latched hx f)
  · rw [below (by omega)]
    exact outcome
  · rw [below (by omega)]
    exact interval
  · rw [below (by omega)]
    exact count
  · rw [below (by omega), ← length, data, hd, State.stepEntry_regs hclean, getElem_fin_set_self]
    rfl

end

/-- The record of a step under ARCHIVE goes where the writer puts it before the step (R98). -/
theorem State.stepEntry_record {s u : State} {b : BankId} {e : Fin 6} (h : s.regs[entryPoint b e].Ok) (hclean : s.TablesClean)
    (f : Fold) (ha : s.banks[b].archive = true)
    (hu : u = s.writeRecord b s.banks[b].sets[f.set].interval
      ((s.banks[b].sets[f.set].recordHead b e s.regs[entryPoint b e].dueRebase.isSome
        (decide (∃ q : QuantityId, (s.stepEntry b f e).regs[entryPoint b e].quantities[q].valid = false))).bytes
          (s.banks[b].sets[f.set].totals e))) :
    (s.stepEntry b f e).writer = u.writer ∧ (∀ a, 24576 ≤ a → (s.stepEntry b f e).mem.read a = u.mem.read a) ∧
      (s.stepEntry b f e).folds[b].map Fold.lost = u.folds[b].map Fold.lost ∧
      (s.stepEntry b f e).folds[b].map Fold.lostCounter = u.folds[b].map Fold.lostCounter := by
  have touches := s.stepSettled_touches b f e
  have alike : s.SameRecords (fun m m' => m.above = m'.above) (s.stepSettled b f e) :=
    ⟨touches.writer (by decide), touches.folds (by decide), (State.stepSettled_above h f).symm⟩
  have invalid : (s.stepSettled b f e).regs[entryPoint b e].anyInvalid =
      decide (∃ q : QuantityId, (s.stepEntry b f e).regs[entryPoint b e].quantities[q].valid = false) := by
    rw [State.stepSettled_regs, State.stepEntry_regs hclean, getElem_fin_set_self, getElem_fin_set_self,
      RegisterSet.anyInvalid_eq]
    rfl
  rw [← invalid] at hu
  have recorded := State.SameRecords.writeRecord keptByPageWrites_above alike b s.banks[b].sets[f.set].interval
    ((s.banks[b].sets[f.set].recordHead b e s.regs[entryPoint b e].dueRebase.isSome
      (s.stepSettled b f e).regs[entryPoint b e].anyInvalid).bytes (s.banks[b].sets[f.set].totals e))
  rw [← hu] at recorded
  have step : s.stepEntry b f e = ((s.stepSettled b f e).writeRecord b s.banks[b].sets[f.set].interval
      ((s.banks[b].sets[f.set].recordHead b e s.regs[entryPoint b e].dueRebase.isSome
        (s.stepSettled b f e).regs[entryPoint b e].anyInvalid).bytes (s.banks[b].sets[f.set].totals e))).stepEnded b f.interval e := by
    rw [State.stepEntry_of_clean hclean, State.stepRecord_settled hclean, if_pos ha]
  have ended := State.stepEnded_touches ((s.stepSettled b f e).writeRecord b s.banks[b].sets[f.set].interval
      ((s.banks[b].sets[f.set].recordHead b e s.regs[entryPoint b e].dueRebase.isSome
        (s.stepSettled b f e).regs[entryPoint b e].anyInvalid).bytes (s.banks[b].sets[f.set].totals e))) b f.interval e
  rw [step]
  refine ⟨(ended.writer (by decide)).trans recorded.writer, fun a hlow => ?_, ?_, ?_⟩
  · rw [ended.mem (by decide)]
    exact Memory.read_of_above recorded.mem hlow
  · rw [State.stepEnded_folds, Option.map_map, recorded.folds]
    rfl
  · rw [State.stepEnded_folds, Option.map_map, recorded.folds]
    rfl

/-- Settles O36: the pushes of the settled state, the slot of the rebase, and the record as written before the step. -/
theorem pointStepReportsAndRecords : Obligations.PointStepReportsAndRecords := by
  intro s b f e p overflowing pushes ready memoryOk registersOk clean top next hp hover hpushes
  subst hp
  have ok := registersOk.1 (entryPoint b e)
  have listed : pushes = s.regs[entryPoint b e].scalePushes ++
      overflowPushes (s.regs[entryPoint b e].scalePart.overflowing (s.banks[b].sets[f.set].totals e)) := by
    rw [RegisterSet.overflowing_scalePart ok, ← hover, overflowPushes_eq, RegisterSet.scalePushes_eq]
    exact hpushes
  have pushed : s.PushedAs (s.stepEntry b f e) (BitVec.ofNat 32 (entryPoint b e).val) f.interval pushes := by
    rw [listed]
    exact (State.stepSettled_pushedAs top b f e).after (State.stepEntry_exceptions b f e clean)
      (State.stepEntry_keepsLatched b f e clean)
  refine ⟨_, State.exec_pointStep ready next, fun none => State.stepEntry_requests_of_no_rebase clean none f,
    fun x hx => State.stepEntry_rebased memoryOk ok clean f hx, pushed.kept, pushed.latches, pushed.top, pushed.lost, pushed.new, ?_⟩
  by_cases ha : s.banks[b].archive = true
  · rw [if_pos ha]
    exact fun u hu => State.stepEntry_record ok clean f ha hu
  · rw [if_neg ha]
    have touches := s.stepSettled_touches b f e
    have step : s.stepEntry b f e = (s.stepSettled b f e).stepEnded b f.interval e := by
      rw [State.stepEntry_of_clean clean, State.stepRecord_settled clean, if_neg ha]
    have ended := (s.stepSettled b f e).stepEnded_touches b f.interval e
    have fold : (s.stepSettled b f e).folds[b] = some f := by
      rw [touches.folds (by decide)]
      exact (State.nextStep_spec next).1
    rw [step]
    refine ⟨(ended.writer (by decide)).trans (touches.writer (by decide)), fun a hlow => ?_, ?_, ?_⟩
    · rw [ended.mem (by decide)]
      exact Memory.read_of_above (State.stepSettled_above ok f).symm hlow
    · rw [State.stepEnded_folds, fold]
      rfl
    · rw [State.stepEnded_folds, fold]
      rfl

end Sys2Proof.Machine
end

section
/-! SUPPORT. Slots that end one after another, and the list of closed intervals (R154, R169, R171). -/

namespace Sys2Proof.Machine

/-! ### Folds over entries with slots of their own -/

/-- What one step of a fold establishes for its own entry, and the others' steps keep, holds for every entry at the end. -/
theorem foldl_establishes {α : Type} {f : State → α → State} {I : State → Prop} {Q : α → State → Prop} {slot : α → SlotId}
    {l : List α} (hn : (l.map slot).Nodup) (hI : ∀ s, ∀ x ∈ l, I s → I (f s x)) (own : ∀ s, ∀ x ∈ l, I s → Q x (f s x))
    (kept : ∀ s, ∀ x ∈ l, ∀ y ∈ l, slot y ≠ slot x → Q x s → Q x (f s y)) {s : State} (hs : I s) :
    ∀ x ∈ l, Q x (l.foldl f s) := by
  induction l generalizing s with
  | nil => exact fun x hx => absurd hx List.not_mem_nil
  | cons y l ih =>
    rw [List.map_cons, List.nodup_cons] at hn
    obtain ⟨fresh, distinct⟩ := hn
    have tail {z : α} (hz : z ∈ l) : z ∈ y :: l := List.mem_cons_of_mem y hz
    intro x hx
    rw [List.foldl_cons]
    rcases List.mem_cons.mp hx with rfl | hx
    · have others (z : α) (hz : z ∈ l) : slot z ≠ slot x := fun heq => fresh (heq ▸ List.mem_map_of_mem hz)
      exact foldl_keeps (P := Q x) l (fun u z hz hu => kept u x List.mem_cons_self z (tail hz) (others z hz) hu)
        (own s x List.mem_cons_self hs)
    · exact ih distinct (fun u z hz => hI u z (tail hz)) (fun u z hz => own u z (tail hz))
        (fun u z hz w hw => kept u z (tail hz) w (tail hw)) (hI s y List.mem_cons_self hs) x hx

/-! ### The words of an ended slot -/

/-- The words that the end of a deferred request writes read so (R154). -/
structure State.ShowsEnd (t : State) (k : SlotId) (outcome : ReplyOutcome) (reason : Reason) (interval : Word) (count : Nat)
    (data : List Byte) : Prop where
  outcome : t.mem.bytes (slotByte k + 0x88) 8 = leBytes 4 outcome.code ++ leBytes 4 reason.code
  interval : t.mem.bytes (slotByte k + 0x94) 4 = wordBytes interval
  count : t.mem.bytes (slotByte k + 0x9C) 4 = leBytes 4 count
  data : t.mem.bytes (slotByte k + 0xC0) data.length = data

section
variable {s t : State} {k : SlotId} {o : ReplyOutcome} {r : Reason} {i : Word} {c : Nat} {d : List Byte}

theorem State.ShowsEnd.of_repliesIn (h : s.ShowsEnd k o r i c d) (hd : d.length ≤ 320) {slots : SlotId → Prop}
    (ht : s.RepliesIn t slots) (hk : ¬slots k) : t.ShowsEnd k o r i c d where
  outcome := (ht.bytes hk (by decide) (by decide)).trans h.outcome
  interval := (ht.bytes hk (by decide) (by decide)).trans h.interval
  count := (ht.bytes hk (by decide) (by decide)).trans h.count
  data := (ht.bytes hk (by decide) (by omega)).trans h.data

theorem State.endDeferred_showsEnd (h : s.mem.wf) (st : SlotState) : (s.endDeferred k st o r i c d).ShowsEnd k o r i c d := by
  obtain ⟨outcome, interval, count, data, -⟩ := State.endDeferred_bytes h k st o r i c d
  exact ⟨outcome, interval, count, data⟩

theorem State.endDeferred_wf (h : s.mem.wf) (st : SlotState) : (s.endDeferred k st o r i c d).mem.wf := by
  obtain ⟨-, -, -, -, wf⟩ := State.endDeferred_bytes h k st o r i c d
  exact wf

/-- A slot has ended so: its state, its place in the pending table gone, DONE latched (R154). -/
structure State.HasEnded (t : State) (k : SlotId) (st : SlotState) : Prop where
  slot : t.requests.slots[k] = st
  table : k ∉ t.requests.table.map PendingEntry.slot
  latched : t.latched .done = true

theorem State.endDeferred_hasEnded (s : State) (k : SlotId) (st : SlotState) (o : ReplyOutcome) (r : Reason) (i : Word) (c : Nat)
    (d : List Byte) : (s.endDeferred k st o r i c d).HasEnded k st where
  slot := by
    rw [State.endDeferred_requests]
    exact getElem_fin_set_self _ _ _
  table := by
    rw [State.endDeferred_requests]
    intro hin
    obtain ⟨y, hy, hslot⟩ := List.mem_map.mp hin
    exact absurd hslot (bne_iff_ne.mp (List.mem_filter.mp hy).2)
  latched := or_flag_latched (State.endDeferred_latched _ _ _ _ _ _ _ _)

theorem State.HasEnded.endDeferred {st st' : SlotState} {k' : SlotId} (h : s.HasEnded k st) (hne : k' ≠ k) :
    (s.endDeferred k' st' o r i c d).HasEnded k st where
  slot := by
    rw [State.endDeferred_requests]
    exact (getElem_fin_set_of_ne _ _ (Ne.symm hne)).trans h.slot
  table := by
    rw [State.endDeferred_requests]
    exact fun hin => h.table ((List.filter_sublist.map PendingEntry.slot).subset hin)
  latched := State.KeepsLatched.endDeferred s k' st' o r i c d .done h.latched

end

/-! ### The list of closed intervals -/

theorem mem_closedInOrder {closed : List (BankId × Word)} (hn : (closed.map Prod.fst).Nodup) (x : BankId × Word) :
    x ∈ closedInOrder closed ↔ x ∈ closed := by
  obtain ⟨b, n⟩ := x
  have found : closed.lookup b = some n ↔ (b, n) ∈ closed := by
    induction closed with
    | nil => simp
    | cons y l ih =>
      obtain ⟨b', n'⟩ := y
      rw [List.map_cons, List.nodup_cons] at hn
      obtain ⟨fresh, distinct⟩ := hn
      rw [List.lookup_cons]
      by_cases h : b = b'
      · subst h
        have absent : (b, n) ∉ l := fun hin => fresh (List.mem_map.mpr ⟨(b, n), hin, rfl⟩)
        simp [absent, eq_comm]
      · have other : (b == b') = false := by simpa using h
        rw [other]
        refine (ih distinct).trans ?_
        rw [List.mem_cons]
        exact ⟨Or.inr, fun hin => hin.resolve_left fun heq => h (Prod.mk.inj heq).1⟩
  unfold closedInOrder
  rw [List.mem_filterMap, ← found]
  constructor
  · rintro ⟨b', -, hb⟩
    obtain ⟨n', hn', heq⟩ := Option.map_eq_some_iff.mp hb
    cases heq
    exact hn'
  · exact fun hb => ⟨b, List.mem_finRange b, by rw [hb]; rfl⟩

theorem closedInOrder_pairwise (closed : List (BankId × Word)) : (closedInOrder closed).Pairwise fun y z => y.1 < z.1 := by
  unfold closedInOrder
  refine List.Pairwise.filterMap _ (fun a b hab x hx y hy => ?_) (List.pairwise_lt_finRange 8)
  obtain ⟨-, -, rfl⟩ := Option.map_eq_some_iff.mp hx
  obtain ⟨-, -, rfl⟩ := Option.map_eq_some_iff.mp hy
  exact hab

theorem closedInOrder_perm {closed : List (BankId × Word)} (hn : (closed.map Prod.fst).Nodup) :
    (closedInOrder closed).Perm closed := by
  have ordered : (closedInOrder closed).Nodup :=
    (closedInOrder_pairwise closed).imp fun hlt heq => absurd (heq ▸ hlt) (lt_irrefl _)
  exact (List.perm_ext_iff_of_nodup ordered (List.Nodup.of_map _ hn)).mpr (mem_closedInOrder hn)

/-- The closed intervals of an ended slot as its reply area lists them: in ascending bank order (R169, R171). -/
theorem State.ShowsEnd.closedList {t : State} {k : SlotId} {o : ReplyOutcome} {r : Reason} {i : Word} {c : Nat}
    {closed : List (BankId × Word)} (h : t.ShowsEnd k o r i c (closedBytes closed)) (hn : (closed.map Prod.fst).Nodup) :
    ∃ list : List (BankId × Word), list.Perm closed ∧ list.Pairwise (fun y z => y.1 < z.1) ∧
      t.mem.bytes (slotByte k + 0xC0) (8 * list.length) = list.flatMap fun y => leBytes 4 y.1.val ++ wordBytes y.2 := by
  refine ⟨_, closedInOrder_perm hn, closedInOrder_pairwise closed, ?_⟩
  rw [← closedBytes_length]
  exact h.data

end Sys2Proof.Machine
end

section
/-! SUPPORT. The completion of a fold (R82, R83, R119, R122, R154). -/

namespace Sys2Proof.Machine

/-! ### The slots that end with a completion -/

/-- The pending table after a completion's report (R83, R154). -/
def State.reportedTable (s : State) (b : BankId) (n : Word) : List PendingEntry :=
  s.requests.table.map fun e => { e with work := e.work.endPart b n }

theorem State.reportCompletion_eq (s : State) (b : BankId) (n : Word) : s.reportCompletion b n =
    ((s.reportedTable b n).filter fun e => e.work.finished).foldl State.endClose
      { s with requests := { s.requests with table := s.reportedTable b n } } := rfl

theorem State.endClose_repliesIn (s : State) (e : PendingEntry) : s.RepliesIn (s.endClose e) (· = e.slot) :=
  s.endDeferred_repliesIn e.slot _ _ _ _ _ ((closedBytes_length_le _).trans (by decide))

/-- The words that the end of a CLOSE or a STOP writes (R154, R169, R171). -/
def PendingEntry.ShowsClosed (e : PendingEntry) (t : State) : Prop :=
  t.ShowsEnd e.slot .ok .none e.work.intervalField e.work.closed.length (closedBytes e.work.closed)

theorem State.endClose_showsClosed {s : State} (h : s.mem.wf) (e : PendingEntry) : e.ShowsClosed (s.endClose e) := by
  unfold State.endClose PendingEntry.ShowsClosed
  exact State.endDeferred_showsEnd h _

theorem State.endClose_wf {s : State} (h : s.mem.wf) (e : PendingEntry) : (s.endClose e).mem.wf := by
  unfold State.endClose
  exact State.endDeferred_wf h _

theorem PendingEntry.ShowsClosed.endClose {s : State} {e e' : PendingEntry} (h : e.ShowsClosed s) (hne : e'.slot ≠ e.slot) :
    e.ShowsClosed (s.endClose e') := by
  unfold PendingEntry.ShowsClosed at h ⊢
  exact h.of_repliesIn ((closedBytes_length_le _).trans (by decide)) (s.endClose_repliesIn e') (Ne.symm hne)

theorem State.endClose_hasEnded (s : State) (e : PendingEntry) : (s.endClose e).HasEnded e.slot .done := by
  unfold State.endClose
  exact State.endDeferred_hasEnded _ _ _ _ _ _ _ _

theorem State.HasEnded.endClose {s : State} {k : SlotId} {st : SlotState} (h : s.HasEnded k st) {e : PendingEntry}
    (hne : e.slot ≠ k) : (s.endClose e).HasEnded k st := by
  unfold State.endClose
  exact h.endDeferred hne

theorem State.endClose_keepsLatched (s : State) (e : PendingEntry) : s.KeepsLatched (s.endClose e) :=
  .endDeferred s _ _ _ _ _ _ _

theorem State.reportCompletion_keepsLatched (s : State) (b : BankId) (n : Word) : s.KeepsLatched (s.reportCompletion b n) := by
  rw [State.reportCompletion_eq]
  exact foldl_keeps (P := fun t => s.KeepsLatched t) _ (fun t e _ ht => ht.trans (t.endClose_keepsLatched e)) (.refl s)

/-- An entry whose last part has ended: its slot is DONE, with its closed intervals (R154, R169, R171). -/
theorem State.reportCompletion_ends {s : State} (hn : (s.requests.table.map PendingEntry.slot).Nodup) {b : BankId} {n : Word}
    {e : PendingEntry} (he : e ∈ s.reportedTable b n) (hf : e.work.finished = true) :
    (s.reportCompletion b n).HasEnded e.slot .done ∧ (s.mem.wf → e.ShowsClosed (s.reportCompletion b n)) := by
  have slots : (s.reportedTable b n).map PendingEntry.slot = s.requests.table.map PendingEntry.slot := by
    unfold State.reportedTable
    rw [List.map_map]
    rfl
  have distinct : (((s.reportedTable b n).filter fun e => e.work.finished).map PendingEntry.slot).Nodup :=
    (slots ▸ hn).sublist (List.filter_sublist.map PendingEntry.slot)
  have listed : e ∈ (s.reportedTable b n).filter fun e => e.work.finished := List.mem_filter.mpr ⟨he, hf⟩
  have mem : State.mem { s with requests := { s.requests with table := s.reportedTable b n } } = s.mem := rfl
  rw [State.reportCompletion_eq]
  generalize ({ s with requests := { s.requests with table := s.reportedTable b n } } : State) = u at mem ⊢
  refine ⟨?_, fun wf => ?_⟩
  · exact foldl_establishes (f := State.endClose) (I := fun _ => True) (Q := fun e t => t.HasEnded e.slot .done) distinct
      (fun _ _ _ _ => trivial)
      (fun s x _ _ => s.endClose_hasEnded x) (fun s x _ y _ hne hx => hx.endClose hne) trivial e listed
  · exact foldl_establishes (f := State.endClose) (I := fun t => t.mem.wf) (Q := fun e t => e.ShowsClosed t) distinct
      (fun s x _ hs => State.endClose_wf hs x) (fun s x _ hs => State.endClose_showsClosed hs x)
      (fun s x _ y _ hne hx => hx.endClose hne) (mem ▸ wf) e listed

/-- The last outstanding part of an entry ends: the entry is finished, its closed intervals one more (R154). -/
theorem Work.endPart_last {kind : BankWork} {closed : List (BankId × Word)} {b : BankId} {n : Word} (m : Word) :
    (Work.banks kind [(b, .folding n)] closed).endPart b m = .banks kind [] (closed ++ [(b, m)]) := by
  unfold Work.endPart
  simp

/-! ### The stages of a completion -/

section
variable (s : State) (b : BankId) (f : Fold)

/-- The state of a completion before the held-close test. -/
def State.foldReported (s : State) (b : BankId) (f : Fold) : State := ((s.foldEnded b).reportCompletion b f.interval).flush

theorem State.completeFold_stages : s.completeFold b f = ((s.foldReported b f).heldTest b).pushLost b f := rfl

theorem State.foldReported_banks :
    (s.foldReported b f).banks = s.banks.set b { s.banks[b] with phase := s.banks[b].phase.folded } := by
  unfold State.foldReported
  rw [(State.flush_touches _).banks (by decide), (State.reportCompletion_touches _ b _).banks (by decide), State.foldEnded_banks]

theorem State.foldReported_folds : (s.foldReported b f).folds = s.folds.set b none := by
  unfold State.foldReported
  rw [(State.flush_touches _).folds (by decide), (State.reportCompletion_touches _ b _).folds (by decide), State.foldEnded_folds]

/-- The parts that a completion before its held-close test may touch. -/
def Part.ofReported : List Part :=
  [.banks, .folds, .latched, .exchangeMarks, .slots, .table, .mem, .writer]

theorem State.foldReported_touches : s.Touches Part.ofReported (s.foldReported b f) := by
  unfold State.foldReported
  exact ((s.foldEnded_touches b).mono (by decide)).trans (((State.reportCompletion_touches _ b _).mono (by decide)).trans
    ((State.flush_touches _).mono (by decide)))

theorem State.flush_keepsLatched : s.KeepsLatched s.flush := by
  unfold State.flush
  split
  · exact .fillPage s
  · exact .refl s

theorem State.heldTest_keepsLatched : s.KeepsLatched (s.heldTest b) :=
  .of_touches (s.heldTest_closeEffect b).touches (by decide)

theorem State.pushLost_keepsLatched : s.KeepsLatched (s.pushLost b f) := by
  unfold State.pushLost
  split
  · exact .refl s
  · exact .push s _ _ _ _ _ _

theorem State.foldReported_keepsLatched : (s.foldEnded b).KeepsLatched (s.foldReported b f) :=
  (State.reportCompletion_keepsLatched _ b _).trans (State.flush_keepsLatched _)

theorem State.completeFold_keepsLatched : (s.foldReported b f).KeepsLatched (s.completeFold b f) := by
  rw [State.completeFold_stages]
  exact (State.heldTest_keepsLatched _ b).trans (State.pushLost_keepsLatched _ b f)

theorem State.foldEnded_notifies (h : s.banks[b].notify = true) : (s.foldEnded b).latched .close = true := by
  unfold State.foldEnded
  dsimp only
  have notify : ((s.putBank b { s.banks[b] with phase := s.banks[b].phase.folded }).putFold b none).banks[b].notify = true := by
    refine (congrArg Bank.notify (getElem_fin_set_self s.banks b _)).trans h
  rw [if_pos notify]
  exact State.latch_latched _ _

/-- A held-close test leaves the slots of the pending table. -/
theorem State.heldTest_slots : (s.heldTest b).requests.table.map PendingEntry.slot = s.requests.table.map PendingEntry.slot := by
  rcases s.heldTest_cases b with heq | ⟨a, c, -, -, -, -, heq⟩
  · rw [heq]
  · rw [heq, State.closeStart_table, List.map_map]
    refine List.map_congr_left fun e _ => ?_
    rw [Function.comp_apply, PendingEntry.started_eq]
    split
    · rfl
    · rfl

end

/-! ### The flush -/

section
variable {s : State}

theorem State.allStopped_iff : s.allStopped = true ↔ ∀ b : BankId, s.banks[b].phase = .stopped := by
  unfold State.allStopped
  simp

theorem State.flush_of_all (h : ∀ b : BankId, s.banks[b].phase = .stopped) : s.flush = s.fillPage := if_pos (s.allStopped_iff.mpr h)

theorem State.flush_of_some {b : BankId} (h : s.banks[b].phase ≠ .stopped) : s.flush = s :=
  if_neg fun all => h (s.allStopped_iff.mp all b)

end

end Sys2Proof.Machine
end

section
/-! SUPPORT. The completion of a fold, settled (R82, R83, R119, R122, R154). -/

namespace Sys2Proof.Machine

section
variable {s : State} {b : BankId} {f : Fold}

theorem State.exec_foldCompletion (hr : s.control.ready = true) (hf : s.folds[b] = some f) (h : s.nextStep b = none) :
    exec (.foldCompletion b) s = .next (s.completeFold b f) := by
  rw [exec_of_ready _ hr]
  refine congrArg Host.Outcome.next (?_ : s.foldCompletion b = _)
  unfold State.foldCompletion
  rw [hf, h]
  rfl

/-- The bank and its fold after a completion: a held close that may start starts (R78, R82). -/
theorem State.completeFold_bank :
    if ({ s.banks[b] with phase := s.banks[b].phase.folded } : Bank).mayStart = true ∧ s.control.warm = false then
      ∃ g, (s.completeFold b f).folds[b] = some g ∧ g.interval = s.banks[b].interval ∧
        (s.completeFold b f).banks[b].held = none
    else (s.completeFold b f).folds[b] = none ∧
      (s.completeFold b f).banks[b] = { s.banks[b] with phase := s.banks[b].phase.folded } := by
  have pushed := State.pushLost_touches ((s.foldReported b f).heldTest b) b f
  have own : (s.foldReported b f).banks[b] = { s.banks[b] with phase := s.banks[b].phase.folded } := by
    rw [State.foldReported_banks, getElem_fin_set_self]
  have control : (s.foldReported b f).control = s.control := (s.foldReported_touches b f).control (by decide)
  rw [State.completeFold_stages, pushed.banks (by decide), pushed.folds (by decide), ← own, ← control]
  split
  next may =>
    obtain ⟨a, c, -, -, -, folds, held⟩ := State.heldTest_at may.1 may.2
    refine ⟨_, folds, ?_, held⟩
    change (s.foldReported b f).banks[b].interval = _
    rw [own]
  next idle =>
    rw [State.heldTest_of_idle idle]
    exact ⟨by rw [State.foldReported_folds, getElem_fin_set_self], rfl⟩

theorem State.completeFold_other {b' : BankId} (h : b' ≠ b) :
    (s.completeFold b f).banks[b'] = s.banks[b'] ∧ (s.completeFold b f).folds[b'] = s.folds[b'] := by
  have pushed := State.pushLost_touches ((s.foldReported b f).heldTest b) b f
  obtain ⟨banks, folds⟩ := (s.foldReported b f).heldTest_other h
  rw [State.completeFold_stages, pushed.banks (by decide), pushed.folds (by decide), banks, folds, State.foldReported_banks,
    State.foldReported_folds, getElem_fin_set_of_ne _ _ h, getElem_fin_set_of_ne _ _ h]
  exact ⟨rfl, rfl⟩

/-- The state of a completion that the flush meets. -/
theorem State.completeFold_writer : (s.completeFold b f).writer = (s.foldReported b f).writer := by
  rw [State.completeFold_stages, (State.pushLost_touches _ b f).writer (by decide),
    (State.heldTest_closeEffect _ b).touches.writer (by decide)]

theorem State.beforeFlush_banks : ((s.foldEnded b).reportCompletion b f.interval).banks =
    s.banks.set b { s.banks[b] with phase := s.banks[b].phase.folded } := by
  rw [(State.reportCompletion_touches _ b _).banks (by decide), State.foldEnded_banks]

theorem State.beforeFlush_writer : ((s.foldEnded b).reportCompletion b f.interval).writer = s.writer := by
  rw [(State.reportCompletion_touches _ b _).writer (by decide), (s.foldEnded_touches b).writer (by decide)]

/-- The last STOP flushes the FILLING page (R122). -/
theorem State.completeFold_flushes (h : s.banks[b].phase.folded = .stopped) (others : ∀ b', b' ≠ b → s.banks[b'].phase = .stopped) :
    (s.completeFold b f).writer.filling = none ∧
      (s.writer.filling ≠ none → (s.completeFold b f).latched .page = true) := by
  have all (b' : BankId) : ((s.foldEnded b).reportCompletion b f.interval).banks[b'].phase = .stopped := by
    rw [State.beforeFlush_banks, getElem_fin_set]
    split
    · exact h
    next hne => exact others b' hne
  have flushed : s.foldReported b f = ((s.foldEnded b).reportCompletion b f.interval).fillPage := State.flush_of_all all
  refine ⟨?_, fun filling => s.completeFold_keepsLatched b f .page ?_⟩
  · rw [State.completeFold_writer, flushed]
    exact (State.fillPage_writer _).1
  · obtain ⟨g, hg⟩ := Option.ne_none_iff_exists'.mp filling
    rw [flushed]
    exact or_flag_latched (State.fillPage_filled (State.beforeFlush_writer (s := s) ▸ hg)).2

theorem State.completeFold_keepsPage {b' : BankId} (hne : b' ≠ b) (h : s.banks[b'].phase ≠ .stopped) :
    (s.completeFold b f).writer = s.writer := by
  have running : ((s.foldEnded b).reportCompletion b f.interval).banks[b'].phase ≠ .stopped := by
    rw [State.beforeFlush_banks, getElem_fin_set_of_ne _ _ hne]
    exact h
  have unflushed : s.foldReported b f = (s.foldEnded b).reportCompletion b f.interval := State.flush_of_some running
  rw [State.completeFold_writer, unflushed, State.beforeFlush_writer]

/-! ### RECORDS_LOST -/

theorem State.beforePush_exceptions : ((s.foldReported b f).heldTest b).exceptions = s.exceptions := by
  rw [(State.heldTest_closeEffect _ b).touches.exceptions (by decide), (s.foldReported_touches b f).exceptions (by decide)]

theorem State.pushLost_of_none (u : State) (h : f.lost = 0) : u.pushLost b f = u := if_pos h

theorem State.pushLost_of_some (u : State) (h : f.lost ≠ 0) : u.pushLost b f =
    u.push .recordsLost (BitVec.ofNat 32 b.val) f.interval f.lost f.lostCounter noCopy := if_neg h

/-! ### The slots -/

/-- A slot whose last part was the fold has ended when the completion has (R154, R169, R171). -/
theorem State.completeFold_ends (hn : (s.requests.table.map PendingEntry.slot).Nodup) {x : PendingEntry}
    (hx : x ∈ s.requests.table) {kind : BankWork} {closed : List (BankId × Word)} {n : Word}
    (hw : x.work = .banks kind [(b, .folding n)] closed) :
    (s.completeFold b f).HasEnded x.slot .done ∧ (s.mem.wf →
      PendingEntry.ShowsClosed ⟨x.slot, .banks kind [] (closed ++ [(b, f.interval)])⟩ (s.completeFold b f)) := by
  have requests := (s.foldEnded_touches b).requests (by decide)
  have mem := (s.foldEnded_touches b).mem (by decide)
  have listed : (⟨x.slot, .banks kind [] (closed ++ [(b, f.interval)])⟩ : PendingEntry) ∈
      (s.foldEnded b).reportedTable b f.interval := by
    unfold State.reportedTable
    rw [requests]
    refine List.mem_map.mpr ⟨x, hx, ?_⟩
    rw [hw, Work.endPart_last]
  obtain ⟨ended, shows⟩ := State.reportCompletion_ends (by rw [requests]; exact hn) listed rfl
  have flushed := ((s.foldEnded b).reportCompletion b f.interval).flush_touches
  have tested := ((s.foldReported b f).heldTest_closeEffect b).touches
  have pushed := State.pushLost_touches ((s.foldReported b f).heldTest b) b f
  have sameMem : (s.completeFold b f).mem = ((s.foldEnded b).reportCompletion b f.interval).mem := by
    rw [State.completeFold_stages, pushed.mem (by decide), tested.mem (by decide)]
    exact flushed.mem (by decide)
  have sameRequests : (s.foldReported b f).requests = ((s.foldEnded b).reportCompletion b f.interval).requests :=
    flushed.requests (by decide)
  refine ⟨⟨?_, ?_, ?_⟩, fun wf => ?_⟩
  · rw [State.completeFold_stages, pushed.slots (by decide), tested.slots (by decide), sameRequests]
    exact ended.slot
  · rw [State.completeFold_stages, pushed.table (by decide), State.heldTest_slots, sameRequests]
    exact ended.table
  · exact s.completeFold_keepsLatched b f .done (State.flush_keepsLatched _ .done ended.latched)
  · exact (shows (by rw [mem]; exact wf)).of_repliesIn ((closedBytes_length_le _).trans (by decide))
      (slots := fun _ => False) (.of_mem sameMem _) id

end

/-- Settles O38, stage by stage of `completeFold_stages`. -/
theorem foldCompletionEndsFold : Obligations.FoldCompletionEndsFold := by
  intro s b f ready hf none
  refine ⟨_, State.exec_foldCompletion ready hf none, State.completeFold_bank, fun b' => State.completeFold_other, fun notify => ?_,
    State.completeFold_flushes, fun ⟨b', hne, h⟩ => State.completeFold_keepsPage hne h, fun kept => ?_,
    fun lost => ⟨?_, fun full => ?_⟩,
    fun lost n room => ?_, fun requestsOk x hx kind out closed n hw hout => ?_⟩
  · exact s.completeFold_keepsLatched b f .close (s.foldReported_keepsLatched b f .close (s.foldEnded_notifies b notify))
  · rw [State.completeFold_stages, State.pushLost_of_none _ kept, State.beforePush_exceptions]
  · rw [State.completeFold_stages, State.pushLost_of_some _ lost]
    exact State.push_latches _ _ _ _ _ _ _
  · obtain ⟨count, top⟩ := State.push_exceptions_of_full ((s.foldReported b f).heldTest b) .recordsLost (BitVec.ofNat 32 b.val)
      f.interval f.lost f.lostCounter noCopy (by rw [State.beforePush_exceptions]; exact full)
    rw [State.completeFold_stages, State.pushLost_of_some _ lost]
    exact ⟨top, by rw [count, State.beforePush_exceptions]⟩
  · obtain ⟨top, record⟩ := State.push_record (s := (s.foldReported b f).heldTest b) (n := n)
      (by rw [State.beforePush_exceptions]; exact room) .recordsLost (BitVec.ofNat 32 b.val) f.interval f.lost f.lostCounter noCopy
    rw [State.completeFold_stages, State.pushLost_of_some _ lost, record]
    exact ⟨top, rfl, rfl, rfl, rfl, rfl⟩
  · subst hout
    obtain ⟨-, -, distinct, -⟩ := requestsOk
    obtain ⟨ended, shows⟩ := State.completeFold_ends distinct hx hw
    refine ⟨ended.slot, ended.latched, ended.table, fun memoryOk => ?_⟩
    have shown := shows memoryOk.1
    refine ⟨shown.outcome, ?_, fun many => ?_, fun one only => ?_, fun distinctBanks => shown.closedList distinctBanks⟩
    · refine shown.count.trans ?_
      change leBytes 4 (closed ++ [(b, f.interval)]).length = _
      rw [List.length_append, List.length_singleton]
    · refine shown.interval.trans ?_
      cases kind
      case closeOne => exact absurd rfl many
      all_goals rfl
    · refine shown.interval.trans ?_
      rw [one, only]
      rfl

end Sys2Proof.Machine
end

section
/-! SUPPORT. One bank's events leave the other banks, their points and their register sets. -/

namespace Sys2Proof.Machine

/-- From `s` to `t` only bank `b`, its fold and its points changed, and of the register sets only those in `own`. -/
structure State.OnlyBank (s t : State) (b : BankId) (own : SetId → Prop) : Prop where
  banks : ∀ b' : BankId, b' ≠ b → t.banks[b'] = s.banks[b']
  folds : ∀ b' : BankId, b' ≠ b → t.folds[b'] = s.folds[b']
  profiles : ∀ b' : BankId, b' ≠ b → ∀ i : Fin 5, t.profiles[pointAt b' i] = s.profiles[pointAt b' i]
  regs : ∀ p : SetId, ¬own p → t.regs[p] = s.regs[p]

/-- The parts that events of one bank share with other banks. -/
def Part.byBank : List Part := [.banks, .folds, .profiles, .regs]

namespace State.OnlyBank

variable {s t u : State} {b : BankId} {own own' : SetId → Prop}

theorem of_touches {ps : List Part} (h : s.Touches ps t) (hp : ∀ p ∈ Part.byBank, p ∉ ps) : s.OnlyBank t b own where
  banks := fun b' _ => by rw [h.banks (hp .banks (by decide))]
  folds := fun b' _ => by rw [h.folds (hp .folds (by decide))]
  profiles := fun b' _ i => by rw [h.profiles (hp .profiles (by decide))]
  regs := fun p _ => by rw [h.regs (hp .regs (by decide))]

theorem refl (s : State) : s.OnlyBank s b own := of_touches (.refl s []) (by decide)

theorem trans (h : s.OnlyBank t b own) (h' : t.OnlyBank u b own) : s.OnlyBank u b own where
  banks := fun b' hb => (h'.banks b' hb).trans (h.banks b' hb)
  folds := fun b' hb => (h'.folds b' hb).trans (h.folds b' hb)
  profiles := fun b' hb i => (h'.profiles b' hb i).trans (h.profiles b' hb i)
  regs := fun p hp => (h'.regs p hp).trans (h.regs p hp)

theorem mono (h : s.OnlyBank t b own) (ho : ∀ p, own p → own' p) : s.OnlyBank t b own' where
  banks := h.banks
  folds := h.folds
  profiles := h.profiles
  regs := fun p hp => h.regs p fun hown => hp (ho p hown)

/-- What changes of the four parts the bank's own alone. -/
theorem of_banks {ps : List Part} (h : s.Touches ps t) (hf : Part.folds ∉ ps) (hp : Part.profiles ∉ ps) (hr : Part.regs ∉ ps)
    {x : Bank} (hb : t.banks = s.banks.set b x) : s.OnlyBank t b own where
  banks := fun b' hne => by rw [hb, getElem_fin_set_of_ne _ _ hne]
  folds := fun b' _ => by rw [h.folds hf]
  profiles := fun b' _ i => by rw [h.profiles hp]
  regs := fun p _ => by rw [h.regs hr]

theorem of_folds {ps : List Part} (h : s.Touches ps t) (hb : Part.banks ∉ ps) (hp : Part.profiles ∉ ps) (hr : Part.regs ∉ ps)
    {x : Option Fold} (hf : t.folds = s.folds.set b x) : s.OnlyBank t b own where
  banks := fun b' _ => by rw [h.banks hb]
  folds := fun b' hne => by rw [hf, getElem_fin_set_of_ne _ _ hne]
  profiles := fun b' _ i => by rw [h.profiles hp]
  regs := fun p _ => by rw [h.regs hr]

theorem of_regs {ps : List Part} (h : s.Touches ps t) (hb : Part.banks ∉ ps) (hf : Part.folds ∉ ps) (hp : Part.profiles ∉ ps)
    {p : SetId} {x : RegisterSet} (ho : own p) (hr : t.regs = s.regs.set p x) : s.OnlyBank t b own where
  banks := fun b' _ => by rw [h.banks hb]
  folds := fun b' _ => by rw [h.folds hf]
  profiles := fun b' _ i => by rw [h.profiles hp]
  regs := fun q hq => by rw [hr, getElem_fin_set_of_ne _ _ fun heq : q = p => hq (heq ▸ ho)]

theorem putBank (s : State) (b : BankId) (x : Bank) : s.OnlyBank (s.putBank b x) b own :=
  of_banks (s.putBank_touches b x) (by decide) (by decide) (by decide) rfl

theorem checkAccs (s : State) (b : BankId) (i : Fin 2) (items : List AccItem) : s.OnlyBank (s.checkAccs b i items) b own := by
  unfold State.checkAccs
  refine foldl_keeps (P := fun t => s.OnlyBank t b own) items (fun t it _ ht => ht.trans ?_) (refl s)
  have touches := (t.checkAcc_accChecked ⟨b, i, it⟩).touches
  rcases t.checkAcc_banks ⟨b, i, it⟩ with same | lost
  · refine of_banks touches (by decide) (by decide) (by decide) (x := t.banks[b]) ?_
    rw [same]
    exact (Vector.set_getElem_self b.isLt).symm
  · exact of_banks touches (by decide) (by decide) (by decide) lost

theorem closeStart (s : State) (b : BankId) (a : Fin 2) (h : HeldClose) :
    s.OnlyBank (s.closeStart b a h) b (fun p => bankOfSet p = b) where
  banks := fun b' hne => by rw [State.closeStart_banks, getElem_fin_set_of_ne _ _ hne]
  folds := fun b' hne => by rw [State.closeStart_folds, getElem_fin_set_of_ne _ _ hne]
  profiles := fun b' hne i => by
    have staged : (s.closeStart b a h).profiles = (s.applyStaged b).profiles := rfl
    rw [staged]
    exact (s.applyStaged_profiles b).2 _ fun e heq => hne (pointAt_inj.mp heq).1
  regs := fun p hp => by
    rw [State.closeStart_regs, getElem_fin_tabulate, if_neg hp]

theorem heldTest (s : State) (b : BankId) : s.OnlyBank (s.heldTest b) b (fun p => bankOfSet p = b) := by
  rcases s.heldTest_cases b with heq | ⟨a, h, -, -, -, -, heq⟩
  · rw [heq]
    exact refl s
  · rw [heq]
    exact closeStart s b a h

theorem addWindow (s : State) (b : BankId) (a : Fin 2) (q : Seq16) (m : Nat) (c : Calculation) :
    s.OnlyBank (s.addWindow b a q m c) b (fun p => bankOfSet p = b) := by
  have added : s.OnlyBank (s.addToSet b a q m c) b (fun p => bankOfSet p = b) := by
    unfold State.addToSet
    dsimp only
    refine .trans ?_ (of_touches (State.wordsWritten_touches _ _ _) (by decide))
    exact ((checkAccs s b a _).trans (checkAccs _ b a _)).trans (putBank _ b _)
  unfold State.addWindow
  dsimp only
  exact (added.trans ((putBank _ b _).trans (heldTest _ b))).trans
    (of_touches (State.pushOverlong_touches _ b _) (by decide))

theorem windowAddition (s : State) (b : BankId) : s.OnlyBank (s.windowAddition b) b (fun p => bankOfSet p = b) := by
  have noted (a : Accounting) (m : Nat) : s.OnlyBank ({ s with accounting := some a }.countHanded b m) b (fun p => bankOfSet p = b) :=
    .trans (t := { s with accounting := some a }) ⟨fun _ _ => rfl, fun _ _ => rfl, fun _ _ _ => rfl, fun _ _ => rfl⟩
      (of_touches (State.countHanded_touches _ b m) (by decide))
  have missed (u : State) : u.OnlyBank u.countNotAccounted b (fun p => bankOfSet p = b) :=
    of_touches (State.countNotAccounted_touches u) (by decide)
  unfold State.windowAddition
  split
  · split
    · dsimp only
      split
      · exact refl s
      · split
        · split
          · exact (noted _ _).trans (missed _)
          · exact (noted _ _).trans (addWindow _ b _ _ _ _)
        · exact (noted _ _).trans (missed _)
    · exact refl s
  · exact refl s

theorem completeFold (s : State) (b : BankId) (f : Fold) : s.OnlyBank (s.completeFold b f) b (fun p => bankOfSet p = b) := by
  have touches := s.foldReported_touches b f
  have reported : s.OnlyBank (s.foldReported b f) b (fun p => bankOfSet p = b) :=
    { banks := fun b' hne => by rw [State.foldReported_banks, getElem_fin_set_of_ne _ _ hne]
      folds := fun b' hne => by rw [State.foldReported_folds, getElem_fin_set_of_ne _ _ hne]
      profiles := fun b' _ i => by rw [touches.profiles (by decide)]
      regs := fun p _ => by rw [touches.regs (by decide)] }
  rw [State.completeFold_stages]
  exact (reported.trans (heldTest _ b)).trans (of_touches (State.pushLost_touches _ b f) (by decide))

theorem foldCompletion (s : State) (b : BankId) : s.OnlyBank (s.foldCompletion b) b (fun p => bankOfSet p = b) := by
  unfold State.foldCompletion
  split
  · split
    · exact refl s
    · exact completeFold s b _
  · exact refl s

/-! ### A point step -/

theorem checkRegs (s : State) {p : SetId} (ho : own p) (items : List RegItem) : s.OnlyBank (s.checkRegs p items) b own := by
  unfold State.checkRegs
  refine foldl_keeps (P := fun t => s.OnlyBank t b own) items (fun t it _ ht => ht.trans ?_) (refl s)
  have touches := t.checkReg_touches p it
  cases hm : t.ecc.registers.lookup ⟨p, it⟩ with
  | none =>
    rw [State.checkReg_of_clean hm]
    exact refl t
  | some m =>
    cases m with
    | single =>
      refine of_regs touches (by decide) (by decide) (by decide) ho (x := t.regs[p]) ?_
      rw [State.checkReg_of_single hm]
      exact (Vector.set_getElem_self p.isLt).symm
    | uncorrectable => exact of_regs touches (by decide) (by decide) (by decide) ho (State.checkReg_lost_regs hm)

theorem writeRecord (s : State) (b : BankId) (n : Word) (r : List Byte) : s.OnlyBank (s.writeRecord b n r) b own := by
  have touches := (s.writeRecord_recordEffect b n r).touches
  rcases s.writeRecord_folds b n r with same | ⟨m, lost⟩
  · refine of_folds touches (by decide) (by decide) (by decide) (x := s.folds[b]) ?_
    rw [same]
    exact (Vector.set_getElem_self b.isLt).symm
  · exact of_folds touches (by decide) (by decide) (by decide) lost

theorem stepEntry (s : State) (b : BankId) (f : Fold) (e : Fin 6) : s.OnlyBank (s.stepEntry b f e) b (· = entryPoint b e) := by
  have point (u : State) (items : List RegItem) : u.OnlyBank (u.checkRegs (entryPoint b e) items) b (· = entryPoint b e) :=
    checkRegs (own := (· = entryPoint b e)) u rfl items
  have reads : s.OnlyBank (s.stepReads b f.set e) b (· = entryPoint b e) := by
    unfold State.stepReads
    dsimp only
    exact ((point s _).trans (point _ _)).trans (checkAccs _ b f.set _)
  have scale (u : State) (n : Word) : u.OnlyBank (u.stepScale (entryPoint b e) n) b (· = entryPoint b e) :=
    of_regs (u.stepScale_touches _ n) (by decide) (by decide) (by decide) rfl (u.stepScale_regs _ n)
  have settle (u : State) (n : Word) (totals : Vector (BitVec 64) 104) :
      u.OnlyBank (u.stepSettle (entryPoint b e) n totals) b (· = entryPoint b e) :=
    of_regs (u.stepSettle_touches _ n totals) (by decide) (by decide) (by decide) rfl (u.stepSettle_regs _ n totals)
  have record (u : State) (rebased : Bool) : u.OnlyBank (u.stepRecord b e f rebased) b (· = entryPoint b e) := by
    unfold State.stepRecord
    split
    · exact (checkAccs u b f.set _).trans (writeRecord _ b _ _)
    · exact refl u
  have interval (u : State) (n : Word) : u.OnlyBank (u.stepInterval (entryPoint b e) n) b (· = entryPoint b e) :=
    of_regs (u.stepInterval_touches _ n) (by decide) (by decide) (by decide) rfl rfl
  have fold (u : State) (x : Option Fold) : u.OnlyBank (u.putFold b x) b (· = entryPoint b e) :=
    of_folds (u.putFold_touches b x) (by decide) (by decide) (by decide) rfl
  unfold State.stepEntry
  exact ((reads.trans (scale _ _)).trans (settle _ _ _)).trans (((record _ _).trans (interval _ _)).trans (fold _ _))

end State.OnlyBank

/-- The point of a step that is taken lies in the step's bank (R61, R96). -/
theorem bankOfSet_of_nextStep {s : State} (h : s.BanksOk) {b : BankId} {f : Fold} {e : Fin 6} (hn : s.nextStep b = some (f, e)) :
    bankOfSet (entryPoint b e) = b := by
  obtain ⟨-, has⟩ := State.nextStep_spec hn
  refine bankOfSet_entryPoint ?_
  by_cases he : e.val < 5
  · exact Or.inl he
  · right
    obtain ⟨-, -, -, -, balance⟩ := h b
    unfold AccSet.hasStep at has
    rw [dif_neg he, balance f.set] at has
    exact beq_iff_eq.mp has

theorem State.OnlyBank.pointStep (s : State) (b : BankId) :
    ∃ own : SetId → Prop, s.OnlyBank (s.pointStep b) b own ∧ (s.BanksOk → ∀ p, own p → bankOfSet p = b) := by
  unfold State.pointStep
  split
  next f e hn =>
    exact ⟨_, .stepEntry s b f e, fun ok p hp => by rw [hp, bankOfSet_of_nextStep ok hn]⟩
  · exact ⟨fun _ => False, .refl s, fun _ _ => False.elim⟩

end Sys2Proof.Machine
end

section
/-! SUPPORT. A point step writes reply areas and one record page alone (R97, R115 to R118, R154). -/

namespace Sys2Proof.Machine

/-! ### The page of a record write -/

theorem Memory.withRecord_read_outside (m : Memory) {base : Nat} {f : Filling} (n : Word) {r : List Byte}
    (hr : f.used + r.length ≤ 4032) {x : Nat} (hx : x < base ∨ base + 4096 ≤ x) :
    (m.withRecord base f n r).read x = m.read x := by
  have field (m : Memory) (off : Nat) (w : Word) (h : off + 4 ≤ 4096) : (m.writeBytes (base + off) (wordBytes w)).read x = m.read x :=
    m.read_writeBytes_of_outside _ (by rw [wordBytes_length]; omega)
  have number (m : Memory) (off k : Nat) (h : off + 4 ≤ 4096) : (m.writeBytes (base + off) (leBytes 4 k)).read x = m.read x :=
    m.read_writeBytes_of_outside _ (by rw [leBytes_length]; omega)
  unfold Memory.withRecord
  dsimp only
  rw [number _ 20 _ (by omega), field _ 12 _ (by omega)]
  split
  · rw [field _ 8 _ (by omega), number _ 4 _ (by omega), m.read_writeBytes_of_outside _ (by omega)]
  · rw [number _ 4 _ (by omega), m.read_writeBytes_of_outside _ (by omega)]

theorem Memory.withPage_read_outside (m : Memory) {base : Nat} (seq lost : Word) {x : Nat} (hx : x < base ∨ base + 4096 ≤ x) :
    (m.withPage base seq lost).read x = m.read x := by
  obtain ⟨hlength, -⟩ := headerBytes_fields seq lost
  unfold Memory.withPage
  rw [Memory.read_writeBytes_of_outside _ _ (by rw [hlength]; omega), Memory.read_zero, if_neg (by omega)]

/-- The address lies outside the page that is FILLING and the page that is next. -/
def Writer.Spares (w : Writer) (a : Nat) : Prop :=
  ∀ p : PageId, pageByte p ≤ a → a < pageByte p + 4096 → w.pages[p] ≠ .filling ∧ w.freeQueue.head? ≠ some p

theorem State.placeRecord_mem (s : State) (f : Filling) (n : Word) (r : List Byte) :
    (s.placeRecord f n r).mem = s.mem.withRecord (pageByte f.page) f n r := by
  obtain ⟨-, -, -, -, -, filled, -⟩ := (s.recordPlaced f n r).fillPage_writer
  rw [State.placeRecord_eq, ← State.recordPlaced_mem]
  split
  · exact filled
  · rfl

/-- A record write leaves every byte outside its page (R115 to R118). -/
theorem State.writeRecord_read_of_spares {s : State} (hpages : s.PagesOk) (b : BankId) (n : Word) {r : List Byte}
    (hr : 0 < r.length) (hshort : r.length ≤ 1288) {a : Nat} (ha : s.writer.Spares a) :
    (s.writeRecord b n r).mem.read a = s.mem.read a := by
  by_cases hfits : ∃ f, s.writer.filling = some f ∧ f.used + r.length ≤ 4032
  · obtain ⟨f, hf, hroom⟩ := hfits
    obtain ⟨-, -, -, -, hfilling, -⟩ := hpages
    have isFilling := (hfilling f.page).mpr (by rw [hf]; rfl)
    rw [State.writeRecord_of_fits hf b n hr hroom, State.placeRecord_mem]
    refine Memory.withRecord_read_outside _ n hroom ?_
    by_contra hin
    exact (ha f.page (by omega) (by omega)).1 isFilling
  · have hfull : ∀ f, s.writer.filling = some f → 4032 < f.used + r.length := fun f hf =>
      Nat.lt_of_not_le fun hroom => hfits ⟨f, hf, hroom⟩
    obtain ⟨-, hqueue, -, -, -, hfmem, -⟩ := s.fillPage_writer
    cases hq : s.writer.freeQueue with
    | nil =>
      rw [State.writeRecord_of_lost hq b n hr hfull, ← hfmem]
      rfl
    | cons p rest =>
      have outside : a < pageByte p ∨ pageByte p + 4096 ≤ a := by
        by_contra hin
        exact (ha p (by omega) (by omega)).2 (by rw [hq]; rfl)
      rw [State.writeRecord_of_next hq b n hr hshort hfull, State.recordPlaced_mem,
        Memory.withRecord_read_outside _ n (Nat.le_trans (Nat.le_of_eq (Nat.zero_add _)) (by omega)) outside,
        State.takePage_mem (hqueue.trans hq), Memory.withPage_read_outside _ _ _ outside, hfmem]

/-! ### The reply areas of a step -/

/-- A byte of no reply area reads as before. -/
theorem State.RepliesIn.read {s t : State} {slots : SlotId → Prop} (h : s.RepliesIn t slots) {a : Nat} (ha : ∀ k, ¬inReply k a) :
    t.mem.read a = s.mem.read a := h a fun k hk => absurd hk (ha k)

section
variable (s : State) {a : Nat}

theorem State.checkRegs_read (p : SetId) (items : List RegItem) (ha : ∀ k, ¬inReply k a) :
    (s.checkRegs p items).mem.read a = s.mem.read a := by
  unfold State.checkRegs
  exact foldl_keeps (P := fun t => t.mem.read a = s.mem.read a) items
    (fun t it _ ht => ((t.checkReg_repliesIn p it).read ha).trans ht) rfl

theorem State.stepReads_read (b : BankId) (i : Fin 2) (e : Fin 6) (ha : ∀ k, ¬inReply k a) :
    (s.stepReads b i e).mem.read a = s.mem.read a := by
  unfold State.stepReads
  dsimp only
  rw [(State.checkAccs_touches _ b i _).mem (by decide), State.checkRegs_read _ _ _ ha, State.checkRegs_read _ _ _ ha]

/-- The parts that a step's reads may touch. -/
def Part.ofReads : List Part := .banks :: Part.ofRegCheck

theorem State.stepReads_readParts (b : BankId) (i : Fin 2) (e : Fin 6) : s.Touches Part.ofReads (s.stepReads b i e) := by
  unfold State.stepReads
  exact (((s.checkRegs_touches _ _).trans (State.checkRegs_touches _ _ _)).mono (by decide)).trans
    ((State.checkAccs_touches _ b i _).mono (by decide))

theorem RegisterSet.dueRebase_eq_some {r : RegisterSet} {x : PendingRebase} (h : r.dueRebase = some x) : r.rebase = some x := by
  unfold RegisterSet.dueRebase at h
  grind

theorem State.stepSettle_read {s : State} (hs : s.RegistersOk) (p : SetId) (n : Word) (totals : Vector (BitVec 64) 104)
    (ha : ∀ k, ¬inReply k a) : (s.stepSettle p n totals).mem.read a = s.mem.read a := by
  have settled := (s.totalsSettled_touches p totals).mem (by decide)
  rw [State.stepSettle_eq, (State.overflowPushed_touches _ _ _ _).mem (by decide)]
  cases h : s.regs[p].dueRebase with
  | none => rw [State.rebaseEnded_of_none h, settled]
  | some x =>
    obtain ⟨hok, -⟩ := hs
    obtain ⟨-, -, hrebase⟩ := hok p
    obtain ⟨-, hlength, -⟩ := hrebase x (RegisterSet.dueRebase_eq_some h)
    rw [State.rebaseEnded_of_some h, ← settled]
    exact (State.endDeferred_repliesIn _ x.slot _ _ _ _ _ (by rw [RegisterSet.bytes_length]; omega)).read ha

/-- A point step writes reply areas and one record page alone. -/
theorem State.stepEntry_read_of_spares {s : State} (hregs : s.RegistersOk) (hpages : s.PagesOk) (b : BankId) (f : Fold)
    (e : Fin 6) (ha : ∀ k, ¬inReply k a) (spares : s.writer.Spares a) : (s.stepEntry b f e).mem.read a = s.mem.read a := by
  have reads := s.stepReads_readParts b f.set e
  have ready := hregs.stepReads b f.set e
  have scaled (u : State) (hu : u.RegistersOk) (n : Word) (totals : Vector (BitVec 64) 104) :
      ((u.stepScale (entryPoint b e) n).stepSettle (entryPoint b e) n totals).mem.read a = u.mem.read a := by
    rw [State.stepSettle_read (hu.stepScale _ n) _ n totals ha, (u.stepScale_touches _ n).mem (by decide)]
  have record (u : State) (hu : u.PagesOk) (hw : u.writer = s.writer) (rebased : Bool) :
      (u.stepRecord b e f rebased).mem.read a = u.mem.read a := by
    have checked := u.checkAccs_touches b f.set (recordReads e)
    have pages := hu.of_touches checked (by decide)
    have same : (u.checkAccs b f.set (recordReads e)).writer = s.writer := by rw [checked.writer (by decide), hw]
    unfold State.stepRecord
    dsimp only
    generalize u.checkAccs b f.set (recordReads e) = v at checked pages same ⊢
    split
    · obtain ⟨hlow, hhigh⟩ := RecordHead.bytes_length_bounds
        (v.banks[b].sets[f.set].recordHead b e rebased v.regs[entryPoint b e].anyInvalid) (v.banks[b].sets[f.set].totals e)
      rw [State.writeRecord_read_of_spares pages b _ (by omega) hhigh (by rw [same]; exact spares), checked.mem (by decide)]
    · rfl
  have settledTouches (u : State) (n : Word) (totals : Vector (BitVec 64) 104) :
      u.Touches Part.ofSettle ((u.stepScale (entryPoint b e) n).stepSettle (entryPoint b e) n totals) :=
    ((u.stepScale_touches (entryPoint b e) n).mono (by decide)).trans (State.stepSettle_touches _ (entryPoint b e) n totals)
  unfold State.stepEntry
  dsimp only
  rw [(State.putFold_touches _ _ _).mem (by decide), (State.stepInterval_touches _ _ _).mem (by decide), record, scaled _ ready,
    State.stepReads_read s b f.set e ha]
  · exact (hpages.of_touches reads (by decide)).of_touches (settledTouches _ _ _) (by decide)
  · rw [(settledTouches _ _ _).writer (by decide), reads.writer (by decide)]

theorem State.pointStep_read_of_spares {s : State} (hregs : s.RegistersOk) (hpages : s.PagesOk) (b : BankId)
    (ha : ∀ k, ¬inReply k a) (spares : s.writer.Spares a) : (s.pointStep b).mem.read a = s.mem.read a := by
  unfold State.pointStep
  split
  · exact State.stepEntry_read_of_spares hregs hpages b _ _ ha spares
  · rfl

/-! ### The reply areas of a completion -/

theorem State.foldCompletion_read (b : BankId) (ha : ∀ k, ¬inReply k a) : (s.foldCompletion b).mem.read a = s.mem.read a := by
  have reported (u : State) (n : Word) : (u.reportCompletion b n).mem.read a = u.mem.read a := by
    rw [State.reportCompletion_eq]
    exact foldl_keeps (P := fun t => t.mem.read a = u.mem.read a) _
      (fun t e _ ht => ((t.endClose_repliesIn e).read ha).trans ht) rfl
  have flushed (u : State) : u.flush.mem = u.mem := by
    obtain ⟨-, -, -, -, -, hmem, -⟩ := u.fillPage_writer
    unfold State.flush
    split
    · exact hmem
    · rfl
  unfold State.foldCompletion
  split
  · split
    · rfl
    · rw [State.completeFold_stages, (State.pushLost_touches _ b _).mem (by decide),
        (State.heldTest_closeEffect _ b).touches.mem (by decide)]
      unfold State.foldReported
      rw [flushed, reported, (State.foldEnded_touches s b).mem (by decide)]
  · rfl

end

end Sys2Proof.Machine
end

section
/-! SUPPORT. What the accounting events leave unchanged (R25, R61, R97, R107, R194). -/

namespace Sys2Proof.Machine

/-- The parts that no accounting event touches. -/
def Part.outsideAccounting : List Part :=
  [.links, .timing, .control, .ld, .mask, .owner, .ownerCount, .tagCount, .intake, .quotaLimit, .quotaCount, .quotaTimer] ++
    Part.ofSorter

/-- An accounting event. -/
def AccountingEvent (c : Instr) : Prop :=
  c = .calculation ∨ (∃ b, c = .windowAddition b) ∨ c = .tariffEvent ∨ (∃ b, c = .pointStep b) ∨ ∃ b, c = .foldCompletion b

/-- An accounting event of one bank. -/
def BankEvent (c : Instr) (b : BankId) : Prop :=
  c = .windowAddition b ∨ c = .pointStep b ∨ c = .foldCompletion b

section
variable {c : Instr}

theorem AccountingEvent.outside (hc : AccountingEvent c) : ∀ p ∈ Part.outsideAccounting, p ∉ commandParts c := by
  rcases hc with rfl | ⟨b, rfl⟩ | rfl | ⟨b, rfl⟩ | ⟨b, rfl⟩
  · exact of_decide_eq_true rfl
  · exact of_decide_eq_true rfl
  · exact of_decide_eq_true rfl
  · exact of_decide_eq_true rfl
  · exact of_decide_eq_true rfl

theorem AccountingEvent.watches (hc : AccountingEvent c) (hne : c ≠ .calculation) : Part.watches ∉ commandParts c := by
  rcases hc with rfl | ⟨b, rfl⟩ | rfl | ⟨b, rfl⟩ | ⟨b, rfl⟩
  · exact absurd rfl hne
  · exact of_decide_eq_true rfl
  · exact of_decide_eq_true rfl
  · exact of_decide_eq_true rfl
  · exact of_decide_eq_true rfl

/-- Only the events of the fold write the memory, the writer and the slots. -/
theorem memory_notMem_commandParts (hc : c = .calculation ∨ (∃ b, c = .windowAddition b) ∨ c = .tariffEvent) :
    ∀ p ∈ [Part.mem, .writer, .slots], p ∉ commandParts c := by
  rcases hc with rfl | ⟨b, rfl⟩ | rfl
  · exact of_decide_eq_true rfl
  · exact of_decide_eq_true rfl
  · exact of_decide_eq_true rfl

theorem counters_notMem_commandParts {b : BankId} (hc : c = .pointStep b ∨ c = .foldCompletion b) :
    ∀ p ∈ [Part.accounting, .bankCounters], p ∉ commandParts c := by
  rcases hc with rfl | rfl
  · exact of_decide_eq_true rfl
  · exact of_decide_eq_true rfl

/-- An accounting event of bank `b` leaves the other banks (R61). -/
theorem State.OnlyBank.of_event {b : BankId} (hc : BankEvent c b) {s t : State} (hexec : exec c s = .next t) :
    ∃ own : SetId → Prop, s.OnlyBank t b own ∧ ((c = .pointStep b → s.BanksOk) → ∀ p, own p → bankOfSet p = b) := by
  rcases exec_next_cases hexec with rfl | rfl
  · exact ⟨fun _ => False, .refl _, fun _ _ => False.elim⟩
  · rcases hc with rfl | rfl | rfl
    · exact ⟨_, .windowAddition s b, fun _ _ => id⟩
    · obtain ⟨own, only, inBank⟩ := State.OnlyBank.pointStep s b
      exact ⟨own, only, fun ok => inBank (ok rfl)⟩
    · exact ⟨_, .foldCompletion s b, fun _ _ => id⟩

/-- The bytes that a point step and a completion leave (R61, R107). -/
theorem fold_sameBytes {b : BankId} (hc : c = .pointStep b ∨ c = .foldCompletion b) {s t : State} (hexec : exec c s = .next t)
    (hregs : s.RegistersOk) (hpages : s.PagesOk) {a : Nat} (ha : ∀ k, ¬inReply k a)
    (spares : c = .foldCompletion b ∨ s.writer.Spares a) : t.mem.read a = s.mem.read a := by
  rcases exec_next_cases hexec with rfl | rfl
  · rfl
  · rcases hc with rfl | rfl
    · exact State.pointStep_read_of_spares hregs hpages b ha (spares.resolve_left nofun)
    · exact s.foldCompletion_read b ha

end

/-- Settles O39: frame, banks, bytes. -/
theorem accountingEventsFrame : Obligations.AccountingEventsFrame := by
  intro c s t hc hexec
  have event : AccountingEvent c := hc
  have touches := exec_touches hexec
  have same (p : Part) (hp : p ∈ Part.outsideAccounting) : p.Same s t := touches.same (event.outside p hp)
  refine ⟨same .links (by decide), touches.sorter fun p hp => event.outside p (List.mem_append_right _ hp),
    same .timing (by decide), same .control (by decide), same .ld (by decide), same .mask (by decide), same .owner (by decide),
    same .ownerCount (by decide), same .tagCount (by decide), same .intake (by decide), same .quotaLimit (by decide),
    same .quotaCount (by decide), same .quotaTimer (by decide), fun hne => touches.watches (event.watches hne), ?_, ?_, ?_, ?_, ?_⟩
  · rintro rfl
    exact ⟨touches.banks (by decide), touches.folds (by decide), touches.profiles (by decide), touches.regs (by decide)⟩
  · intro b b' hat hne
    obtain ⟨own, only, inBank⟩ := State.OnlyBank.of_event hat hexec
    exact ⟨only.banks b' hne, only.folds b' hne, only.profiles b' hne,
      fun ok p hp => only.regs p fun hown => hne (hp.symm.trans (inBank ok p hown))⟩
  · rintro b rfl
    exact touches.profiles (of_decide_eq_true rfl)
  · intro hevent
    have outside := memory_notMem_commandParts hevent
    exact ⟨touches.mem (outside _ (by decide)), touches.writer (outside _ (by decide)), touches.slots (outside _ (by decide))⟩
  · intro b hfold _ hregs hpages
    have outside := counters_notMem_commandParts hfold
    refine ⟨touches.accounting (outside _ (by decide)), touches.bankCounters (outside _ (by decide)), fun a ha => ?_⟩
    obtain ⟨hreply, hpage⟩ := ha
    refine fold_sameBytes hfold hexec hregs hpages hreply ?_
    by_cases hcompletion : c = .foldCompletion b
    · exact Or.inl hcompletion
    · exact Or.inr fun p hlow hhigh => (hpage p hlow hhigh).resolve_left hcompletion

end Sys2Proof.Machine
end

section
/-! SUPPORT. The slots that a warm reset refuses (R155, R156, R158). -/

namespace Sys2Proof.Machine

/-! ### A POSTED slot refused -/

/-- The reply area of a POSTED slot that a warm reset refuses: the serial number and the reason RESET (R158). -/
def resetBytes (serial : Word) : List Byte :=
  wordBytes serial ++ leBytes 4 0 ++ leBytes 4 0 ++ leBytes 4 11 ++ List.replicate 368 0

theorem resetReply_bytes (n : Word) : resetReply.bytes n = resetBytes n := by
  unfold Reply.bytes resetBytes
  simp only [List.append_assoc]
  rfl

section
variable (s : State) (k : SlotId)

theorem State.serial_checkWord (w : Nat) : (s.checkWord w).serial k = s.serial k :=
  (State.SameArea.checkWords s [w] k).serial

theorem State.refusePosted_serial (i : SlotId) : (s.refusePosted i).serial k = s.serial k := by
  have replied (u : State) : (u.finish i .refused resetReply).serial k = u.serial k := by
    unfold State.finish
    exact ((State.SameArea.writeReply u i k _ (Nat.zero_le _)).trans (.endSlot _ i k _)).serial
  unfold State.refusePosted
  rw [replied, State.serial_checkWord]

theorem State.refusePosted_mem : (s.refusePosted k).mem = (s.writeReply k (s.serial k) resetReply).mem := by
  unfold State.refusePosted
  rw [State.finish_mem, State.serial_checkWord]
  unfold State.writeReply
  rw [State.wordsWritten_mem, State.wordsWritten_mem]
  dsimp only
  rw [(s.checkWord_touches _).mem (by decide)]

theorem State.refusePosted_repliesIn : s.RepliesIn (s.refusePosted k) (· = k) := by
  have checked := (s.checkWord_touches (slotWord k + 2)).mem (by decide)
  unfold State.refusePosted
  exact .trans (.of_mem checked _) (State.finish_repliesIn _ k _ (Nat.zero_le _))

theorem State.refusePosted_bytes {s : State} (h : s.mem.wf) :
    (s.refusePosted k).mem.bytes (slotByte k + 0x80) 384 = resetBytes (s.serial k) := by
  rw [State.refusePosted_mem, ← resetReply_bytes]
  exact State.writeReply_bytes h k _ resetReply (Nat.zero_le _)

theorem State.refusePosted_wf {s : State} (h : s.mem.wf) : (s.refusePosted k).mem.wf := by
  rw [State.refusePosted_mem, State.writeReply_mem]
  exact Memory.wf_writeBytes h _ _

theorem State.refusePosted_of_clean {s : State} (h : s.ecc.exchange.lookup (slotWord k + 2) = none) :
    s.refusePosted k = s.finish k .refused resetReply := by
  unfold State.refusePosted
  rw [State.checkWord_of_clean h]

end

/-! ### All slots refused -/

section
variable {s : State}

theorem State.refusedPosted_repliesIn (s : State) : s.RepliesIn s.refusedPosted (· ∈ s.requests.intake) := by
  unfold State.refusedPosted
  exact foldl_keeps (P := fun u => s.RepliesIn u (· ∈ s.requests.intake)) _
    (fun u k hk hu => hu.trans ((u.refusePosted_repliesIn k).mono fun _ heq => heq ▸ hk)) (.of_mem rfl _)

theorem State.refusedPosted_wf (h : s.mem.wf) : s.refusedPosted.mem.wf := by
  unfold State.refusedPosted
  exact foldl_keeps (P := fun u => u.mem.wf) _ (fun u k _ hu => State.refusePosted_wf k hu) h

theorem State.refusedPosted_bytes (h : s.mem.wf) (hn : s.requests.intake.Nodup) : ∀ k ∈ s.requests.intake,
    s.refusedPosted.mem.bytes (slotByte k + 0x80) 384 = resetBytes (s.serial k) := by
  unfold State.refusedPosted
  refine foldl_establishes (f := State.refusePosted) (slot := id) (I := fun u => u.mem.wf ∧ ∀ k, u.serial k = s.serial k)
    (Q := fun k u => u.mem.bytes (slotByte k + 0x80) 384 = resetBytes (s.serial k)) (by rwa [List.map_id]) ?_ ?_ ?_
    ⟨h, fun _ => rfl⟩
  · intro u k _ hu
    obtain ⟨wf, serial⟩ := hu
    exact ⟨State.refusePosted_wf k wf, fun i => (u.refusePosted_serial i k).trans (serial i)⟩
  · intro u k _ hu
    obtain ⟨wf, serial⟩ := hu
    rw [State.refusePosted_bytes k wf, serial]
  · intro u k _ i _ hne hu
    rw [(u.refusePosted_repliesIn i).bytes (k := k) (Ne.symm hne) (by decide) (by decide), hu]

theorem State.refusedPosted_capture (h : ∀ k ∈ s.requests.intake, s.ecc.exchange.lookup (slotWord k + 2) = none) :
    s.refusedPosted.capture = s.capture := by
  have kept : s.refusedPosted.capture = s.capture ∧
      ∀ k ∈ s.requests.intake, s.refusedPosted.ecc.exchange.lookup (slotWord k + 2) = none := by
    unfold State.refusedPosted
    refine foldl_keeps (P := fun u => u.capture = s.capture ∧
      ∀ k ∈ s.requests.intake, u.ecc.exchange.lookup (slotWord k + 2) = none) _ (fun u k hk hu => ?_) ⟨rfl, h⟩
    obtain ⟨capture, clean⟩ := hu
    rw [State.refusePosted_of_clean k (clean k hk)]
    exact ⟨((u.finish_touches k _ _).capture (by decide)).trans capture, fun i hi => State.finish_clean (clean i hi) k _ _⟩
  exact kept.1

/-- The words of a TAKEN slot that a warm reset refused over its deferred reply (R155, R156, R158). -/
def PendingEntry.ShowsReset (e : PendingEntry) (t : State) : Prop :=
  t.ShowsEnd e.slot .none .reset 0 e.work.closed.length (closedBytes e.work.closed)

theorem State.refuseTaken_repliesIn (s : State) (e : PendingEntry) : s.RepliesIn (s.refuseTaken e) (· = e.slot) :=
  s.endDeferred_repliesIn e.slot _ _ _ _ _ ((closedBytes_length_le _).trans (by decide))

theorem State.refuseTaken_showsReset (h : s.mem.wf) (e : PendingEntry) : e.ShowsReset (s.refuseTaken e) := by
  unfold State.refuseTaken PendingEntry.ShowsReset
  exact State.endDeferred_showsEnd h _

theorem State.refuseTaken_wf (h : s.mem.wf) (e : PendingEntry) : (s.refuseTaken e).mem.wf := by
  unfold State.refuseTaken
  exact State.endDeferred_wf h _

theorem PendingEntry.ShowsReset.of_repliesIn {e : PendingEntry} {t : State} (h : e.ShowsReset s) {slots : SlotId → Prop}
    (ht : s.RepliesIn t slots) (hk : ¬slots e.slot) : e.ShowsReset t :=
  State.ShowsEnd.of_repliesIn h ((closedBytes_length_le _).trans (by decide)) ht hk

theorem State.refusedAll_repliesIn_table (s : State) :
    s.refusedPosted.RepliesIn s.refusedAll (· ∈ s.requests.table.map PendingEntry.slot) := by
  unfold State.refusedAll
  rw [State.refusedPosted_table]
  exact foldl_keeps (P := fun u => s.refusedPosted.RepliesIn u (· ∈ s.requests.table.map PendingEntry.slot)) _
    (fun u e he hu => hu.trans ((u.refuseTaken_repliesIn e).mono fun _ heq => heq ▸ List.mem_map_of_mem he)) (.of_mem rfl _)

theorem State.refusedAll_showsReset (h : s.mem.wf) (hn : (s.requests.table.map PendingEntry.slot).Nodup) :
    ∀ e ∈ s.requests.table, e.ShowsReset s.refusedAll := by
  unfold State.refusedAll
  rw [State.refusedPosted_table]
  exact foldl_establishes (f := State.refuseTaken) (slot := PendingEntry.slot) (I := fun u => u.mem.wf)
    (Q := PendingEntry.ShowsReset) hn (fun _ e _ hu => State.refuseTaken_wf hu e)
    (fun _ e _ hu => State.refuseTaken_showsReset hu e)
    (fun u _ _ e _ hne hx => hx.of_repliesIn (u.refuseTaken_repliesIn e) (Ne.symm hne)) (State.refusedPosted_wf h)

theorem State.refusedAll_capture (s : State) : s.refusedAll.capture = s.refusedPosted.capture := by
  unfold State.refusedAll
  exact (State.Touches.foldl State.refuseTaken_touches _ _).capture (by decide)

/-- What a warm reset leaves of the slots and their reply areas (R155, R156, R158). -/
structure State.ResetSlots (s t : State) : Prop where
  slots : ∀ k : SlotId, t.requests.slots[k] =
    if s.requests.slots[k] = .posted ∨ s.requests.slots[k] = .taken then .refused else s.requests.slots[k]
  posted : s.mem.wf → ∀ k : SlotId, s.requests.slots[k] = .posted →
    t.mem.bytes (slotByte k + 0x80) 384 = resetBytes (s.serial k)
  taken : s.mem.wf → ∀ e ∈ s.requests.table, e.ShowsReset t
  others : s.RepliesIn t fun k => s.requests.slots[k] = .posted ∨ s.requests.slots[k] = .taken

theorem State.ResetSlots.of_same {t u : State} (h : s.ResetSlots t) (hr : u.requests.slots = t.requests.slots)
    (hm : u.mem = t.mem) : s.ResetSlots u where
  slots := by
    rw [hr]
    exact h.slots
  posted := by
    rw [hm]
    exact h.posted
  taken := fun wf e he => (h.taken wf e he).of_repliesIn (.of_mem hm fun _ => False) id
  others := h.others.trans (.of_mem hm _)

theorem State.warmRequests_resetSlots {v : State} (h : s.RequestsOk) (hr : v.requests = s.requests) (hm : v.mem = s.mem)
    (hserial : ∀ k, v.serial k = s.serial k) : s.ResetSlots v.warmRequests := by
  obtain ⟨distinct, posted, apart, taken, -⟩ := h
  rw [← hr] at distinct posted apart taken
  have mem : v.warmRequests.mem = v.refusedAll.mem := rfl
  have slots : v.warmRequests.requests.slots = v.refusedAll.requests.slots := rfl
  refine ⟨fun k => ?_, fun wf k hk => ?_, fun wf e he => ?_, ?_⟩
  · rw [slots, State.refusedAll_slots, ← hr]
    simp only [posted k, taken k]
  · rw [← hr] at hk
    rw [← hm] at wf
    have notTaken : ¬k ∈ v.requests.table.map PendingEntry.slot := fun hin => by
      cases hk.symm.trans ((taken k).mp hin)
    rw [mem, v.refusedAll_repliesIn_table.bytes notTaken (by decide) (by decide),
      State.refusedPosted_bytes wf distinct k ((posted k).mpr hk), hserial]
  · rw [← hr] at he
    rw [← hm] at wf
    exact (State.refusedAll_showsReset wf apart e he).of_repliesIn (.of_mem mem fun _ => False) id
  · rw [← hr]
    have first := v.refusedPosted_repliesIn.mono fun k hk => Or.inl (b := v.requests.slots[k] = .taken) ((posted k).mp hk)
    have second := v.refusedAll_repliesIn_table.mono fun k hk => Or.inr (a := v.requests.slots[k] = .posted) ((taken k).mp hk)
    exact (State.RepliesIn.of_mem hm _).trans ((first.trans second).trans (.of_mem mem _))

theorem State.warmRequests_capture
    (h : ∀ k ∈ s.requests.intake, s.ecc.exchange.lookup (slotWord k + 2) = none) : s.warmRequests.capture = s.capture := by
  have same : s.warmRequests.capture = s.refusedAll.capture := rfl
  rw [same, State.refusedAll_capture, State.refusedPosted_capture h]

end

end Sys2Proof.Machine
end

section
/-! SUPPORT. The completion of a warm reset (R18, R89, R112, R143). -/

namespace Sys2Proof.Machine

/-! ### Effects on each element of a block -/

/-- Steps that each change their own element change every listed element once. -/
theorem foldl_each {α : Type} {n : Nat} {get : State → Vector α n} {f : State → Fin n → State} {g : α → α}
    (hf : ∀ s i, get (f s i) = (get s).set i (g (get s)[i])) {is : List (Fin n)} (hn : is.Nodup) (s : State) (j : Fin n) :
    (get (is.foldl f s))[j] = if j ∈ is then g (get s)[j] else (get s)[j] := by
  induction is generalizing s with
  | nil => simp
  | cons i is ih =>
    rw [List.nodup_cons] at hn
    obtain ⟨fresh, distinct⟩ := hn
    rw [List.foldl_cons, ih distinct, hf, getElem_fin_set]
    by_cases hj : j = i
    · subst hj
      simp [fresh]
    · simp [hj]

/-- A receiver after a warm reset (R18). -/
def Receiver.warmed (r : Receiver) : Receiver :=
  match r.state with
  | .down => r
  | .hunt => { r with fifo := [], inProgress := [] }
  | .sync => { r with state := .hunt, fifo := [], inProgress := [], consecutiveBad := 0, silenceTimer := none }

theorem State.warmLink_links (s : State) (l : LinkId) : (s.warmLink l).links = s.links.set l s.links[l].warmed := by
  unfold State.warmLink Receiver.warmed
  dsimp only
  cases s.links[l].state with
  | down => exact (Vector.set_getElem_self l.isLt).symm
  | hunt => rfl
  | sync =>
    unfold State.changeReceiver
    simp [getElem_fin_set_self, State.latch, State.putLink, State.rewrite]

theorem State.warmLinks_links (s : State) (l : LinkId) : s.warmLinks.links[l] = s.links[l].warmed := by
  have each := foldl_each (get := State.links) State.warmLink_links (List.nodup_finRange 6) s l
  rwa [if_pos (List.mem_finRange l)] at each

theorem State.warmBanks_banks (s : State) (b : BankId) : s.warmBanks.banks[b] = s.banks[b].warm := by
  have each := foldl_each (get := State.banks) (f := fun s b => s.putBank b s.banks[b].warm) (fun _ _ => rfl)
    (List.nodup_finRange 8) s b
  rwa [if_pos (List.mem_finRange b)] at each

/-- The close that a warm reset leaves held (R89). -/
def HeldClose.warmed (h : HeldClose) : Option HeldClose :=
  if h.causes.tariff = true ∨ h.causes.count = true ∨ h.causes.overlong = true then
    some ⟨{ h.causes with host := false, stop := false }, []⟩ else none

theorem Bank.warm_eq (x : Bank) : x.warm = { x with held := x.held.bind HeldClose.warmed } := by
  obtain ⟨phase, sets, previous, interval, timing, held, billing, notify, archive⟩ := x
  unfold Bank.warm
  cases held with
  | none => rfl
  | some h =>
    have empty : Causes.isEmpty { h.causes with host := false, stop := false } =
        !(h.causes.tariff || h.causes.count || h.causes.overlong) := by simp [Causes.isEmpty]
    dsimp only
    rw [Option.bind_some, empty]
    unfold HeldClose.warmed
    grind

/-! ### The state before the held-close tests -/

/-- The blocks before the request unit after their warm-reset effects (R143). -/
def State.warmBlocks (s : State) : State := s.warmLinks.warmSorter.warmWatches.warmBanks.warmRegisters

/-- The parts that the blocks before the request unit change. -/
def Part.ofWarmBlocks : List Part :=
  [.links, .queue, .lastHanded, .heldFrame, .consecutiveLate, .resyncMark, .discarded, .watches, .banks, .regs, .latched,
    .exchangeMarks, .registerMarks]

theorem State.warmBlocks_touches (s : State) : s.Touches Part.ofWarmBlocks s.warmBlocks := by
  unfold State.warmBlocks
  refine .trans ?_ ((State.warmRegisters_touches _).mono (by decide))
  refine .trans ?_ ((State.warmBanks_touches _).mono (by decide))
  refine .trans ?_ ((State.warmWatches_touches _).mono (by decide))
  refine .trans ?_ ((State.warmSorter_touches _).mono (by decide))
  exact s.warmLinks_touches.mono (by decide)

/-- The words of no image read alike in both states. -/
def State.SameOrdinary (s t : State) : Prop := ∀ w, ordinaryWord w → s.SameWord t w

namespace State.SameOrdinary

variable {s t u : State}

theorem refl (s : State) : s.SameOrdinary s := fun w _ => .refl s w

theorem trans (h : s.SameOrdinary t) (h' : t.SameOrdinary u) : s.SameOrdinary u := fun w hw => (h w hw).trans (h' w hw)

theorem rewrite (s u : State) (hm : u.mem = s.mem) (he : u.ecc.exchange = s.ecc.exchange) : s.SameOrdinary (s.rewrite u) :=
  fun _ hw => .rewrite s u hm he hw

theorem of_touches {ps : List Part} (h : s.Touches ps t) (hm : Part.mem ∉ ps) (he : Part.exchangeMarks ∉ ps) : s.SameOrdinary t :=
  fun _ _ => ⟨by rw [h.mem hm], Or.inl (by rw [h.exchangeMarks he])⟩

theorem putLink (s : State) (l : LinkId) (r : Receiver) : s.SameOrdinary (s.putLink l r) := rewrite s _ rfl rfl

theorem putBank (s : State) (b : BankId) (x : Bank) : s.SameOrdinary (s.putBank b x) := rewrite s _ rfl rfl

theorem latch (s : State) (c : Cause) : s.SameOrdinary (s.latch c) := fun _ _ => ⟨rfl, Or.inl rfl⟩

theorem warmLinks (s : State) : s.SameOrdinary s.warmLinks := by
  unfold State.warmLinks
  refine foldl_keeps (P := fun u => s.SameOrdinary u) _ (fun u l _ hu => hu.trans ?_) (refl s)
  unfold State.warmLink
  dsimp only
  split
  · exact refl u
  · exact putLink u l _
  · unfold State.changeReceiver
    exact (putLink u l _).trans ((putLink _ l _).trans (latch _ .link))

theorem warmSorter (s : State) : s.SameOrdinary s.warmSorter := rewrite s _ rfl rfl

theorem warmBanks (s : State) : s.SameOrdinary s.warmBanks := by
  unfold State.warmBanks
  exact foldl_keeps (P := fun u => s.SameOrdinary u) _ (fun u b _ hu => hu.trans (putBank u b _)) (refl s)

theorem warmBlocks (s : State) : s.SameOrdinary s.warmBlocks := by
  unfold State.warmBlocks
  refine .trans ?_ (of_touches (State.warmRegisters_touches _) (by decide) (by decide))
  refine .trans ?_ (warmBanks _)
  refine .trans ?_ (of_touches (State.warmWatches_touches _) (by decide) (by decide))
  exact (warmLinks s).trans (warmSorter _)

theorem clean (h : s.SameOrdinary t) (k : SlotId) (hw : s.ecc.exchange.lookup (slotWord k + 2) = none) :
    t.ecc.exchange.lookup (slotWord k + 2) = none := by
  obtain ⟨-, same | ⟨-, cleared⟩⟩ := h _ (ordinaryWord_slot k (j := 2) (by decide) (by decide))
  · exact same.trans hw
  · exact cleared

theorem serial (h : s.SameOrdinary t) (k : SlotId) : t.serial k = s.serial k := (State.SameArea.of_ordinary h k).serial

end State.SameOrdinary

/-- The state in which the held-close tests of a warm reset are made (R143; assumption 11). -/
def State.warmed (s : State) : State := s.warmEffects.clearCausesButCapture.endWarm

theorem State.warmEffects_eq (s : State) : s.warmEffects = s.warmBlocks.warmRequests := rfl

theorem State.warmed_touches (s : State) : s.warmBlocks.Touches (.control :: Part.ofWarmRequests) s.warmed := by
  unfold State.warmed
  rw [State.warmEffects_eq]
  refine .trans ?_ ((State.endWarm_touches _).mono (by decide))
  refine .trans ?_ ((State.clearCausesButCapture_touches _).mono (by decide))
  exact (State.warmRequests_touches _).mono (by decide)

section
variable (s : State)

theorem State.warmed_control : s.warmed.control = { s.control with warm := false } := by
  have blocks := s.warmBlocks_touches.control (by decide)
  have requests := s.warmBlocks.warmRequests_touches.control (by decide)
  have cleared (u : State) : u.clearCausesButCapture.endWarm.control = { u.control with warm := false } := rfl
  unfold State.warmed
  rw [cleared, State.warmEffects_eq, requests, blocks]

theorem State.warmed_latched : s.warmed.notices.latched &&& ~~~Cause.capture.flag = 0 := by
  have latched : s.warmed.notices.latched = s.warmEffects.notices.latched &&& Cause.capture.flag := rfl
  rw [latched, BitVec.and_assoc, BitVec.and_not_self]
  exact BitVec.and_zero

theorem State.warmed_links (l : LinkId) : s.warmed.links[l] = s.links[l].warmed := by
  rw [s.warmed_touches.links (by decide)]
  unfold State.warmBlocks
  rw [(State.warmRegisters_touches _).links (by decide), (State.warmBanks_touches _).links (by decide),
    (State.warmWatches_touches _).links (by decide), (State.warmSorter_touches _).links (by decide), State.warmLinks_links]

theorem State.warmed_sorter : s.warmed.sorter = { s.sorter with
    queue := [], lastHanded := none, heldFrame := none, consecutiveLate := 0, resyncMark := false
    discarded := s.sorter.discarded + BitVec.ofNat 32 s.sorter.queue.length } := by
  have reset (u : State) : u.warmSorter.sorter = { u.sorter with
      queue := [], lastHanded := none, heldFrame := none, consecutiveLate := 0, resyncMark := false
      discarded := u.sorter.discarded + BitVec.ofNat 32 u.sorter.queue.length } := rfl
  rw [s.warmed_touches.sorter (by decide)]
  unfold State.warmBlocks
  rw [(State.warmRegisters_touches _).sorter (by decide), (State.warmBanks_touches _).sorter (by decide),
    (State.warmWatches_touches _).sorter (by decide), reset, s.warmLinks_touches.sorter (by decide)]

theorem State.warmed_watches : s.warmed.watches = Vector.replicate 40 State.resetWatch := by
  have reset (u : State) : u.warmWatches.watches = Vector.replicate 40 State.resetWatch := rfl
  rw [s.warmed_touches.watches (by decide)]
  unfold State.warmBlocks
  rw [(State.warmRegisters_touches _).watches (by decide), (State.warmBanks_touches _).watches (by decide), reset]

theorem State.warmed_banks (b : BankId) : s.warmed.banks[b] = { s.banks[b] with held := s.banks[b].held.bind HeldClose.warmed } := by
  have before : s.warmLinks.warmSorter.warmWatches.banks = s.banks :=
    ((State.warmWatches_touches _).banks (by decide)).trans
      (((State.warmSorter_touches _).banks (by decide)).trans (s.warmLinks_touches.banks (by decide)))
  rw [s.warmed_touches.banks (by decide)]
  unfold State.warmBlocks
  rw [(State.warmRegisters_touches _).banks (by decide), State.warmBanks_banks, before, Bank.warm_eq]

theorem State.warmed_regs (p : SetId) : s.warmed.regs[p] = { s.regs[p] with rebase := none } := by
  have before : s.warmLinks.warmSorter.warmWatches.warmBanks.regs = s.regs :=
    ((State.warmBanks_touches _).regs (by decide)).trans (((State.warmWatches_touches _).regs (by decide)).trans
      (((State.warmSorter_touches _).regs (by decide)).trans (s.warmLinks_touches.regs (by decide))))
  have withdrawn (u : State) : u.warmRegisters.regs[p] = { u.regs[p] with rebase := none } := getElem_fin_tabulate _ _ p
  rw [s.warmed_touches.regs (by decide)]
  unfold State.warmBlocks
  rw [withdrawn, before]

/-- The parts that a warm reset does not touch before its held-close tests. -/
theorem State.warmed_kept : s.Touches (.control :: Part.ofWarm) s.warmed :=
  (s.warmBlocks_touches.mono (by decide)).trans (s.warmed_touches.mono (by decide))

theorem State.warmBlocks_requests : s.warmBlocks.requests = s.requests := s.warmBlocks_touches.requests (by decide)

theorem State.warmBlocks_mem : s.warmBlocks.mem = s.mem := s.warmBlocks_touches.mem (by decide)

theorem State.warmed_requests : s.warmed.requests.intake = [] ∧ s.warmed.requests.table = [] ∧
    s.warmed.requests.quotaCount = 0 ∧ s.warmed.requests.quotaTimer = some 250 := by
  have kept (u : State) : u.clearCausesButCapture.endWarm.requests = u.requests := rfl
  unfold State.warmed
  rw [kept, State.warmEffects_eq, State.warmRequests_eq]
  exact ⟨rfl, rfl, rfl, rfl⟩

theorem State.warmed_capture (h : s.RequestsOk)
    (hclean : ∀ k : SlotId, s.requests.slots[k] = .posted → s.ecc.exchange.lookup (slotWord k + 2) = none) :
    s.warmed.capture = s.capture := by
  obtain ⟨-, posted, -⟩ := h
  have kept (u : State) : u.clearCausesButCapture.endWarm.capture = u.capture := rfl
  have blocks := s.warmBlocks_touches.capture (by decide)
  unfold State.warmed
  rw [kept, State.warmEffects_eq, State.warmRequests_capture, blocks]
  intro k hk
  rw [State.warmBlocks_requests] at hk
  exact (State.SameOrdinary.warmBlocks s).clean k (hclean k ((posted k).mp hk))

theorem State.warmed_resetSlots (h : s.RequestsOk) : s.ResetSlots s.warmed := by
  have slots (u : State) : u.clearCausesButCapture.endWarm.requests.slots = u.requests.slots := rfl
  have mem (u : State) : u.clearCausesButCapture.endWarm.mem = u.mem := rfl
  have reset := State.warmRequests_resetSlots h s.warmBlocks_requests s.warmBlocks_mem (State.SameOrdinary.warmBlocks s).serial
  unfold State.warmed
  rw [State.warmEffects_eq]
  exact reset.of_same (slots _) (mem _)

end

end Sys2Proof.Machine
end

section
/-! SUPPORT. The held-close tests that end a warm reset (R78, R143; assumption 11). -/

namespace Sys2Proof.Machine

/-! ### The tests of all banks, bank by bank -/

/-- Bank `b`, its fold, its points and its register sets are the same in both states. -/
structure State.AlikeAt (s t : State) (b : BankId) : Prop where
  banks : t.banks[b] = s.banks[b]
  folds : t.folds[b] = s.folds[b]
  profiles : ∀ i : Fin 5, t.profiles[pointAt b i] = s.profiles[pointAt b i]
  regs : ∀ p : SetId, bankOfSet p = b → t.regs[p] = s.regs[p]

namespace State.AlikeAt

variable {s t u : State} {b : BankId}

theorem refl (s : State) (b : BankId) : s.AlikeAt s b := ⟨rfl, rfl, fun _ => rfl, fun _ _ => rfl⟩

theorem trans (h : s.AlikeAt t b) (h' : t.AlikeAt u b) : s.AlikeAt u b where
  banks := h'.banks.trans h.banks
  folds := h'.folds.trans h.folds
  profiles := fun i => (h'.profiles i).trans (h.profiles i)
  regs := fun p hp => (h'.regs p hp).trans (h.regs p hp)

theorem heldTest (s : State) {b b' : BankId} (h : b' ≠ b) : s.AlikeAt (s.heldTest b) b' where
  banks := (State.OnlyBank.heldTest s b).banks b' h
  folds := (State.OnlyBank.heldTest s b).folds b' h
  profiles := (State.OnlyBank.heldTest s b).profiles b' h
  regs := fun p hp => (State.OnlyBank.heldTest s b).regs p fun own => h (hp.symm.trans own)

theorem heldTests (s : State) {bs : List BankId} (h : b ∉ bs) : s.AlikeAt (bs.foldl State.heldTest s) b :=
  foldl_keeps (P := fun u => s.AlikeAt u b) bs (fun u _ hb hu => hu.trans (heldTest u fun heq => h (heq ▸ hb))) (refl s b)

end State.AlikeAt

/-- After the tests of several banks each bank is as its own test leaves it. -/
theorem State.heldTests_at (s : State) {bs : List BankId} (hn : bs.Nodup) {b : BankId} (hb : b ∈ bs) :
    ∃ u : State, s.AlikeAt u b ∧ u.control = s.control ∧ (u.heldTest b).AlikeAt (bs.foldl State.heldTest s) b := by
  obtain ⟨before, after, rfl⟩ := List.append_of_mem hb
  obtain ⟨-, distinct, apart⟩ := List.nodup_append.mp hn
  have notBefore : b ∉ before := fun hin => apart b hin b List.mem_cons_self rfl
  have notAfter : b ∉ after := (List.nodup_cons.mp distinct).1
  refine ⟨before.foldl State.heldTest s, .heldTests s notBefore, (State.heldTests_touches s before).control (by decide), ?_⟩
  rw [List.foldl_append, List.foldl_cons]
  exact .heldTests _ notAfter

/-- A bank after its held-close test (R78, R80, R81). -/
theorem State.heldTest_outcome {u : State} {b : BankId} {x : Bank} (hx : u.banks[b] = x) (hw : u.control.warm = false) :
    (u.heldTest b).banks[b].billing = x.billing ∧ (u.heldTest b).banks[b].notify = x.notify ∧
    (u.heldTest b).banks[b].archive = x.archive ∧
    if x.mayStart = true then
      ∃ f h, x.held = some h ∧ (u.heldTest b).folds[b] = some f ∧ f.interval = x.interval ∧ f.causes = h.causes ∧
        (u.heldTest b).banks[b].held = none ∧ (u.heldTest b).banks[b].sets[f.set] = { x.sets[f.set] with causes := h.causes }
    else u.heldTest b = u := by
  by_cases hm : x.mayStart = true
  · rw [if_pos hm]
    rw [← hx] at hm ⊢
    obtain ⟨a, c, -, hheld, hstart, hfold, hnone⟩ := State.heldTest_at hm hw
    have turned : (u.heldTest b).banks[b] = (u.applyStaged b).turnedBank b a c := by
      rw [hstart, State.closeStart_banks, getElem_fin_set_self]
    have banks := (u.applyStaged_touches b).banks (by decide)
    have set : ((u.applyStaged b).turnedBank b a c).sets[a] = { (u.applyStaged b).banks[b].sets[a] with causes := c.causes } :=
      getElem_fin_set_self _ _ _
    rw [turned] at hnone ⊢
    refine ⟨?_, ?_, ?_, _, c, hheld, hfold, rfl, rfl, hnone, ?_⟩
    · rw [← banks]
      rfl
    · rw [← banks]
      rfl
    · rw [← banks]
      rfl
    · rw [← banks]
      exact set
  · rw [if_neg hm]
    have idle : u.heldTest b = u := State.heldTest_of_idle fun h => hm (hx ▸ h.1)
    rw [idle, hx]
    exact ⟨rfl, rfl, rfl, rfl⟩

/-! ### What the tests keep -/

/-- A register set without a pending REBASE, its contents as before but for due marks (R95, R112). -/
structure RegisterSet.Withdrawn (r r' : RegisterSet) : Prop where
  rebase : r'.rebase = none
  quantities : r'.quantities = r.quantities
  scale : r'.scale = r.scale
  lastFolded : r'.lastFolded = r.lastFolded
  staged : r'.staged.map StagedScale.value = r.staged.map StagedScale.value

theorem RegisterSet.Withdrawn.makeDue {r r' : RegisterSet} (h : r.Withdrawn r') : r.Withdrawn r'.makeDue where
  rebase := by
    unfold RegisterSet.makeDue
    rw [h.rebase]
    rfl
  quantities := h.quantities
  scale := h.scale
  lastFolded := h.lastFolded
  staged := by
    rw [← h.staged]
    unfold RegisterSet.makeDue
    cases r'.staged with
    | none => rfl
    | some x => rfl

theorem State.heldTests_withdrawn {s u : State} (h : ∀ p : SetId, s.regs[p].Withdrawn u.regs[p]) (bs : List BankId) (p : SetId) :
    s.regs[p].Withdrawn (bs.foldl State.heldTest u).regs[p] := by
  refine foldl_keeps (P := fun v => ∀ p : SetId, s.regs[p].Withdrawn v.regs[p]) bs (fun v b _ hv p => ?_) h p
  rcases v.heldTest_cases b with heq | ⟨a, c, -, -, -, -, heq⟩
  · rw [heq]
    exact hv p
  · rw [heq, State.closeStart_regs, getElem_fin_tabulate]
    split
    · exact (hv p).makeDue
    · exact hv p

theorem State.heldTests_table {u : State} (h : u.requests.table = []) (bs : List BankId) :
    (bs.foldl State.heldTest u).requests.table = [] := by
  refine foldl_keeps (P := fun v => v.requests.table = []) bs (fun v b _ hv => ?_) h
  rcases v.heldTest_cases b with heq | ⟨a, c, -, -, -, -, heq⟩
  · rw [heq]
    exact hv
  · rw [heq, State.closeStart_table, hv]
    rfl

/-! ### The completion -/

theorem State.completeWarm_eq (s : State) : s.completeWarm = (List.finRange 8).foldl State.heldTest s.warmed := rfl

section
variable (s : State)

theorem State.completeWarm_touches : s.warmed.Touches Part.ofClose s.completeWarm := s.warmed.heldTests_touches (List.finRange 8)

theorem State.completeWarm_withdrawn (p : SetId) : s.regs[p].Withdrawn s.completeWarm.regs[p] := by
  have before (q : SetId) : s.regs[q].Withdrawn s.warmed.regs[q] := by
    rw [State.warmed_regs]
    exact ⟨rfl, rfl, rfl, rfl, rfl⟩
  exact State.heldTests_withdrawn before (List.finRange 8) p

theorem State.completeWarm_resetSlots (h : s.RequestsOk) : s.ResetSlots s.completeWarm :=
  (s.warmed_resetSlots h).of_same (s.completeWarm_touches.slots (by decide)) (s.completeWarm_touches.mem (by decide))

theorem State.completeWarm_table : s.completeWarm.requests.table = [] := by
  obtain ⟨-, table, -⟩ := s.warmed_requests
  rw [State.completeWarm_eq]
  exact State.heldTests_table table (List.finRange 8)

/-- Bank `b`, its fold, its points and its register sets after a warm reset (R78, R89, R143). -/
theorem State.completeWarm_bank (b : BankId) (hfold : s.folds[b] = none) {left : Option HeldClose}
    (hl : left = s.banks[b].held.bind HeldClose.warmed) :
    s.completeWarm.banks[b].billing = s.banks[b].billing ∧ s.completeWarm.banks[b].notify = s.banks[b].notify ∧
    s.completeWarm.banks[b].archive = s.banks[b].archive ∧
    if ({ s.banks[b] with held := left } : Bank).mayStart = true then
      ∃ f h, left = some h ∧ s.completeWarm.folds[b] = some f ∧ f.interval = s.banks[b].interval ∧ f.causes = h.causes ∧
        s.completeWarm.banks[b].held = none ∧
        s.completeWarm.banks[b].sets[f.set] = { s.banks[b].sets[f.set] with causes := h.causes }
    else s.completeWarm.banks[b] = { s.banks[b] with held := left } ∧ s.completeWarm.folds[b] = none ∧
      (∀ i : Fin 5, s.completeWarm.profiles[pointAt b i] = s.profiles[pointAt b i]) ∧
      ∀ p : SetId, bankOfSet p = b → s.completeWarm.regs[p].staged = s.regs[p].staged := by
  obtain ⟨u, before, control, after⟩ := s.warmed.heldTests_at (List.nodup_finRange 8) (List.mem_finRange b)
  have bank : u.banks[b] = { s.banks[b] with held := left } := by rw [before.banks, State.warmed_banks, hl]
  have warm : u.control.warm = false := by rw [control, State.warmed_control]
  obtain ⟨billing, notify, archive, outcome⟩ := State.heldTest_outcome bank warm
  rw [State.completeWarm_eq, after.banks, after.folds]
  refine ⟨billing, notify, archive, ?_⟩
  by_cases hm : ({ s.banks[b] with held := left } : Bank).mayStart = true
  · rw [if_pos hm] at outcome ⊢
    exact outcome
  · rw [if_neg hm] at outcome ⊢
    rw [outcome] at after ⊢
    have same := before.trans after
    refine ⟨bank, ?_, fun i => ?_, fun p hp => ?_⟩
    · rw [before.folds, s.warmed_kept.folds (by decide), hfold]
    · rw [same.profiles, s.warmed_kept.profiles (by decide)]
    · rw [same.regs p hp, State.warmed_regs]

end

theorem State.quiet_folds {s : State} (h : s.quiet = true) (b : BankId) : s.folds[b] = none := by
  unfold State.quiet at h
  have folds := (Bool.and_eq_true_iff.mp h).2
  exact Option.isNone_iff_eq_none.mp (List.all_eq_true.mp folds b (List.mem_finRange b))

/-- What a refused TAKEN slot shows of its work (R155, R156, R158). -/
theorem PendingEntry.ShowsReset.fields {e : PendingEntry} {t : State} (h : e.ShowsReset t) :
    t.mem.bytes (slotByte e.slot + 0x88) 8 = leBytes 4 0 ++ leBytes 4 11 ∧
    (∀ p, e.work = .rebase p → t.mem.bytes (slotByte e.slot + 0x9C) 4 = leBytes 4 0) ∧
    ∀ kind out closed, e.work = .banks kind out closed →
      t.mem.bytes (slotByte e.slot + 0x9C) 4 = leBytes 4 closed.length ∧
      ((closed.map Prod.fst).Nodup →
        ∃ list : List (BankId × Word), list.Perm closed ∧ list.Pairwise (fun y z => y.1 < z.1) ∧
          t.mem.bytes (slotByte e.slot + 0xC0) (8 * list.length) =
            list.flatMap fun y => leBytes 4 y.1.val ++ wordBytes y.2) := by
  obtain ⟨slot, work⟩ := e
  refine ⟨h.outcome, ?_, ?_⟩
  · rintro p rfl
    exact h.count
  · rintro kind out closed rfl
    exact ⟨h.count, fun hn => State.ShowsEnd.closedList h hn⟩

theorem Receiver.warmed_spec (r : Receiver) : r.warmed.errors = r.errors ∧ r.warmed.good = r.good ∧ r.warmed.bad = r.bad ∧
    r.warmed.lost = r.lost ∧
    if r.state = .down then r.warmed = r
    else r.warmed.state = .hunt ∧ r.warmed.fifo = [] ∧ r.warmed.inProgress = [] ∧
      (r.state = .sync → r.warmed.consecutiveBad = 0 ∧ r.warmed.silenceTimer = none) := by
  unfold Receiver.warmed
  cases h : r.state with
  | down => simp
  | hunt => simp
  | sync => simp

/-- Settles O60: block by block, then bank by bank. -/
theorem warmResetCompletes : Obligations.WarmResetCompletes := by
  intro s hready
  have effect : exec .warmResetCompletion s = .next s.warmCompletion := exec_of_ready _ hready
  refine ⟨fun hwarm hquiet hrequests => ?_, fun hidle => ?_⟩
  · have completes : s.warmCompletion = s.completeWarm := by
      unfold State.warmCompletion
      rw [hwarm, hquiet]
      rfl
    have tests := s.completeWarm_touches
    have kept := s.warmed_kept
    have both : s.Touches (.control :: (Part.ofWarm ++ Part.ofClose)) s.completeWarm :=
      (kept.mono (by decide)).trans (tests.mono (by decide))
    have sorter := (tests.sorter (by decide)).trans s.warmed_sorter
    have slots := s.completeWarm_resetSlots hrequests
    obtain ⟨intake, -, quotaCount, quotaTimer⟩ := s.warmed_requests
    refine ⟨s.completeWarm, effect.trans (by rw [completes]), (tests.control (by decide)).trans s.warmed_control, fun l => ?_,
      ?_, ?_, ?_, ?_, ?_, ?_, ?_, ?_, ?_, ?_, ?_, ?_, fun p => ?_, fun p => ?_, fun hclean => ?_, slots.slots, fun hmem => ?_,
      (tests.intake (by decide)).trans intake, s.completeWarm_table, (tests.quotaCount (by decide)).trans quotaCount,
      (tests.quotaTimer (by decide)).trans quotaTimer, both.quotaLimit (by decide), both.writer (by decide),
      both.exceptions (by decide), both.owner (by decide), both.mask (by decide), both.bankCounters (by decide),
      both.timing (by decide), ?_, fun b left hleft => ?_⟩
    · have link : s.completeWarm.links[l] = s.links[l].warmed := by rw [tests.links (by decide), State.warmed_links]
      rw [link]
      exact Receiver.warmed_spec _
    iterate 12 rw [sorter]
    · rw [tests.watches (by decide), State.warmed_watches]
      simp [State.resetWatch]
    · have set := s.completeWarm_withdrawn p
      exact ⟨set.rebase, set.quantities, set.scale, set.lastFolded, set.staged⟩
    · have word (k : SlotId) : slotWord k + 2 = 1026 + 128 * k.val := by
        unfold slotWord
        omega
      exact (tests.capture (by decide)).trans (s.warmed_capture hrequests fun k hk => word k ▸ hclean k hk)
    · obtain ⟨wf, -⟩ := hmem
      exact ⟨slots.posted wf, fun e he => (slots.taken wf e he).fields,
        fun a ha => slots.others a fun k hk => not_or.mpr (ha k hk)⟩
    · rw [tests.latched_eq (by decide)]
      exact s.warmed_latched
    · refine s.completeWarm_bank b (State.quiet_folds hquiet b) (hleft.trans ?_)
      cases s.banks[b].held with
      | none => rfl
      | some h => rfl
  · have stays : s.warmCompletion = s := by
      unfold State.warmCompletion
      rcases hidle with h | h
      · rw [h]
        rfl
      · rw [h, Bool.and_false]
        rfl
    rw [effect, stays]

end Sys2Proof.Machine
end
